-- ==== Sys2Proof/Word.lean ====
section
/-! DEFINITION. The word types of the model and their plainest arithmetic. -/

namespace Sys2Proof

/-- One byte of a message, a record or an octet string (R12). -/
abbrev Byte := BitVec 8

/-- A dictionary value (R57): a number held as its unsigned bits, or a string of octets. -/
inductive Val where
  | num (n : Nat)
  | oct (b : List Byte)
  deriving DecidableEq, Repr, Inhabited

/-- The number a value holds (an octet string holds none and reads as 0). -/
def Val.toNat : Val → Nat
  | .num n => n
  | .oct _ => 0

/-- The octets a value holds (a number holds none). -/
def Val.octets : Val → List Byte
  | .num _ => []
  | .oct b => b

/-- An exact rational num / den, den > 0: the rates of the servo law (R92), which the spec rounds only when the increment is
formed. -/
structure Frac where
  num : Int
  den : Nat
  deriving DecidableEq, Repr, Inhabited

/-- A finite IEEE 754 binary64 number m × 2^e (R251), |m| < 2^53. -/
structure F64 where
  m : Int
  e : Int
  deriving DecidableEq, Repr, Inhabited

/-- A block floating-point datum or state, m × 2^(e−31) (R215). -/
structure Bfp where
  m : Int
  e : Int
  deriving DecidableEq, Repr, Inhabited

end Sys2Proof
end

