-- ==== Sys2Proof/Syntax.lean ====
section
/-! DEFINITION. The commands of the block: one constructor of `Instr` for each row of spec/opcode_table.json, with the
operands that the sender supplies. A register write carries the client and its TRANSACTION (R76, R77); an event carries what
the outside world measured or decided. -/

namespace Sys2Proof

/-- Who sends a dictionary request: an uplink session (R82), a station on a ring (R81), or the cyclic program (R334). -/
inductive ClientId where
  | session (n : Fin 16)
  | station (a : Fin 2048)
  | program
  deriving DecidableEq, Repr

/-- Client roles (R63). -/
inductive Role where
  | observe
  | operate
  | engineer
  deriving DecidableEq, Repr

/-- The apply block of R78, field by field as it stands in the message. -/
structure Apply where
  kind : Byte
  n    : Byte
  attr : Byte
  rsv  : Byte
  due  : BitVec 96
  deriving DecidableEq, Repr

/-- A write request of one entry: client, TRANSACTION and optional apply block. -/
structure WriteCtx where
  client : ClientId
  txn    : BitVec 16
  apply  : Option Apply
  deriving DecidableEq, Repr

/-- The header and the data of a DAZ request (R76); the opcode is the command itself. -/
structure DazMsg where
  flags    : Byte
  txn      : BitVec 16
  index    : BitVec 16
  sub      : Byte
  count    : Byte
  length   : BitVec 32
  abort    : BitVec 16
  reserved : BitVec 16
  data     : List Byte
  deriving DecidableEq, Repr

/-- Logic dies (R19). -/
inductive Die where
  | cx
  | na
  | nb
  | ax
  | fx
  deriving DecidableEq, Repr

/-- The two path engines (R176). -/
inductive Engine where
  | na
  | nb
  deriving DecidableEq, Repr

/-- Link directions (R29). The tick link counts once for each receiver. -/
inductive Link where
  | cxNa
  | naCx
  | cxNb
  | nbCx
  | naNb
  | nbNa
  | cxAx
  | axCx
  | tickCx
  | tickNa
  | tickNb
  | tickFx
  | axFx
  | fxAx
  deriving DecidableEq, Repr

/-- A Sync as the servo sees it (R92, R97 to R99): its transmitter, the sync interval, the transmitter's origin time and the raw
ingress stamp in the time base, both in units of 2^-16 ns, and whether it came tunnelled and so was stamped in software. -/
structure SyncMsg where
  port        : Fin 10
  transmitter : BitVec 64
  logInterval : Int
  origin      : Nat
  ingress     : Nat
  tunnelled   : Bool
  deriving DecidableEq, Repr

/-- An Announce message (R91, R97): its transmitter, and what the best master clock algorithm compares of its grandmaster. -/
structure AnnounceMsg where
  port        : Fin 10
  transmitter : BitVec 64
  grandmaster : BitVec 64
  logInterval : Int
  priority1   : Byte
  clockClass  : Byte
  quality     : BitVec 24
  priority2   : Byte
  steps       : BitVec 16
  deriving DecidableEq, Repr

/-- What one slot of a returning train shows (R142, R143, R151): its station, the ACK byte with SEQ and IN_VALID, APPLIED, LINK_ERR, the
input area and the mailbox area. -/
structure SlotAnswer where
  station : Fin 2048
  ack     : Byte
  applied : BitVec 16
  linkErr : BitVec 16
  inputs  : List Byte
  mailbox : List Byte
  deriving DecidableEq, Repr

/-- The frame types of R138. -/
inductive FrameKind where
  | cyclic
  | rein
  | discover
  | configure
  | delay
  | delayRead
  | delayWrite
  deriving DecidableEq, Repr

/-- One returning frame (R131, R137, R151): its length from destination address to FCS, its EtherType, its type, index, ORIGIN and CYCLE,
whether its FCS is good, its ROLL, the stations whose records it holds, the DISCOVER records or CONFIGURE statuses in it, the position at
which it was turned (R164), and its slots. -/
structure FrameIn where
  size     : Nat
  etherType : BitVec 16
  cycle    : BitVec 32
  kind     : FrameKind
  index    : Fin 16
  origin   : Engine
  fcsGood  : Bool
  roll     : BitVec 16
  stations : List (Fin 2048)
  records  : Nat
  turned   : Option Nat
  slots    : List SlotAnswer
  deriving DecidableEq, Repr

/-- The identity record of R155. -/
structure Identity where
  vendor    : BitVec 32
  product   : BitVec 32
  revision  : BitVec 32
  serial    : BitVec 32
  outMax    : BitVec 16
  inMax     : BitVec 16
  mbxMax    : BitVec 16
  links     : Byte
  caps      : Byte
  fwdDelay  : BitVec 16
  configTag : BitVec 32
  deriving DecidableEq, Repr

/-- One DELAY_READ record (R159), in 1/16 ns, with its measurement number. -/
structure DelayRecord where
  no : BitVec 16
  d  : Int
  r  : Nat
  r' : Nat
  deriving DecidableEq, Repr

/-- How a frame of another Henvy module came in (R202): uplink, source address, and the sequence number of its PRP trailer. -/
structure Arrival where
  uplink : Fin 2
  node   : BitVec 48
  seq    : BitVec 16
  deriving DecidableEq, Repr

/-- A MEMBER message of Henvy (R203, R205) and how it came in. -/
structure MemberMsg where
  from_     : Arrival
  number    : Fin 16
  digest    : BitVec 64
  domains   : List Nat
  candidate : Bool
  refused   : Bool
  deriving DecidableEq, Repr

/-- Whose STOP message of Henvy it is (R203, R204) and how it came in. -/
structure StopMsg where
  from_  : Arrival
  number : Fin 16
  deriving DecidableEq, Repr

/-- A failure reported of an SSD (R476): a write that failed, or a SMART critical warning. -/
structure SsdFail where
  drive : Fin 2
  smart : Bool
  deriving DecidableEq, Repr

/-- A memory error of a control cluster (R526): the kind of the item it belongs to (channel, axis or task counted from 0), and whether it was
corrected. -/
structure ClusterError where
  corrected : Bool
  kind      : Fin 3
  deriving DecidableEq, Repr

/-- What a check of R184 found: the clock check with the deviations in ns of this and of the other engine in two consecutive base ticks;
ECC with whether the error was correctable. -/
inductive SelfCheck where
  | transmitPath
  | returningCrc
  | clock (own other : Int × Int)
  | memories (correctable : Bool)
  | hobbleReadBack
  | computeLink
  deriving DecidableEq, Repr

/-- Why coast begins (R191). -/
inductive CoastCause where
  | announced
  | bothLinks
  | oneThenOther
  | loneEngine
  deriving DecidableEq, Repr

/-- The fields of an axis command record after OP (R257). -/
structure AxisCmd where
  flags   : Byte
  lead    : Byte
  pastDue : Byte
  a       : BitVec 64
  b       : BitVec 64
  num     : BitVec 32
  den     : BitVec 32
  dist    : BitVec 32
  deriving DecidableEq, Repr

/-- One held effect of a completed cycle (R334); `streamTaken` are words that its library took from a FIFO (R458). -/
inductive Effect where
  | write (index : BitVec 16) (sub : Byte) (data : List Byte) (apply : Option Apply)
  | setObjects (mask : BitVec 64)
  | stream (fifo : Fin 256) (word : BitVec 72)
  | streamTaken (fifo : Fin 256) (words : Nat)
  | libraryJob (job : Nat)
  deriving DecidableEq, Repr

/-- An output that a program owns (R345): station output bytes, a field output, or an analogue output. -/
inductive OwnedOutput where
  | stationBytes (station : Fin 2048) (offset : Nat) (len : Nat)
  | fieldOut (o : Fin 32)
  | analogueOut (o : Fin 16)
  deriving DecidableEq, Repr

/-- What a completed cycle produced (R334): exchange variables, the retain capture, the output image, the held effects, and
its execution time in ns. -/
structure CycleResult where
  exported : List (Nat × List Byte)
  retain   : List Byte
  outputs  : List (OwnedOutput × List Byte)
  effects  : List Effect
  execNs   : Nat
  deriving DecidableEq, Repr

/-- Work items of the scheduler (R369). -/
inductive ItemKind where
  | taskRelease
  | completion
  | exportedWrite
  | debug
  | flush
  | ostlerWork
  | retainCommit
  | libraryJob
  deriving DecidableEq, Repr

structure WorkItem where
  kind     : ItemKind
  ident    : Nat
  priority : Fin 64
  mask     : Byte
  deriving DecidableEq, Repr

/-- A reference check begins, a check interval passed without a gap for one, or a check measured a deviation (R407). -/
inductive CheckResult where
  | started
  | noGap
  | reading (deviation : Int)
  deriving DecidableEq, Repr

/-- Faults of an analogue output (R421). -/
inductive AoutFaultKind where
  | openLoop
  | short
  | overtemp
  deriving DecidableEq, Repr

/-- Faults of a field output (R439). -/
inductive OutFaultKind where
  | short
  | overload
  | thermal
  deriving DecidableEq, Repr

/-- What probing an SSD found (R474, R476): a volume of this module with its newest segment (index, SEG_SEQ, bytes up to the last valid
chunk) and its chunks, oldest first, as (CHUNK_SEQ, FIRST_TICK, LAST_TICK, segment). -/
inductive ProbeResult where
  | own (volume : BitVec 64) (segIdx segSeq segPos : Nat) (chunks : List (Nat × Nat × Nat × Nat))
  | foreignVolume
  | unusable
  | noSuperblock
  deriving DecidableEq, Repr

/-- Where an uncorrectable LPDDR5 error lies (R527). -/
inductive DramOwner where
  | taskData (task : Fin 64)
  | schedulerList
  | recorderBuffer
  | cbState
  deriving DecidableEq, Repr

/-- An MRAM error (R21, R526). -/
inductive MramErrorKind where
  | corrected
  | copyFailed
  | retainSlot (slot : Fin 64)
  deriving DecidableEq, Repr

/-- Result of a start-up step (R512, R515). -/
inductive StepResult where
  | ok
  | slotFallback
  | bootFail
  | noConfig
  | signatureRefused
  | regionRefused (region : Fin 6)
  | unitFailed (units : List (Fin 104))
  | engineFailed (na nb : Bool)
  | noProgram
  deriving DecidableEq, Repr

/-- The commands of the block. -/
inductive Instr where
  | baseTickBoundary
  | lineCycleBoundary
  | lineCycleLengthWrite (w : WriteCtx) (v : BitVec 16)
  | timingReferenceWrite (w : WriteCtx) (v : Byte)
  | ref10mQualified
  | ref10mLoss
  | paddockTrim
  | linkFlitReceive (l : Link) (first second : Bool)
  | bulkFlitRetransmit (l : Link) (good : Bool)
  | linkFailed (l : Link)
  | fxWatchdog
  | dazRead (c : ClientId) (m : DazMsg)
  | dazWrite (c : ClientId) (m : DazMsg)
  | readMulti (c : ClientId) (m : DazMsg)
  | writeMulti (c : ClientId) (m : DazMsg)
  | readSegment (c : ClientId) (m : DazMsg)
  | writeSegment (c : ClientId) (m : DazMsg)
  | info (c : ClientId) (m : DazMsg)
  | watch (c : ClientId) (m : DazMsg)
  | cancel (c : ClientId) (m : DazMsg)
  | registerWrite (w : WriteCtx) (index : BitVec 16) (sub : Byte) (data : List Byte)
  | scheduledWriteDue (c : ClientId) (txn : BitVec 16)
  | segmentTimeout (c : ClientId) (index : BitVec 16) (sub : Byte)
  | dazSessionOpen (uplink : Fin 2) (chainGood : Bool) (roles : List Role)
  | sessionIdleTimeout (n : Fin 16)
  | tbModeWrite (w : WriteCtx) (n : Fin 8) (v : Byte)
  | tbSetTime (w : WriteCtx) (n : Fin 8) (v : BitVec 96)
  | syncReceived (n : Fin 8) (m : SyncMsg)
  | announceReceived (n : Fin 8) (m : AnnounceMsg)
  | syncLoss (n : Fin 8)
  | announceTimeout (n : Fin 8)
  | ptpSyncSend (p : Fin 10) (n : Fin 8)
  | tb7Writeback
  | leadSample (n : Fin 8) (value velocity : BitVec 64) (stamp : Nat)
  | leadSampleTimeout (n : Fin 8)
  | leadStopComplete (n : Fin 8)
  | leadSourceWrite (w : WriteCtx) (n : Fin 8) (isInst : Bool) (v : BitVec 32)
  | leadRereference (w : WriteCtx) (n : Fin 8) (v : BitVec 64)
  | leadResume (w : WriteCtx) (n : Fin 8)
  | virtualLeadCommand (w : WriteCtx) (n : Fin 8) (which : Fin 3) (v : BitVec 64)
  | actionFire (id : Nat)
  | stopPinChange (pin : Fin 2) (demand : Bool)
  | reinChange
  | stopObjectSet (w : WriteCtx) (v : BitVec 64)
  | stopObjectReset (w : WriteCtx) (v : BitVec 64)
  | returningFrameCheck (e : Engine) (k : Fin 4) (f : FrameIn)
  | trainInputsReceived (k : Fin 4) (first second : List SlotAnswer) (late : Bool)
  | stationLost (a : Fin 2048)
  | discoverReturn (e : Engine) (k : Fin 4) (base : Nat) (records : List (Option Identity)) (counted : Nat)
  | configureReturn (e : Engine) (k : Fin 4) (statuses : List (Fin 2048 × Byte))
  | delayMeasurement (k : Fin 4) (tab : Nat) (records : List (Option DelayRecord))
  | stationConfigWrite (w : WriteCtx) (a : Fin 2048) (sub : Fin 4) (v : BitVec 64)
  | hobbleReleaseSeen (e : Engine) (byNotice : Bool)
  | engineSelfDemote (e : Engine) (check : SelfCheck)
  | engineRejoin (w : WriteCtx) (v : Byte)
  | ringBreak (e : Engine) (k : Fin 4) (reach : Nat)
  | ringHeal (k : Fin 4)
  | healTimeout (k : Fin 4)
  | coastEntry (c : CoastCause)
  | coastLimit
  | coastExit
  | coastRecordCommit (n : Fin 2048)
  | henvyMember (m : MemberMsg)
  | henvyMemberSend
  | henvyStop (m : StopMsg) (objects : BitVec 64)
  | henvyStopSend
  | henvyStopSilence (number : Fin 16)
  | henvyCandidateEnd
  | prpPathDown (path : Fin 2)
  | channelSample (n : Fin 4096)
  | channelInputFault (n : Fin 4096)
  | channelEnable (w : WriteCtx) (n : Fin 4096)
  | channelDisable (w : WriteCtx) (n : Fin 4096)
  | channelCommit (w : WriteCtx) (n : Fin 4096) (v : BitVec 16)
  | channelOverrun (n : Fin 4096)
  | traceDisarm (w : WriteCtx) (t : Fin 8)
  | traceArm (w : WriteCtx) (t : Fin 8)
  | traceTriggerNow (w : WriteCtx) (t : Fin 8)
  | axisSample (n : Fin 2048)
  | axisEnable (w : WriteCtx) (n : Fin 2048)
  | axisDisable (w : WriteCtx) (n : Fin 2048)
  | moveAbs (w : WriteCtx) (n : Fin 2048) (r : AxisCmd)
  | moveRel (w : WriteCtx) (n : Fin 2048) (r : AxisCmd)
  | moveVel (w : WriteCtx) (n : Fin 2048) (r : AxisCmd)
  | stop (w : WriteCtx) (n : Fin 2048) (r : AxisCmd)
  | gearIn (w : WriteCtx) (n : Fin 2048) (r : AxisCmd)
  | ratio (w : WriteCtx) (n : Fin 2048) (r : AxisCmd)
  | gearOut (w : WriteCtx) (n : Fin 2048) (r : AxisCmd)
  | reset (w : WriteCtx) (n : Fin 2048) (r : AxisCmd)
  | axisOverrun (n : Fin 2048)
  | groupMoveAbs (w : WriteCtx) (g : Fin 256) (targets : List (BitVec 64))
  | groupMoveRel (w : WriteCtx) (g : Fin 256) (distances : List (BitVec 64))
  | groupStop (w : WriteCtx) (g : Fin 256)
  | pwmPulse (w : WriteCtx) (ch : Fin 96)
  | holdAmplitudeDelay (a : Fin 32)
  | encoderEdge (e : Fin 16) (aLevel bLevel : Bool) (offset : Nat)
  | encoderIndex (e : Fin 16) (offset : Nat)
  | encoderLineFault (e : Fin 16)
  | ssiTransfer (e : Fin 16) (word : BitVec 40) (idleHigh monoflopLow parityGood : Bool)
  | encoderClearStatus (w : WriteCtx) (e : Fin 16) (v : BitVec 16)
  | captureEvent (c : Fin 16) (rising : Bool) (offset : Nat)
  | captureRecordRead (c : ClientId) (txn : BitVec 16) (line : Fin 16)
  | captureRerefArm (w : WriteCtx) (c : Fin 16) (v : BitVec 64)
  | limitInputEdge (a : Fin 32) (which : Fin 3) (ago : Nat)
  | limitInputRearm (a : Fin 32) (which : Fin 3) (releaseAgo : Nat)
  | homingStart (w : WriteCtx) (a : Fin 32)
  | hardStopDwell (a : Fin 32)
  | homingComplete (a : Fin 32)
  | taskRelease (i : Fin 64)
  | cycleComplete (i : Fin 64) (r : CycleResult)
  | cycleTrap (i : Fin 64)
  | taskBudgetOverrun (i : Fin 64)
  | taskDeadlineMiss (i : Fin 64)
  | overrunReaction (i : Fin 64)
  | programRun (w : WriteCtx)
  | programStop (w : WriteCtx)
  | programHold (w : WriteCtx)
  | programResume (w : WriteCtx)
  | programStep (w : WriteCtx)
  | breakpointHit (b : Fin 16) (i : Fin 64)
  | holdTimeout
  | retainCommit
  | programImageSegment (c : ClientId) (m : DazMsg)
  | imageVerify (w : WriteCtx)
  | programExchange (w : WriteCtx)
  | exchangeSwitch
  | exchangePauseLimit
  | programDownload (w : WriteCtx)
  | imageDiscard (w : WriteCtx)
  | resetRetain (w : WriteCtx)
  | resetRetainPersistent (w : WriteCtx)
  | taskRestart (w : WriteCtx) (i : Fin 64)
  | taskClearStatistics (w : WriteCtx) (i : Fin 64)
  | taskLeadPositionsWrite (w : WriteCtx) (i : Fin 64) (positions : List (BitVec 64))
  | taskBudgetWrite (w : WriteCtx) (i : Fin 64) (v : BitVec 32)
  | exportedVariableWrite (w : WriteCtx) (index : BitVec 16) (sub : Byte) (data : List Byte)
  | libraryJobComplete (job : Nat) (i : Fin 64) (result : List Byte)
  | workItemEnter (item : WorkItem)
  | workItemComplete (core : Fin 8)
  | declareRecordWrite (w : WriteCtx) (data : List Byte)
  | migrationStart (kind : Fin 3) (item : Fin 4096) (target : Fin 104)
  | migrationCopyComplete (kind : Fin 3) (item : Fin 4096)
  | migrationCompare (kind : Fin 3) (item : Fin 4096) (equal : Bool)
  | migrationSwitch (kind : Fin 3) (item : Fin 4096)
  | migrate (w : WriteCtx) (kind : Byte) (item : BitVec 16) (unit : Byte)
  | retest (w : WriteCtx) (unit : Byte)
  | evacuate (w : WriteCtx) (region : Byte)
  | rebalance (w : WriteCtx) (kind : Byte)
  | rotation
  | selfTestComplete (u : Fin 104) (passed : Bool)
  | spareCountWrite (w : WriteCtx) (c : Fin 13) (v : Byte)
  | conversionTrigger (t : Fin 64) (offset : Nat)
  | triggerFire (w : WriteCtx) (t : Fin 64)
  | triggerKindWrite (w : WriteCtx) (t : Fin 64) (v : Byte)
  | triggerLeadPositionWrite (w : WriteCtx) (t : Fin 64) (v : BitVec 64)
  | conversionStart (a : Fin 32) (offset : Nat)
  | conversionLatch (a : Fin 32) (nanovolts : Int)
  | referenceCheck (a : Fin 32) (r : CheckResult)
  | inputRangeWrite (w : WriteCtx) (i : Fin 96) (v : Byte)
  | aoutModeWrite (w : WriteCtx) (o : Fin 16) (v : Byte)
  | aoutLossTimeout (o : Fin 16)
  | aoutFault (o : Fin 16) (f : AoutFaultKind)
  | diEdgeAccept (i : Fin 64) (level : Bool) (stamp : Nat)
  | inputTypeWrite (w : WriteCtx) (g : Fin 8) (v : Byte)
  | wireBreak (i : Fin 64)
  | fieldUplinkFrame (good : Bool)
  | fieldDownlinkFrame (good : Bool)
  | outputEdge (w : WriteCtx) (o : Fin 32) (v : Byte)
  | outputFault (o : Fin 32) (f : OutFaultKind)
  | outputRetry (o : Fin 32)
  | outputFaultCountClear (o : Fin 32)
  | outputReset (w : WriteCtx) (o : Fin 32)
  | lplusSample (q : Fin 4) (millivolts : BitVec 16)
  | lplusOutputRestart (q : Fin 4)
  | fieldLinkLoss
  | fieldLinkRecover
  | doLossTimeout (o : Fin 32)
  | openLoad (o : Fin 32)
  | tickAssembly
  | shedTimer
  | chunkClose
  | chunkWritten (d : Fin 2)
  | streamWordWrite (f : Fin 256) (word : BitVec 72)
  | streamFlushTimeout (f : Fin 256)
  | streamFifoRead (c : ClientId) (txn : BitVec 16) (f : Fin 256)
  | ssdLinkUp (d : Fin 2) (link : Byte)
  | ssdProbeComplete (d : Fin 2) (r : ProbeResult)
  | ssdFormatComplete (d : Fin 2)
  | ssdLinkLoss (d : Fin 2)
  | ssdWriteFail (f : SsdFail)
  | prepareRemove (w : WriteCtx) (d : Fin 2)
  | format (w : WriteCtx) (d : Fin 2)
  | resume (w : WriteCtx) (d : Fin 2)
  | modeRequest (w : WriteCtx) (v : Byte)
  | configImageSegment (c : ClientId) (m : DazMsg)
  | configVerify (w : WriteCtx)
  | configActivate (w : WriteCtx)
  | configDiscard (w : WriteCtx)
  | recipeStart (w : WriteCtx) (s : Fin 64)
  | recipePause (w : WriteCtx) (s : Fin 64)
  | recipeResume (w : WriteCtx) (s : Fin 64)
  | recipeAbort (w : WriteCtx) (s : Fin 64)
  | recipeAdvance (w : WriteCtx) (s : Fin 64)
  | stepEnd (s : Fin 64)
  | liveValueCapture (w : WriteCtx)
  | powerOn
  | startupStepComplete (r : StepResult)
  | acquisitionTimeout
  | resetAssert
  | resetRelease
  | inputFuseOpen
  | powerFailWarning
  | shutdownStep
  | undervoltageLockout (sincePfwMicros : Nat)
  | powerFailClear
  | declareClear
  | firmwarePackageSegment (c : ClientId) (m : DazMsg)
  | firmwareVerify (w : WriteCtx)
  | firmwareCommit (w : WriteCtx)
  | firmwareCommitAndLock (w : WriteCtx)
  | firmwareDiscard (w : WriteCtx)
  | regionUpdate (w : WriteCtx) (v : Byte)
  | regionUpdateComplete (failedUnits : List (Fin 104))
  | restartCommand (w : WriteCtx)
  | cbWatchdog
  | fabricParityError
  | warmRestartReturn (checkpointGood taskDataGood : Bool)
  | dramCorrectableError
  | dramUncorrectableError (o : DramOwner)
  | mramError (k : MramErrorKind)
  | clusterMemoryError (e : ClusterError) (item : Fin 4096)
  | dramPatrolScrub
  | governorUpdate (hotSpot : Int) (powerTenths : Nat)
  | thermalTrip (d : Die)
  | paddockVbatCompare (millivolts : Nat)
  | paddockPowerReturn
  | paddockCaseSample (isOpen : Bool)
  | paddockTempSample (celsius : Int)
  | vbatBrownout
  | wakePulseEnd
  | paddockClearLog (w : WriteCtx)
  | ppsInEdge (offset : Nat)
  | henvyEnable (w : WriteCtx)
  | dazSessionClose (n : Fin 16)
  | announceSend (p : Fin 10) (n : Fin 8)
  | delayRequestSend (p : Fin 10) (n : Fin 8)
  | delayRequestReceived (p : Fin 10) (n : Fin 8) (requester : BitVec 64) (seq : BitVec 16)
  | delayResponseReceived (p : Fin 10) (n : Fin 8) (seq : BitVec 16) (delay : Nat)
  | preemptionVerify (u : Fin 2) (verified : Bool)
  | prpSupervisionSend
  | prpPathUp (path : Fin 2)
  | thermalTripRelease
  | aoutFaultClear (o : Fin 16) (f : AoutFaultKind)
  | lineFaultClear (e : Fin 16)
  | wireBreakClear (i : Fin 64)
  | openLoadClear (o : Fin 32)
  | diePassesBringup (d : Die)
  deriving DecidableEq, Repr

end Sys2Proof
end

