-- ==== Sys2Proof/Decode.lean ====
section
/-! DEFINITION. The command that a word spells by the table's bits. The table gives no row any bits: commands are requests, events
and register writes, and no word spells one. -/

namespace Sys2Proof

/-- No row of the table has bits, so no word spells a command. (DESIGN CHOICE, notes/assumptions/7.md) -/
def decodeTableWord (_nbits _w : Nat) : Option Instr := none

end Sys2Proof
end

