-- ==== Sys2Proof/Config.lean ====
section
/-! DEFINITION. What one module fixes, and the values that the spec leaves open. Every constant here is opaque: nothing in Lean
can evaluate it, so a statement about it holds for every value. A free value is applied to the counter of the state
(`State.freeCtr`) or to the operands it depends on. -/

namespace Sys2Proof

/-- A value the spec leaves open, fresh at each use (notes/assumptions/4.md). -/
opaque Config.free : Nat → Nat

/-- A choice the spec leaves open among equals, fresh at each use. -/
opaque Config.freeBit : Nat → Bool

/-- What the module measures at a read of an entry, by the counter of the state and the entry's key (notes/assumptions/4.md). -/
opaque Config.measured : Nat → Nat → Nat

/-- The quotient of a binary64 division by 0, which no rule of R258 states (notes/assumptions/5.md). -/
opaque Config.divByZero : F64 → F64

/-- SHA-384 (R82, R487, R516): the digest of an octet string. -/
opaque Config.sha384 : List Byte → List Byte

/-- Whether an ECDSA P-384 signature over the first string verifies under the public key of the second (R516 to R518). -/
opaque Config.signatureGood : List Byte → List Byte → Bool

/-- Silicon revision words of the dies and stacks, the module's own (R71). -/
opaque Config.revisionWord : Fin 6 → BitVec 16

/-- Year, week and running number in the serial number of the module (R71). -/
opaque Config.serialYear : Fin 100
opaque Config.serialWeek : Fin 100
opaque Config.serialCount : Fin 1000000

/-- The module's clockIdentity, and the accuracy and variance that it announces (R97). -/
opaque Config.clockIdentity : BitVec 64
opaque Config.clockQuality : BitVec 24

/-- The Ethernet address of a port (R131, R200): 0 to 3 NA_Pk, 4 to 7 NB_Pk, 8 and 9 UP0 and UP1. -/
opaque Config.portAddress : Nat → BitVec 48

/-- Days from 1 January 2000 to manufacture (R71). -/
opaque Config.manufactureDays : BitVec 32

/-- One Zstandard frame (RFC 8878) over a chunk's bytes at an effort of 1 to 3 (R465): its bytes are the encoder's own. -/
opaque Config.compress : Nat → List Byte → List Byte

/-- Bytes that a device outside the module reports, fresh at each use. -/
opaque Config.freeBytes : Nat → List Byte

/-! What a program image holds once it is read (R324, R327 to R330, R345, R348, R367, R378). The spec gives the image no byte
layout, so the reading itself is open; its result has this form. -/

/-- One task declaration of an image (R327 to R330): kind 0 CYCLE, 1 TIME, 2 LEAD, and its declaration record of R378. -/
structure TaskDecl where
  number    : Nat
  kind      : Nat
  prio      : Nat
  period    : Nat
  offset    : Nat
  source    : Nat
  positions : List Nat
  options   : Nat
  deadline  : Nat
  interval  : Nat
  budget    : Nat
  coupling  : Nat
  pinRegion : Nat
  pinUnit   : Nat
  deriving DecidableEq, Repr

/-- An output that the image owns (R345), the task that writes it, and its STOP value; none is HOLD_LAST. -/
structure OwnedDecl where
  out  : OwnedOutput
  task : Nat
  stop : Option (List Byte)
  deriving DecidableEq, Repr

/-- An exported variable (R367): entry, type code of R57 with its capacity, access code of R571, whether it is operator-writable,
its writing task, initial value, and the exchange variable or task variable it shows. -/
structure ExportDecl where
  index   : Nat
  sub     : Nat
  tyCode  : Nat
  cap     : Nat
  access  : Nat
  operate : Bool
  task    : Nat
  init    : List Byte
  var     : Nat
  deriving DecidableEq, Repr

/-- A variable or instance of the symbol table (R348, R355): path, type hash, value size, attributes, the task that writes it, and
its initial value. -/
structure VarDecl where
  path       : List Byte
  hash       : Nat
  size       : Nat
  retain     : Bool
  persistent : Bool
  task       : Nat
  init       : List Byte
  deriving DecidableEq, Repr

/-- A window that the program declares for software-stamped events (R126, R127, R129): the bit of each event class it takes (in the
order of R99), a Lead (or a time base) with its number, MODULAR, the bounds in lu (or in ns), and its attribute: 0 REPORT, 1 INCLUSIVE,
2 EXCLUSIVE. -/
structure WindowDecl where
  classes : Nat
  onLead  : Bool
  number  : Nat
  modular : Bool
  wopen   : Nat
  wclose  : Nat
  attr    : Nat
  deriving DecidableEq, Repr

/-- A program image (R324); `streams` names the FIFOs it declares (R458). -/
structure ProgramImage where
  tasks     : List TaskDecl
  outputs   : List OwnedDecl
  stopMask  : Nat
  exports   : List ExportDecl
  vars      : List VarDecl
  streams   : List Nat
  windows   : List WindowDecl
  deriving DecidableEq, Repr

/-- What the bytes of a program image hold; none where they break a rule of R324, R327, R335 or R367. (DESIGN CHOICE,
notes/assumptions/9.md) -/
opaque Config.programImage : List Byte → Option ProgramImage

/-- Whether a signed object's signature chains to one of the trust anchors (R324, R487, R488). -/
opaque Config.chainsTo : List Byte → List (List Byte) → Bool

/-- The code byte of a reported item of a carry report (R355, R362): 0 New, 1 TYPE_CHANGED, 2 Dropped; the codes are not given. -/
opaque Config.carryCode : Fin 3 → Byte

/-! What a configuration image holds once it is read (R487, R488, R497). The spec gives the layout of a record, a recipe and a step,
and none of the image around them. -/

/-- A layer entry record (R488) with its byte offset in the image. -/
structure LayerRec where
  off   : Nat
  index : Nat
  sub   : Nat
  data  : List Byte
  deriving DecidableEq, Repr

/-- A further entry of an uplink's gate control list (R201): uplink, start and length in ns of the 125 µs cycle, and a bit for each
priority that is open. -/
structure Gate where
  uplink : Nat
  start  : Nat
  len    : Nat
  opened : Byte
  deriving DecidableEq, Repr

/-- A base configuration (R487): its declarations, its values, the trust anchors of DAZ clients, program images and overlay sets,
the module number, a successor of the owner anchor (R518), the priorities of its clock (R97), and gate entries (R201). -/
structure BaseConfig where
  decls       : List LayerRec
  records     : List LayerRec
  dazAnchors  : List (List Byte)
  progAnchors : List (List Byte)
  ovlAnchors  : List (List Byte)
  number      : Nat
  successor   : Option (List Byte)
  priority1   : Byte
  priority2   : Byte
  gates       : List Gate
  deriving DecidableEq, Repr

/-- An overlay set (R487): modes with their records, and recipes in the layout of R497, each with its byte offset. -/
structure OverlaySet where
  modes   : List (Nat × List LayerRec)
  recipes : List (Nat × List Byte)
  deriving DecidableEq, Repr

/-- What the bytes of a base configuration hold; none where they are none. -/
opaque Config.baseConfig : List Byte → Option BaseConfig

/-- What the bytes of an overlay set hold; none where they are none. -/
opaque Config.overlaySet : List Byte → Option OverlaySet

/-- An image of a firmware package (R516, R517): the regions it is for, as in OD 1002, the release key it is signed with, and whether
its signature and its digest are good. -/
structure FwImage where
  regions    : List Nat
  key        : Nat
  signature  : Bool
  digest     : Bool
  deriving DecidableEq, Repr

/-- A firmware package (R516): version word, security version, images, and the regions whose arithmetic changed (R521). -/
structure FwPackage where
  version    : Nat
  security   : Nat
  images     : List FwImage
  arithmetic : List Nat
  deriving DecidableEq, Repr

/-- What the bytes of a firmware package hold; none where they are none. -/
opaque Config.firmwarePackage : List Byte → Option FwPackage

end Sys2Proof
end

