-- ==== Sys2Proof/Machine/Dictionary.lean ====
section
/-! DEFINITION. The object dictionary as the spec's tables give it: one `Entry` for each subindex, one table for each index
range (R53 to R66 and the tables of every chapter). -/

namespace Sys2Proof.Machine

/-- Data types of R57; `string n` and `octets n` carry the capacity that the entry's definition states. -/
inductive Ty where
  | bool
  | int8
  | int16
  | int32
  | int64
  | uint8
  | uint16
  | uint32
  | uint64
  | real32
  | real64
  | bits8
  | bits16
  | bits32
  | leadpos
  | leadvel
  | tbtime
  | bfp
  | string (cap : Nat)
  | octets (cap : Nat)
  deriving DecidableEq, Repr

/-- Access rights of R58. -/
inductive Acc where
  | ro
  | rw
  | wo
  | rwc
  deriving DecidableEq, Repr

/-- One line of a dictionary table: subindex, type, access, default ("—" is `none`), range ends (for REAL32 and REAL64 in
thousandths, for BFP of the mantissa), single values accepted beside the range, the enumeration its Meaning lists (empty where
none is), reserved bits (R11), whether it is operator-writable (R63), whether its Meaning names an apply block, the least
length of a record, and whether its Default column reads "cfg" or "ret". -/
structure Entry where
  sub        : Nat
  ty         : Ty
  acc        : Acc
  dflt       : Option Val
  lo         : Option Int
  hi         : Option Int
  also       : List Int
  enum       : List Int
  resv       : Nat
  operate    : Bool
  takesApply : Bool
  minLen     : Nat
  fromCfg    : Bool
  deriving DecidableEq, Repr

/-- An entry without default, range, enumeration or marks. -/
def ent (sub : Nat) (ty : Ty) (acc : Acc) : Entry :=
  ⟨sub, ty, acc, none, none, none, [], [], 0, false, false, 0, false⟩

/-- A table: the index of its first instance, how many instances it has, and its subindexes. -/
structure Table where
  base  : Nat
  count : Nat
  subs  : List Entry
  deriving DecidableEq, Repr

/-- The pass-through section record of R244 and R246: b0 0x40_0000, ec 1, the rest 0. -/
def passThrough : List Byte :=
  [0x00, 0x00, 0x40] ++ List.replicate 12 0 ++ [0x01]

/-- T[i] = rne(32,767 × sin(iπ/512)), the default microstep table of R297. -/
def sineValues : List Nat :=
  [0, 201, 402, 603, 804, 1005, 1206, 1407, 1608, 1809, 2009, 2210, 2410, 2611, 2811, 3012, 3212, 3412, 3612, 3811, 4011, 4210, 4410, 4609, 4808, 5007, 5205, 5404, 5602, 5800, 5998, 6195] ++
  [6393, 6590, 6786, 6983, 7179, 7375, 7571, 7767, 7962, 8157, 8351, 8545, 8739, 8933, 9126, 9319, 9512, 9704, 9896, 10087, 10278, 10469, 10659, 10849, 11039, 11228, 11417, 11605, 11793, 11980, 12167, 12353] ++
  [12539, 12725, 12910, 13094, 13279, 13462, 13645, 13828, 14010, 14191, 14372, 14553, 14732, 14912, 15090, 15269, 15446, 15623, 15800, 15976, 16151, 16325, 16499, 16673, 16846, 17018, 17189, 17360, 17530, 17700, 17869, 18037] ++
  [18204, 18371, 18537, 18703, 18868, 19032, 19195, 19357, 19519, 19680, 19841, 20000, 20159, 20317, 20475, 20631, 20787, 20942, 21096, 21250, 21403, 21554, 21705, 21856, 22005, 22154, 22301, 22448, 22594, 22739, 22884, 23027] ++
  [23170, 23311, 23452, 23592, 23731, 23870, 24007, 24143, 24279, 24413, 24547, 24680, 24811, 24942, 25072, 25201, 25329, 25456, 25582, 25708, 25832, 25955, 26077, 26198, 26319, 26438, 26556, 26674, 26790, 26905, 27019, 27133] ++
  [27245, 27356, 27466, 27575, 27683, 27790, 27896, 28001, 28105, 28208, 28310, 28411, 28510, 28609, 28706, 28803, 28898, 28992, 29085, 29177, 29268, 29358, 29447, 29534, 29621, 29706, 29791, 29874, 29956, 30037, 30117, 30195] ++
  [30273, 30349, 30424, 30498, 30571, 30643, 30714, 30783, 30852, 30919, 30985, 31050, 31113, 31176, 31237, 31297, 31356, 31414, 31470, 31526, 31580, 31633, 31685, 31736, 31785, 31833, 31880, 31926, 31971, 32014, 32057, 32098] ++
  [32137, 32176, 32213, 32250, 32285, 32318, 32351, 32382, 32412, 32441, 32469, 32495, 32521, 32545, 32567, 32589, 32609, 32628, 32646, 32663, 32678, 32692, 32705, 32717, 32728, 32737, 32745, 32752, 32757, 32761, 32765, 32766]

/-- The default microstep table as INT16 little-endian bytes. -/
def sineTable : List Byte :=
  sineValues.flatMap fun v => [BitVec.ofNat 8 v, BitVec.ofNat 8 (v / 256)]

/-- OD 1010, die inventory (01_architecture.md R50). -/
def tab1010 : List Entry :=
  [{ ent 0x00 .uint8 .ro with dflt := some (.num 0x9), lo := some 9, hi := some 9 },
   ent 0x01 .uint32 .ro,
   ent 0x02 .uint32 .ro,
   ent 0x03 .uint32 .ro,
   ent 0x04 .uint32 .ro,
   ent 0x05 .uint32 .ro,
   ent 0x06 .uint32 .ro,
   ent 0x07 .uint32 .ro,
   ent 0x08 .uint32 .ro,
   ent 0x09 .uint32 .ro]

/-- OD 1000, device identity (02_dictionary.md R71). -/
def tab1000 : List Entry :=
  [ent 0x00 .uint32 .ro,
   { ent 0x01 (.string 16) .ro with dflt := some (.oct [0x52, 0x6F, 0x6E, 0x72, 0x6F, 0x74, 0x68, 0x00, 0x00, 0x00, 0x00, 0x00, 0x00, 0x00, 0x00, 0x00]) },
   { ent 0x02 (.string 16) .ro with dflt := some (.oct [0x4D, 0x48, 0x32, 0x35, 0x36, 0x30, 0x00, 0x00, 0x00, 0x00, 0x00, 0x00, 0x00, 0x00, 0x00, 0x00]) },
   ent 0x03 (.string 16) .ro,
   ent 0x04 .uint16 .ro,
   ent 0x05 .uint16 .ro,
   ent 0x06 .uint16 .ro,
   ent 0x07 .uint16 .ro,
   ent 0x08 .uint16 .ro,
   ent 0x09 .uint16 .ro,
   ent 0x0A .uint32 .ro]

/-- OD 1002, region firmware (02_dictionary.md R72). -/
def tab1002 : List Entry :=
  [{ ent 0x00 .uint8 .ro with dflt := some (.num 0x8), lo := some 8, hi := some 8 },
   ent 0x01 .uint32 .ro,
   ent 0x02 .uint32 .ro,
   ent 0x03 .uint32 .ro,
   ent 0x04 .uint32 .ro,
   ent 0x05 .uint32 .ro,
   ent 0x06 .uint32 .ro,
   ent 0x07 .uint32 .ro,
   ent 0x08 .uint32 .ro]

/-- OD 1100, DAZ service (02_dictionary.md R73). -/
def tab1100 : List Entry :=
  [{ ent 0x00 .uint8 .ro with dflt := some (.num 0x7), lo := some 7, hi := some 7 },
   { ent 0x01 .uint16 .rw with dflt := some (.num 29560), lo := some 1024, hi := some 65535 },
   { ent 0x02 .uint8 .rw with dflt := some (.num 16), lo := some 1, hi := some 16 },
   { ent 0x03 .uint16 .rw with dflt := some (.num 300), lo := some 10, hi := some 3600 },
   { ent 0x04 .uint8 .ro with lo := some 0, hi := some 16 },
   ent 0x05 .uint32 .ro,
   { ent 0x06 .bits8 .rw with dflt := some (.num 0x3), resv := 0xFC },
   ent 0x07 .uint32 .ro]

/-- OD 2000, tick and line cycle (03_line_time.md R88). -/
def tab2000 : List Entry :=
  [ent 0x00 .uint32 .ro,
   { ent 0x01 .uint8 .ro with dflt := some (.num 0), lo := some 0, hi := some 7 },
   ent 0x02 .uint64 .ro,
   { ent 0x03 .uint16 .rw with dflt := some (.num 160), lo := some 5, hi := some 640 },
   { ent 0x04 .uint16 .ro with dflt := some (.num 0), lo := some 0, hi := some 639 },
   ent 0x05 .uint64 .ro,
   ent 0x06 .tbtime .ro,
   { ent 0x07 .uint8 .rw with dflt := some (.num 0x0), lo := some 0, hi := some 1, enum := [0, 1] },
   { ent 0x08 .uint8 .ro with lo := some 0, hi := some 1 },
   ent 0x09 .uint32 .ro,
   ent 0x0A .bool .ro]

/-- OD 2010+n, time base n (03_line_time.md R96). -/
def tab2010 : List Entry :=
  [{ ent 0x00 .uint8 .ro with dflt := some (.num 0xD), lo := some 13, hi := some 13 },
   { ent 0x01 .uint8 .rw with dflt := some (.num 0), lo := some 0, hi := some 2 },
   { ent 0x02 .uint8 .rw with dflt := some (.num 0), lo := some 0, hi := some 127 },
   ent 0x03 .bits8 .ro,
   ent 0x04 .tbtime .ro,
   ent 0x05 .int64 .ro,
   { ent 0x06 .int32 .ro with lo := some (-500000000), hi := some 500000000 },
   { ent 0x07 .uint32 .rw with dflt := some (.num 0xF4240), lo := some 100, hi := some 1000000000 },
   { ent 0x08 .uint16 .rw with dflt := some (.num 100), lo := some 1, hi := some 500 },
   { ent 0x09 .uint32 .rw with dflt := some (.num 1000), lo := some 10, hi := some 100000 },
   ent 0x0A .uint64 .ro,
   ent 0x0B .uint32 .ro,
   ent 0x0C .uint32 .ro,
   ent 0x0D .tbtime .wo]

/-- OD 2020+p, PTP port p (03_line_time.md R100). -/
def tab2020 : List Entry :=
  [{ ent 0x00 .uint8 .ro with dflt := some (.num 0x8), lo := some 8, hi := some 8 },
   { ent 0x01 .bits8 .rw with dflt := some (.num 0x0) },
   { ent 0x02 .uint8 .rw with dflt := some (.num 0x0), lo := some 0, hi := some 2, enum := [0, 1, 2] },
   { ent 0x03 .uint8 .rw with dflt := some (.num 0x0), lo := some 0, hi := some 1, enum := [0, 1] },
   { ent 0x04 .int8 .rw with dflt := some (.num 253), lo := some (-7), hi := some 0 },
   ent 0x05 .int32 .ro,
   ent 0x06 .int32 .ro,
   { ent 0x07 .int32 .rw with dflt := some (.num 0), lo := some (-1000000), hi := some 1000000 },
   { ent 0x08 .int32 .rw with dflt := some (.num 0), lo := some (-1000000), hi := some 1000000 }]

/-- OD 2040+n, Lead n (03_line_time.md R111). -/
def tab2040 : List Entry :=
  [{ ent 0x00 .uint8 .ro with dflt := some (.num 0x15), lo := some 21, hi := some 21 },
   { ent 0x01 .uint8 .rw with dflt := some (.num 0x0), lo := some 0, hi := some 4, enum := [0, 1, 2, 3, 4] },
   { ent 0x02 .uint32 .rw with dflt := some (.num 0) },
   { ent 0x03 .uint8 .rw with dflt := some (.num 0x0), lo := some 0, hi := some 1, enum := [0, 1] },
   { ent 0x04 .uint32 .rw with dflt := some (.num 4096), lo := some 1, hi := some 4294967295 },
   { ent 0x05 .uint32 .rw with dflt := some (.num 1), lo := some 1, hi := some 65535 },
   ent 0x06 .leadpos .ro,
   ent 0x07 .leadvel .ro,
   ent 0x08 .bits32 .ro,
   { ent 0x09 .uint8 .rw with dflt := some (.num 8), lo := some 1, hi := some 64 },
   { ent 0x0A .leadpos .wo with operate := true, takesApply := true },
   { ent 0x0B .uint8 .rw with dflt := some (.num 0x0), lo := some 0, hi := some 1, enum := [0, 1] },
   { ent 0x0C .uint32 .rw with dflt := some (.num 0x1000000), lo := some 1, hi := some 4294967295 },
   { ent 0x0D .uint8 .rw with dflt := some (.num 0x0), lo := some 0, hi := some 1, enum := [0, 1] },
   { ent 0x0E .real64 .rw with dflt := some (.num 0x0), lo := some (-40000000), hi := some 40000000, operate := true },
   { ent 0x0F .real32 .rw with dflt := some (.num 0x41200000), lo := some 1, hi := some 1000000000 },
   { ent 0x10 .real32 .rw with dflt := some (.num 0x42C80000), lo := some 1, hi := some 100000000000 },
   { ent 0x11 .real32 .rw with dflt := some (.num 0x41200000), lo := some 1, hi := some 1000000000 },
   { ent 0x12 .uint8 .rw with dflt := some (.num 150), lo := some 1, hi := some 200 },
   { ent 0x13 .uint32 .rw with dflt := some (.num 0x100000), lo := some 0, hi := some 4294967295 },
   { ent 0x14 .int32 .rw with dflt := some (.num 0), lo := some (-1000000), hi := some 1000000 },
   { ent 0x15 .uint8 .wo with lo := some 1, hi := some 1, operate := true, takesApply := true }]

/-- OD 2050, action table (03_line_time.md R125). -/
def tab2050 : List Entry :=
  [{ ent 0x00 .uint8 .ro with dflt := some (.num 0xA), lo := some 10, hi := some 10 },
   { ent 0x01 .uint16 .ro with lo := some 0, hi := some 4096 },
   { ent 0x02 .uint16 .ro with dflt := some (.num 4096), lo := some 4096, hi := some 4096 },
   ent 0x03 .uint32 .ro,
   ent 0x04 .uint32 .ro,
   ent 0x05 .uint32 .ro,
   ent 0x06 .uint32 .ro,
   ent 0x07 .uint32 .ro,
   ent 0x08 .uint32 .ro,
   ent 0x09 .uint32 .ro,
   ent 0x0A .uint32 .ro]

/-- OD 3000, line bus (04_line_bus.md R171). -/
def tab3000 : List Entry :=
  [ent 0x00 .uint32 .ro,
   { ent 0x01 .uint16 .rw with dflt := some (.num 0x88B5), lo := some 1536, hi := some 65535 },
   { ent 0x02 .uint64 .rw with dflt := some (.num 0x34D48256000), resv := 0xFFFF000000000000 },
   { ent 0x03 .uint16 .rw with dflt := some (.num 1538), lo := some 84, hi := some 12304 },
   { ent 0x04 .uint16 .rw with dflt := some (.num 10), lo := some 1, hi := some 3600 },
   ent 0x05 .uint32 .ro,
   ent 0x06 .uint32 .ro]

/-- OD 3010+k, ring k (04_line_bus.md R172). -/
def tab3010 : List Entry :=
  [{ ent 0x00 .uint8 .ro with dflt := some (.num 0xF), lo := some 15, hi := some 15 },
   { ent 0x01 .uint8 .rw with dflt := some (.num 0x1), lo := some 0, hi := some 1, enum := [0, 1] },
   { ent 0x02 .uint16 .ro with fromCfg := true, lo := some 0, hi := some 512 },
   { ent 0x03 .uint8 .ro with dflt := some (.num 0x0), lo := some 0, hi := some 5 },
   { ent 0x04 .uint8 .ro with lo := some 0, hi := some 16 },
   ent 0x05 .uint32 .ro,
   ent 0x06 .uint32 .ro,
   ent 0x07 .int32 .ro,
   ent 0x08 .int32 .ro,
   ent 0x09 .uint32 .ro,
   ent 0x0A .uint32 .ro,
   ent 0x0B .uint32 .ro,
   ent 0x0C .uint32 .ro,
   { ent 0x0D .uint8 .rw with dflt := some (.num 8), lo := some 1, hi := some 255 },
   { ent 0x0E .uint16 .ro with dflt := some (.num 0xFFFF), lo := some 0, hi := some 2047, also := [0xFFFF] },
   { ent 0x0F .uint16 .rw with dflt := some (.num 10), lo := some 1, hi := some 100 }]

/-- OD 3018, Rein field (04_line_bus.md R173). -/
def tab3018 : List Entry :=
  [{ ent 0x00 .uint8 .ro with dflt := some (.num 0x5), lo := some 5, hi := some 5 },
   ent 0x01 .bits8 .ro,
   ent 0x02 .uint64 .ro,
   { ent 0x03 .uint64 .wo with operate := true },
   { ent 0x04 .uint64 .wo with operate := true },
   ent 0x05 .uint32 .ro]

/-- OD 3020+o, stop object o (04_line_bus.md R174). -/
def tab3020 : List Entry :=
  [{ ent 0x00 .uint8 .ro with dflt := some (.num 0x2), lo := some 2, hi := some 2 },
   { ent 0x01 .uint32 .rw with dflt := some (.num 0xFFFFFFFF) },
   { ent 0x02 .uint8 .ro with dflt := some (.num 0x0), lo := some 0, hi := some 4 }]

/-- OD 3800+a, station a (04_line_bus.md R175). -/
def tab3800 : List Entry :=
  [{ ent 0x00 .uint8 .ro with dflt := some (.num 0x18), lo := some 24, hi := some 24 },
   { ent 0x01 .bool .ro with fromCfg := true },
   { ent 0x02 .uint32 .rw with dflt := some (.num 0) },
   { ent 0x03 .uint32 .rw with dflt := some (.num 0) },
   { ent 0x04 .uint32 .rw with dflt := some (.num 0) },
   { ent 0x05 .uint16 .rw with dflt := some (.num 0), lo := some 0, hi := some 1024 },
   { ent 0x06 .uint16 .rw with dflt := some (.num 0), lo := some 0, hi := some 1024 },
   { ent 0x07 .uint16 .rw with dflt := some (.num 0), lo := some 0, hi := some 256, enum := [0, 32, 64, 128, 256] },
   { ent 0x08 .uint8 .ro with dflt := some (.num 0x0), lo := some 0, hi := some 5 },
   { ent 0x09 .uint8 .rw with dflt := some (.num 2), lo := some 1, hi := some 16 },
   { ent 0x0A .uint8 .rw with dflt := some (.num 3), lo := some 1, hi := some 255 },
   { ent 0x0B .uint8 .rw with dflt := some (.num 3), lo := some 1, hi := some 16 },
   { ent 0x0C .bits8 .rw with dflt := some (.num 0x3), resv := 0xFC },
   { ent 0x0D .uint64 .rw with dflt := some (.num 0xFFFFFFFFFFFFFFFF) },
   { ent 0x0E .uint16 .rw with dflt := some (.num 10), lo := some 1, hi := some 100 },
   ent 0x0F .uint32 .ro,
   ent 0x10 .uint32 .ro,
   ent 0x11 .uint32 .ro,
   ent 0x12 .uint32 .ro,
   ent 0x13 .uint32 .ro,
   ent 0x14 .uint32 .ro,
   ent 0x15 .uint32 .ro,
   ent 0x16 .bits16 .ro,
   { ent 0x17 .uint8 .rw with dflt := some (.num 0x0), lo := some 0, hi := some 2, enum := [0, 1, 2] }] ++
  [ent 0x18 .uint32 .ro]

/-- OD 3060, path engines (05_path_redundancy.md R206). (DEDUCED, notes/assumptions/120.md) -/
def tab3060 : List Entry :=
  [{ ent 0x00 .uint8 .ro with dflt := some (.num 0x7), lo := some 7, hi := some 7 },
   { ent 0x01 .uint8 .ro with dflt := some (.num 0x0), lo := some 0, hi := some 3 },
   { ent 0x02 .uint8 .ro with dflt := some (.num 0x0), lo := some 0, hi := some 3 },
   { ent 0x03 .uint8 .wo with lo := some 1, hi := some 2, enum := [1, 2] },
   { ent 0x04 .bits16 .ro with dflt := some (.num 0x0) },
   ent 0x05 .uint32 .ro,
   ent 0x06 .uint32 .ro,
   ent 0x07 .uint32 .ro]

/-- OD 3068+k, Hobble ring k (05_path_redundancy.md R207). -/
def tab3068 : List Entry :=
  [{ ent 0x00 .uint8 .ro with dflt := some (.num 0x6), lo := some 6, hi := some 6 },
   { ent 0x01 .uint16 .ro with lo := some 0, hi := some 512 },
   { ent 0x02 .uint16 .ro with lo := some 0, hi := some 512 },
   { ent 0x03 .uint8 .ro with dflt := some (.num 0x0), lo := some 0, hi := some 2 },
   ent 0x04 .uint32 .ro,
   ent 0x05 .uint32 .ro,
   ent 0x06 .uint32 .ro]

/-- OD 3070, coast (05_path_redundancy.md R208). -/
def tab3070 : List Entry :=
  [{ ent 0x00 .uint8 .ro with dflt := some (.num 0x6), lo := some 6, hi := some 6 },
   { ent 0x01 .uint8 .rw with dflt := some (.num 160), lo := some 1, hi := some 200 },
   ent 0x02 .bool .ro,
   ent 0x03 .uint32 .ro,
   ent 0x04 .uint32 .ro,
   ent 0x05 .uint32 .ro,
   ent 0x06 .uint32 .ro]

/-- OD 3080, uplinks and Henvy (05_path_redundancy.md R209). -/
def tab3080 : List Entry :=
  [{ ent 0x00 .uint8 .ro with dflt := some (.num 0x8), lo := some 8, hi := some 8 },
   { ent 0x01 .bool .rw with dflt := some (.num 0) },
   { ent 0x02 .bool .rw with dflt := some (.num 0) },
   { ent 0x03 .uint16 .rw with dflt := some (.num 12000), lo := some 5000, hi := some 30000 },
   ent 0x04 .bits8 .ro,
   ent 0x05 .bits8 .ro,
   { ent 0x06 .uint16 .rw with dflt := some (.num 1), lo := some 1, hi := some 4094 },
   { ent 0x07 .uint64 .rw with dflt := some (.num 0) },
   { ent 0x08 .uint8 .ro with dflt := some (.num 0x0), lo := some 0, hi := some 4 }]

/-- OD F400+t, cluster trace (06_control_engine.md R243). -/
def tabF400 : List Entry :=
  [{ ent 0x00 .uint8 .ro with dflt := some (.num 0x1F), lo := some 31, hi := some 31 },
   { ent 0x01 .uint8 .rw with dflt := some (.num 0x0), lo := some 0, hi := some 3, enum := [0, 1, 2, 3] },
   { ent 0x02 .uint8 .rw with dflt := some (.num 0x0), lo := some 0, hi := some 4, enum := [0, 1, 2, 3, 4] },
   { ent 0x03 .uint8 .rw with dflt := some (.num 0), lo := some 0, hi := some 15 },
   { ent 0x04 .bfp .rw with dflt := some (.num 0x8000000000) },
   { ent 0x05 .uint8 .rw with dflt := some (.num 0x0), lo := some 0, hi := some 2, enum := [0, 1, 2] },
   { ent 0x06 .uint16 .rw with dflt := some (.num 16384), lo := some 0, hi := some 32767 },
   { ent 0x07 .uint8 .rw with dflt := some (.num 1), lo := some 1, hi := some 255 },
   { ent 0x08 .uint8 .wo with lo := some 0, hi := some 2, enum := [0, 1, 2], operate := true, takesApply := true },
   { ent 0x09 .bits8 .ro with dflt := some (.num 0x0) },
   ent 0x0A .uint64 .ro,
   ent 0x0B (.octets 262144) .ro,
   { ent 0x0C .uint8 .rw with dflt := some (.num 0), lo := some 0, hi := some 255 },
   ent 0x0D .uint32 .ro] ++
  ((List.range 16).map fun i => { ent (0x10 + i) .bits32 .rw with dflt := some (.num 0), resv := 0x7F00F000 })

/-- OD 4000+n, control channel n (06_control_engine.md R244). -/
def tab4000 : List Entry :=
  [{ ent 0x00 .uint8 .ro with dflt := some (.num 0xD2), lo := some 210, hi := some 210 },
   { ent 0x01 .bool .ro with fromCfg := true },
   ent 0x02 .bits32 .ro,
   { ent 0x03 .uint8 .wo with lo := some 0, hi := some 1, enum := [0, 1], operate := true },
   { ent 0x04 .uint16 .rw with dflt := some (.num 160), lo := some 1, hi := some 1024 },
   { ent 0x05 .uint16 .rw with dflt := some (.num 0xFFFF), lo := some 0, hi := some 1023, also := [0xFFFF] },
   { ent 0x06 .uint8 .rw with dflt := some (.num 1), lo := some 1, hi := some 16 },
   { ent 0x07 .uint32 .rw with dflt := some (.num 0x0) },
   { ent 0x08 .uint32 .rw with dflt := some (.num 0x0) },
   { ent 0x09 .int32 .rw with dflt := some (.num 0) },
   { ent 0x0A .int8 .rw with dflt := some (.num 0), lo := some (-64), hi := some 63 },
   { ent 0x0B .uint32 .rw with dflt := some (.num 0x0) },
   { ent 0x0C .int8 .rw with dflt := some (.num 0), lo := some (-64), hi := some 63 },
   { ent 0x0D .int32 .rw with dflt := some (.num 0) },
   { ent 0x0E .bfp .rwc with dflt := some (.num 0x8000000000), operate := true },
   { ent 0x0F .bfp .rw with dflt := some (.num 0x140000000) },
   { ent 0x10 .bfp .rw with dflt := some (.num 0x7F7FFFFFFF) },
   { ent 0x11 .bfp .rw with dflt := some (.num 0x7F80000000) },
   { ent 0x12 .uint8 .rw with dflt := some (.num 0x0), lo := some 0, hi := some 2 },
   { ent 0x13 .bfp .rw with dflt := some (.num 0x8000000000) },
   { ent 0x14 .bfp .rw with dflt := some (.num 0xF740000000), lo := some 1 },
   { ent 0x15 .bits8 .rw with dflt := some (.num 0x3), resv := 0xFC },
   { ent 0x16 .uint64 .rw with dflt := some (.num 0) },
   { ent 0x17 .uint8 .rw with dflt := some (.num 3), lo := some 1, hi := some 255 }] ++
  [{ ent 0x18 .uint8 .rw with dflt := some (.num 0x0), lo := some 0, hi := some 2, enum := [0, 1, 2] },
   { ent 0x19 .bits16 .wo with takesApply := true },
   ent 0x1A .bfp .ro,
   ent 0x1B .bfp .ro,
   ent 0x1C .bfp .ro,
   ent 0x1D .uint64 .ro,
   ent 0x1E .uint32 .ro,
   ent 0x1F .uint32 .ro,
   ent 0x20 .uint32 .ro,
   ent 0x21 .uint32 .ro,
   ent 0x22 .uint32 .ro,
   { ent 0xD0 .bfp .rw with dflt := some (.num 0x140000000) },
   { ent 0xD1 .bfp .rw with dflt := some (.num 0x7F7FFFFFFF) },
   { ent 0xD2 .bfp .rw with dflt := some (.num 0x7F80000000) }] ++
  ((List.range 16).map fun i => { ent (0x30 + i) (.octets 16) .rw with dflt := some (.oct passThrough), minLen := 16 }) ++
  ((List.range 80).map fun i => { ent (0x40 + 8 * (i / 5) + i % 5) .int32 .rw with dflt := some (.num (if i % 5 = 0 then 0x400000 else 0)), lo := some (-8388608), hi := some 8388607 }) ++
  ((List.range 16).map fun i => { ent (0x40 + 8 * i + 5) .int8 .rw with dflt := some (.num 1), lo := some (-32), hi := some 31 }) ++
  ((List.range 16).map fun i => { ent (0x40 + 8 * i + 6) .bits8 .rw with dflt := some (.num 0x0), resv := 0xFC }) ++
  ((List.range 16).map fun i => ent (0x40 + 8 * i + 7) (.octets 12) .ro) ++
  ((List.range 16).map fun i => { ent (0xC0 + i) (.octets 16) .rw with dflt := some (.oct passThrough), minLen := 16 })

/-- OD 5000+n, axis n (07_motion.md R282). -/
def tab5000 : List Entry :=
  [{ ent 0x00 .uint8 .ro with dflt := some (.num 0x26), lo := some 38, hi := some 38 },
   { ent 0x01 .bool .ro with fromCfg := true },
   ent 0x02 .bits32 .ro,
   { ent 0x03 .uint8 .wo with lo := some 0, hi := some 1, enum := [0, 1], operate := true },
   { ent 0x04 .uint8 .rw with dflt := some (.num 0x0), lo := some 0, hi := some 1, enum := [0, 1] },
   { ent 0x05 .uint16 .rw with dflt := some (.num 0), lo := some 0, hi := some 2047 },
   { ent 0x06 .uint16 .rw with dflt := some (.num 0), lo := some 0, hi := some 1020 },
   { ent 0x07 .uint8 .rw with dflt := some (.num 0x0), lo := some 0, hi := some 1, enum := [0, 1] },
   { ent 0x08 .uint16 .rw with dflt := some (.num 0xFFFF), lo := some 0, hi := some 1020, also := [0xFFFF] },
   { ent 0x09 .uint16 .rw with dflt := some (.num 160), lo := some 10, hi := some 640 },
   { ent 0x0A .uint16 .rw with dflt := some (.num 0xFFFF), lo := some 0, hi := some 639, also := [0xFFFF] },
   ent 0x0B .int64 .ro,
   ent 0x0C .int64 .ro,
   ent 0x0D .int64 .ro,
   ent 0x0E .int64 .ro,
   ent 0x0F .int64 .ro,
   { ent 0x10 .uint64 .rw with dflt := some (.num 0x1000000000), lo := some 1, hi := some 9223372036854775807 },
   { ent 0x11 .uint32 .rw with dflt := some (.num 65536), lo := some 1, hi := some 4294967295 },
   { ent 0x12 .uint32 .rw with dflt := some (.num 65536), lo := some 1, hi := some 4294967295 },
   { ent 0x13 .uint32 .rw with dflt := some (.num 65536), lo := some 1, hi := some 4294967295 },
   { ent 0x14 .uint32 .rw with dflt := some (.num 0x40000), lo := some 1, hi := some 4294967295 },
   { ent 0x15 .uint32 .rw with dflt := some (.num 0x40000), lo := some 1, hi := some 4294967295 },
   { ent 0x16 .bool .rw with dflt := some (.num 0) },
   { ent 0x17 .int64 .rw with dflt := some (.num 0x7FFFFFFFFFFFFFFF) }] ++
  [{ ent 0x18 .int64 .rw with dflt := some (.num 0x8000000000000000) },
   { ent 0x19 .bits8 .rw with dflt := some (.num 0x3), resv := 0xFC },
   { ent 0x1A .uint64 .rw with dflt := some (.num 0) },
   { ent 0x1B .uint8 .rw with dflt := some (.num 0x0), lo := some 0, hi := some 1 },
   { ent 0x1C (.octets 32) .wo with operate := true, takesApply := true, minLen := 32 },
   { ent 0x1D .bits32 .ro with dflt := some (.num 0) },
   ent 0x1E .uint32 .ro,
   { ent 0x1F .uint8 .ro with dflt := some (.num 0xFF), lo := some 0, hi := some 7, also := [255] },
   ent 0x20 .int32 .ro,
   ent 0x21 .uint32 .ro,
   ent 0x22 .leadpos .ro,
   ent 0x23 .int64 .ro,
   ent 0x24 .uint32 .ro,
   ent 0x25 .uint32 .ro,
   ent 0x26 .uint32 .ro]

/-- OD 5800+g, group g (07_motion.md R284). -/
def tab5800 : List Entry :=
  [{ ent 0x00 .uint8 .ro with dflt := some (.num 0x7), lo := some 7, hi := some 7 },
   { ent 0x01 .bool .ro with fromCfg := true },
   ent 0x02 .bits32 .ro,
   { ent 0x03 (.octets 32) .rw with dflt := some (.oct (List.replicate 32 0xFF)), minLen := 32 },
   { ent 0x04 (.octets 136) .wo with operate := true, takesApply := true, minLen := 136 },
   { ent 0x05 .uint8 .rw with dflt := some (.num 0x0), lo := some 0, hi := some 2 },
   { ent 0x06 .bits32 .ro with dflt := some (.num 0) },
   { ent 0x07 .real64 .ro with lo := some 0, hi := some 1000 }]

/-- OD 7400+ch, PWM channel (08_local_axes.md R315). -/
def tab7400 : List Entry :=
  [{ ent 0x00 .uint8 .ro with dflt := some (.num 0xC), lo := some 12, hi := some 12 },
   { ent 0x01 .uint8 .rw with dflt := some (.num 0x0), lo := some 0, hi := some 4, enum := [0, 1, 2, 3] },
   { ent 0x02 .uint16 .rw with dflt := some (.num 2500), lo := some 20, hi := some 40000 },
   { ent 0x03 .uint16 .rw with dflt := some (.num 0), lo := some 0, hi := some 39999 },
   { ent 0x04 .uint8 .rw with dflt := some (.num 0x0), lo := some 0, hi := some 1, enum := [0, 1] },
   { ent 0x05 .uint16 .rw with dflt := some (.num 0), lo := some 0, hi := some 1023 },
   { ent 0x06 .uint8 .rw with dflt := some (.num 0), lo := some 0, hi := some 255 },
   { ent 0x07 .bool .rw with dflt := some (.num 0) },
   { ent 0x08 .uint8 .rw with dflt := some (.num 0x0), lo := some 0, hi := some 1, enum := [0, 1] },
   { ent 0x09 .int16 .rwc with dflt := some (.num 0), operate := true },
   { ent 0x0A .uint16 .rw with dflt := some (.num 400), lo := some 1, hi := some 65535 },
   { ent 0x0B .uint8 .wo with lo := some 1, hi := some 1, operate := true, takesApply := true },
   ent 0x0C .int16 .ro]

/-- OD 7500+e, encoder (08_local_axes.md R316). -/
def tab7500 : List Entry :=
  [{ ent 0x00 .uint8 .ro with dflt := some (.num 0x11), lo := some 17, hi := some 17 },
   { ent 0x01 .uint8 .rw with dflt := some (.num 0x0), lo := some 0, hi := some 2, enum := [0, 1, 2] },
   { ent 0x02 .uint8 .rw with dflt := some (.num 3), lo := some 0, hi := some 15 },
   { ent 0x03 .bool .rw with dflt := some (.num 0) },
   ent 0x04 .int64 .ro,
   { ent 0x05 .bits16 .ro with dflt := some (.num 0x0) },
   { ent 0x06 .bits16 .wo with operate := true },
   { ent 0x07 .uint32 .rw with dflt := some (.num 0) },
   { ent 0x08 .bool .rw with dflt := some (.num 0) },
   ent 0x09 .int64 .ro,
   { ent 0x0A .uint16 .rw with dflt := some (.num 20), lo := some 20, hi := some 2000 },
   { ent 0x0B .uint8 .rw with dflt := some (.num 25), lo := some 8, hi := some 40 },
   { ent 0x0C .uint8 .rw with dflt := some (.num 0x0), lo := some 0, hi := some 1, enum := [0, 1] },
   { ent 0x0D .uint8 .rw with dflt := some (.num 1), lo := some 1, hi := some 64 },
   { ent 0x0E .uint16 .rw with dflt := some (.num 200), lo := some 0, hi := some 6000 },
   { ent 0x0F .uint16 .rw with dflt := some (.num 0), lo := some 0, hi := some 800 },
   { ent 0x10 .bits8 .rw with dflt := some (.num 0x3), resv := 0xF8 },
   ent 0x11 .uint32 .ro]

/-- OD 7520+c, capture line (08_local_axes.md R317). -/
def tab7520 : List Entry :=
  [{ ent 0x00 .uint8 .ro with dflt := some (.num 0xB), lo := some 11, hi := some 11 },
   { ent 0x01 .uint8 .rw with dflt := some (.num 0x3), lo := some 0, hi := some 3, enum := [0, 1, 2, 3] },
   { ent 0x02 .uint8 .rw with dflt := some (.num 4), lo := some 0, hi := some 255 },
   { ent 0x03 .uint8 .rw with dflt := some (.num 0), lo := some 0, hi := some 7 },
   { ent 0x04 .uint8 .rw with dflt := some (.num 0xFF), lo := some 0, hi := some 7, also := [0xFF] },
   { ent 0x05 .uint8 .rw with dflt := some (.num 0xFF), lo := some 0, hi := some 15, also := [0xFF] },
   { ent 0x06 (.octets 20) .rw with dflt := some (.oct (List.replicate 20 0)), minLen := 20 },
   ent 0x07 (.octets 32) .ro,
   { ent 0x08 .uint8 .ro with lo := some 0, hi := some 16 },
   ent 0x09 .uint32 .ro,
   { ent 0x0A .leadpos .wo with operate := true },
   ent 0x0B .uint32 .ro]

/-- OD 7580+a, local axis (08_local_axes.md R318). -/
def tab7580 : List Entry :=
  [{ ent 0x00 .uint8 .ro with dflt := some (.num 0x1C), lo := some 28, hi := some 28 },
   { ent 0x01 .uint8 .rw with dflt := some (.num 0x0), lo := some 0, hi := some 2, enum := [0, 1, 2] },
   { ent 0x02 .uint8 .rw with dflt := some (.num 0), lo := some 0, hi := some 95 },
   { ent 0x03 .uint8 .rw with dflt := some (.num 1), lo := some 0, hi := some 95 },
   { ent 0x04 .bool .rw with dflt := some (.num 0) },
   { ent 0x05 .uint16 .rw with dflt := some (.num 400), lo := some 4, hi := some 10000 },
   { ent 0x06 .uint16 .rw with dflt := some (.num 200), lo := some 0, hi := some 10000 },
   { ent 0x07 .uint8 .rw with dflt := some (.num 0), lo := some 0, hi := some 7 },
   { ent 0x08 .uint16 .rw with dflt := some (.num 0), lo := some 0, hi := some 32767 },
   { ent 0x09 .uint16 .rw with dflt := some (.num 0), lo := some 0, hi := some 32767 },
   { ent 0x0A .uint16 .rw with dflt := some (.num 100), lo := some 0, hi := some 65535 },
   { ent 0x0B .uint16 .rw with dflt := some (.num 0xFFFF), lo := some 0, hi := some 4095, also := [0xFFFF] },
   { ent 0x0C .uint16 .rw with dflt := some (.num 0xFFFF), lo := some 0, hi := some 4095, also := [0xFFFF] },
   { ent 0x0D .uint16 .rw with dflt := some (.num 0), lo := some 0, hi := some 32767 },
   { ent 0x0E .uint8 .rw with dflt := some (.num 0xFF), lo := some 0, hi := some 15, also := [0xFF] },
   { ent 0x0F .int32 .rw with dflt := some (.num 1) },
   { ent 0x10 .uint32 .rw with dflt := some (.num 1), lo := some 1, hi := some 4294967295 },
   { ent 0x11 .uint16 .rw with dflt := some (.num 0xFF), resv := 0xFE00 },
   { ent 0x12 .uint16 .rw with dflt := some (.num 0xFF), resv := 0xFE00 },
   { ent 0x13 .uint16 .rw with dflt := some (.num 0xFF), resv := 0xFE00 },
   { ent 0x14 .uint16 .rw with dflt := some (.num 0), lo := some 0, hi := some 65535 },
   { ent 0x15 .uint32 .rw with dflt := some (.num 10000), lo := some 0, hi := some 10000000 },
   { ent 0x16 .bits32 .ro with dflt := some (.num 0x0) },
   ent 0x17 .int64 .ro] ++
  [{ ent 0x18 .int64 .ro with dflt := some (.num 0) },
   ent 0x19 .uint32 .ro,
   ent 0x1A .uint32 .ro,
   ent 0x1B .uint32 .ro,
   ent 0x1C .uint32 .ro]

/-- OD 7600+t, microstep table (08_local_axes.md R319). -/
def tab7600 : List Entry :=
  [{ ent 0x00 .uint8 .ro with dflt := some (.num 0x2), lo := some 2, hi := some 2 },
   { ent 0x01 (.octets 512) .rw with dflt := some (.oct sineTable), minLen := 512 },
   { ent 0x02 .int16 .rw with dflt := some (.num 32767), lo := some 0, hi := some 32767 }]

/-- OD 5A00+a, homing (08_local_axes.md R320). -/
def tab5A00 : List Entry :=
  [{ ent 0x00 .uint8 .ro with dflt := some (.num 0xF), lo := some 15, hi := some 15 },
   { ent 0x01 .uint8 .rw with dflt := some (.num 0x2), lo := some 1, hi := some 6 },
   { ent 0x02 .uint8 .rw with dflt := some (.num 0x1), lo := some 0, hi := some 1, enum := [0, 1] },
   { ent 0x03 .uint64 .rw with dflt := some (.num 0x100000000), lo := some 1, hi := some 9223372036854775807 },
   { ent 0x04 .uint64 .rw with dflt := some (.num 0x10000000), lo := some 1, hi := some 9223372036854775807 },
   { ent 0x05 .uint32 .rw with dflt := some (.num 65536), lo := some 1, hi := some 4294967295 },
   { ent 0x06 .uint32 .rw with dflt := some (.num 0x7FFFFFFF), lo := some 1, hi := some 4294967295 },
   { ent 0x07 .int64 .rw with dflt := some (.num 0) },
   { ent 0x08 .uint8 .rw with dflt := some (.num 0x0), lo := some 0, hi := some 1, enum := [0, 1] },
   { ent 0x09 .uint16 .rw with dflt := some (.num 0), lo := some 0, hi := some 32767 },
   { ent 0x0A .uint32 .rw with dflt := some (.num 256), lo := some 1, hi := some 4294967295 },
   { ent 0x0B .uint16 .rw with dflt := some (.num 20), lo := some 1, hi := some 65535 },
   { ent 0x0C .uint8 .wo with lo := some 1, hi := some 1, operate := true },
   { ent 0x0D .uint8 .ro with dflt := some (.num 0x0), lo := some 0, hi := some 6 },
   ent 0x0E .int64 .ro,
   ent 0x0F .int64 .ro]

/-- OD 8000, program runtime (09_cyclic_program.md R361). -/
def tab8000 : List Entry :=
  [ent 0x00 .uint32 .ro,
   { ent 0x01 .uint8 .ro with dflt := some (.num 0x0), lo := some 0, hi := some 3 },
   { ent 0x02 .uint8 .ro with dflt := some (.num 0x0), lo := some 0, hi := some 7 },
   { ent 0x03 .uint8 .wo with lo := some 1, hi := some 2, enum := [1, 2], operate := true },
   { ent 0x04 .uint8 .wo with lo := some 1, hi := some 3, enum := [1, 2, 3] },
   { ent 0x05 .uint8 .rw with dflt := some (.num 0x1), lo := some 0, hi := some 2 },
   { ent 0x06 .uint8 .rw with dflt := some (.num 0x1), lo := some 0, hi := some 1, enum := [0, 1] },
   { ent 0x07 .uint32 .rw with dflt := some (.num 60), lo := some 0, hi := some 86400 },
   { ent 0x08 .bool .rw with dflt := some (.num 0) },
   { ent 0x09 .uint8 .rw with dflt := some (.num 0), lo := some 0, hi := some 63 },
   ent 0x0A .uint32 .ro]

/-- OD 8010, program images (09_cyclic_program.md R362). -/
def tab8010 : List Entry :=
  [{ ent 0x00 .uint8 .ro with dflt := some (.num 0x11), lo := some 17, hi := some 17 },
   ent 0x01 .uint64 .ro,
   ent 0x02 .uint64 .ro,
   ent 0x03 (.octets 16777216) .wo,
   { ent 0x04 .uint8 .ro with dflt := some (.num 0x0), lo := some 0, hi := some 6 },
   { ent 0x05 .uint8 .wo with lo := some 1, hi := some 4, enum := [1, 2, 3, 4] },
   { ent 0x06 .uint32 .rw with dflt := some (.num 0x186A0), lo := some 0, hi := some 10000000 },
   { ent 0x07 .uint32 .rw with dflt := some (.num 0x7A120), lo := some 10000, hi := some 100000000 },
   ent 0x08 .uint32 .ro,
   ent 0x09 .uint32 .ro,
   ent 0x0A .uint32 .ro,
   ent 0x0B .uint32 .ro,
   ent 0x0C .uint32 .ro,
   ent 0x0D .uint32 .ro,
   ent 0x0E (.octets 4194304) .ro,
   ent 0x0F .uint64 .ro,
   ent 0x10 .uint32 .ro,
   ent 0x11 .uint32 .ro]

/-- OD 8020, retained variables (09_cyclic_program.md R363). -/
def tab8020 : List Entry :=
  [{ ent 0x00 .uint8 .ro with dflt := some (.num 0xB), lo := some 11, hi := some 11 },
   { ent 0x01 .uint32 .ro with lo := some 0, hi := some 262144 },
   ent 0x02 .uint64 .ro,
   ent 0x03 .uint64 .ro,
   ent 0x04 .uint64 .ro,
   ent 0x05 .uint32 .ro,
   ent 0x06 .uint32 .ro,
   ent 0x07 .uint32 .ro,
   { ent 0x08 .uint8 .ro with lo := some 0, hi := some 2 },
   ent 0x09 .uint64 .ro,
   { ent 0x0A .uint8 .wo with lo := some 1, hi := some 2, enum := [1, 2] },
   ent 0x0B .uint32 .ro]

/-- OD 8030, breakpoints (09_cyclic_program.md R364). -/
def tab8030 : List Entry :=
  [{ ent 0x00 .uint8 .ro with dflt := some (.num 0x11), lo := some 17, hi := some 17 },
   { ent 0x11 .uint8 .ro with dflt := some (.num 0xFF), lo := some 0, hi := some 15, also := [255] }] ++
  ((List.range 16).map fun i => { ent (0x01 + i) .uint64 .rw with dflt := some (.num 0), resv := 0x7F00000000000000 })

/-- OD 8100+i, task i (09_cyclic_program.md R365). -/
def tab8100 : List Entry :=
  [{ ent 0x00 .uint8 .ro with dflt := some (.num 0x1C), lo := some 28, hi := some 28 },
   { ent 0x01 .bool .ro with fromCfg := true },
   ent 0x02 .bits32 .ro,
   { ent 0x03 .uint8 .ro with fromCfg := true, lo := some 0, hi := some 2 },
   { ent 0x04 .uint8 .ro with fromCfg := true, lo := some 1, hi := some 62 },
   { ent 0x05 .uint64 .ro with fromCfg := true },
   { ent 0x06 .uint64 .ro with fromCfg := true },
   { ent 0x07 .uint8 .ro with fromCfg := true, lo := some 0, hi := some 7 },
   { ent 0x08 (.octets 128) .rw with fromCfg := true, operate := true, minLen := 128 },
   { ent 0x09 .bits8 .ro with fromCfg := true },
   { ent 0x0A .uint32 .ro with fromCfg := true, lo := some 31250, hi := some 1000000000, also := [0] },
   { ent 0x0B .uint64 .ro with fromCfg := true, lo := some 31250, hi := some 10000000000, also := [0] },
   { ent 0x0C .uint32 .rw with fromCfg := true, lo := some 1000, hi := some 4294967295 },
   { ent 0x0D .uint8 .rw with dflt := some (.num 2), lo := some 0, hi := some 255 },
   { ent 0x0E .uint16 .rw with dflt := some (.num 10), lo := some 0, hi := some 1000 },
   { ent 0x0F .uint8 .rw with dflt := some (.num 0x2), lo := some 0, hi := some 3 },
   { ent 0x10 .uint64 .rw with dflt := some (.num 0) },
   { ent 0x11 .uint8 .ro with lo := some 0, hi := some 7, also := [255] },
   ent 0x12 .uint32 .ro,
   ent 0x13 .uint32 .ro,
   ent 0x14 .uint32 .ro,
   ent 0x15 .uint64 .ro,
   ent 0x16 .uint32 .ro,
   ent 0x17 .uint32 .ro] ++
  [ent 0x18 .uint32 .ro,
   ent 0x19 .uint32 .ro,
   { ent 0x1A .uint8 .wo with lo := some 1, hi := some 1, operate := true },
   { ent 0x1B .uint8 .wo with lo := some 1, hi := some 1 },
   ent 0x1C .uint32 .ro]

/-- OD A000, Ostler (10_scheduler_placement.md R398). -/
def tabA000 : List Entry :=
  [ent 0x00 .uint32 .ro,
   { ent 0x01 .uint16 .rw with dflt := some (.num 16), lo := some 1, hi := some 65535 },
   { ent 0x02 .uint32 .rw with dflt := some (.num 60), lo := some 0, hi := some 86400 },
   { ent 0x03 .uint8 .rw with dflt := some (.num 8), lo := some 1, hi := some 32 },
   { ent 0x04 .bits32 .ro with dflt := some (.num 0) },
   ent 0x05 .uint32 .ro,
   ent 0x06 .uint32 .ro,
   ent 0x07 .uint32 .ro,
   ent 0x08 .uint32 .ro,
   ent 0x09 .uint32 .ro,
   ent 0x0A .bits8 .ro,
   { ent 0x0B (.octets 8) .wo with minLen := 8 },
   ent 0x0C .uint32 .ro]

/-- OD A040, task scheduler (10_scheduler_placement.md R401). -/
def tabA040 : List Entry :=
  [{ ent 0x00 .uint8 .ro with dflt := some (.num 0x9), lo := some 9, hi := some 9 },
   { ent 0x01 .uint8 .ro with dflt := some (.num 0x0), lo := some 0, hi := some 1 },
   { ent 0x02 .uint16 .ro with lo := some 0, hi := some 3840 },
   { ent 0x03 .uint16 .ro with lo := some 0, hi := some 3840 },
   { ent 0x04 .uint32 .ro with lo := some 0, hi := some 1048576 },
   { ent 0x05 .uint32 .ro with lo := some 0, hi := some 1048576 },
   ent 0x06 .uint32 .ro,
   ent 0x07 .uint32 .ro,
   ent 0x08 .uint64 .ro,
   ent 0x09 .uint32 .ro]

/-- OD A100+u, unit u (10_scheduler_placement.md R402). -/
def tabA100 : List Entry :=
  [{ ent 0x00 .uint8 .ro with dflt := some (.num 0x7), lo := some 7, hi := some 7 },
   ent 0x01 .bits32 .ro,
   { ent 0x02 .uint16 .ro with lo := some 0, hi := some 1000 },
   ent 0x03 .uint32 .ro,
   ent 0x04 .uint32 .ro,
   ent 0x05 .uint64 .ro,
   { ent 0x06 .uint32 .ro with fromCfg := true },
   ent 0x07 .uint32 .ro]

/-- OD A200+c, cluster c (10_scheduler_placement.md R403). -/
def tabA200 : List Entry :=
  [{ ent 0x00 .uint8 .ro with dflt := some (.num 0x6), lo := some 6, hi := some 6 },
   { ent 0x01 .uint8 .rw with dflt := some (.num 1), lo := some 0, hi := some 7 },
   { ent 0x02 .uint8 .ro with lo := some 0, hi := some 8 },
   { ent 0x03 .uint16 .ro with lo := some 0, hi := some 1000 },
   { ent 0x04 .uint8 .ro with lo := some 0, hi := some 64 },
   { ent 0x05 .bool .ro with dflt := some (.num 0) },
   ent 0x06 .uint32 .ro]

/-- OD 6000, analogue (11_analogue.md R422). -/
def tab6000 : List Entry :=
  [ent 0x00 .uint32 .ro,
   ent 0x01 .uint32 .ro,
   ent 0x02 .uint32 .ro,
   ent 0x03 .uint32 .ro,
   ent 0x04 .uint32 .ro,
   ent 0x05 .uint32 .ro,
   { ent 0x06 .uint32 .ro with dflt := some (.num 0) },
   { ent 0x07 .uint16 .rw with dflt := some (.num 1), lo := some 1, hi := some 3600 }]

/-- OD 6020+a, converter (11_analogue.md R423). -/
def tab6020 : List Entry :=
  [{ ent 0x00 .uint8 .ro with dflt := some (.num 0x8), lo := some 8, hi := some 8 },
   { ent 0x01 .bits16 .ro with dflt := some (.num 0x0) },
   ent 0x02 .uint64 .ro,
   ent 0x03 .uint32 .ro,
   ent 0x04 .uint32 .ro,
   ent 0x05 .uint32 .ro,
   ent 0x06 .uint32 .ro,
   ent 0x07 .int16 .ro,
   ent 0x08 .uint32 .ro]

/-- OD 6100+i, analogue input (11_analogue.md R424). -/
def tab6100 : List Entry :=
  [{ ent 0x00 .uint8 .ro with dflt := some (.num 0x6), lo := some 6, hi := some 6 },
   { ent 0x01 .uint8 .rw with dflt := some (.num 0x0), lo := some 0, hi := some 1, enum := [0, 1], operate := true },
   { ent 0x02 .uint64 .ro with dflt := some (.num 0x800000) },
   ent 0x03 .real32 .ro,
   { ent 0x04 .bool .rw with dflt := some (.num 0), operate := true },
   ent 0x05 .uint32 .ro,
   ent 0x06 .uint32 .ro]

/-- OD 6200+t, conversion trigger (11_analogue.md R425). -/
def tab6200 : List Entry :=
  [{ ent 0x00 .uint8 .ro with dflt := some (.num 0xE), lo := some 14, hi := some 14 },
   { ent 0x01 .uint8 .rw with dflt := some (.num 0x0), lo := some 0, hi := some 5 },
   { ent 0x02 .uint16 .rw with dflt := some (.num 0), resv := 0xFE80 },
   { ent 0x03 .uint64 .rw with dflt := some (.num 1) },
   { ent 0x04 .uint64 .rw with dflt := some (.num 0) },
   { ent 0x05 .leadpos .rw with dflt := some (.num 0), operate := true },
   { ent 0x06 .bits8 .rw with dflt := some (.num 0x0), resv := 0xF0 },
   { ent 0x07 .uint16 .rw with dflt := some (.num 0), lo := some 0, hi := some 65535 },
   { ent 0x08 .uint32 .rw with dflt := some (.num 0) },
   { ent 0x09 .uint64 .rw with dflt := some (.num 0) },
   { ent 0x0A .uint8 .rw with dflt := some (.num 0x0), lo := some 0, hi := some 1, enum := [0, 1] },
   { ent 0x0B .uint8 .wo with lo := some 1, hi := some 1, operate := true, takesApply := true },
   { ent 0x0C .uint8 .ro with dflt := some (.num 0x0), lo := some 0, hi := some 2 },
   ent 0x0D .uint32 .ro,
   ent 0x0E .uint32 .ro]

/-- OD 6300+o, analogue output (11_analogue.md R426). -/
def tab6300 : List Entry :=
  [{ ent 0x00 .uint8 .ro with dflt := some (.num 0x8), lo := some 8, hi := some 8 },
   { ent 0x01 .uint8 .rw with dflt := some (.num 0x0), lo := some 0, hi := some 2 },
   ent 0x02 .int16 .ro,
   { ent 0x03 .int16 .rw with dflt := some (.num 0x0) },
   { ent 0x04 .int16 .rwc with dflt := some (.num 0), operate := true },
   { ent 0x05 .uint16 .rw with dflt := some (.num 0), lo := some 0, hi := some 65535 },
   { ent 0x06 .bits8 .rw with dflt := some (.num 0x0), resv := 0xFC },
   { ent 0x07 .bits8 .ro with dflt := some (.num 0x0) },
   ent 0x08 .uint32 .ro]

/-- OD 7000, field I/O (12_field_io.md R445). -/
def tab7000 : List Entry :=
  [ent 0x00 .uint32 .ro,
   { ent 0x01 .uint8 .ro with dflt := some (.num 0x0), lo := some 0, hi := some 2 },
   ent 0x02 .uint64 .ro,
   ent 0x03 .uint32 .ro,
   ent 0x04 .uint32 .ro,
   ent 0x05 .uint32 .ro,
   ent 0x06 .uint32 .ro,
   ent 0x07 .uint32 .ro]

/-- OD 7008+g, input group (12_field_io.md R446). -/
def tab7008 : List Entry :=
  [{ ent 0x00 .uint8 .ro with dflt := some (.num 0x1), lo := some 1, hi := some 1 },
   { ent 0x01 .uint8 .rw with dflt := some (.num 0x0), lo := some 0, hi := some 1, enum := [0, 1] }]

/-- OD 7100+i, digital input (12_field_io.md R447). -/
def tab7100 : List Entry :=
  [{ ent 0x00 .uint8 .ro with dflt := some (.num 0x8), lo := some 8, hi := some 8 },
   { ent 0x01 .uint16 .rw with dflt := some (.num 1000), lo := some 1, hi := some 65535 },
   { ent 0x02 .bool .rw with dflt := some (.num 0) },
   ent 0x03 .bool .ro,
   { ent 0x04 .bits8 .ro with dflt := some (.num 0x2) },
   ent 0x05 .tbtime .ro,
   ent 0x06 .uint32 .ro,
   { ent 0x07 .bool .rw with dflt := some (.num 0) },
   ent 0x08 .uint32 .ro]

/-- OD 7200+q, output group (12_field_io.md R449). -/
def tab7200 : List Entry :=
  [{ ent 0x00 .uint8 .ro with dflt := some (.num 0x4), lo := some 4, hi := some 4 },
   ent 0x01 .uint16 .ro,
   { ent 0x02 .bits8 .ro with dflt := some (.num 0x1) },
   ent 0x03 .uint16 .ro,
   ent 0x04 .uint32 .ro]

/-- OD 7300+o, digital output (12_field_io.md R450). -/
def tab7300 : List Entry :=
  [{ ent 0x00 .uint8 .ro with dflt := some (.num 0xD), lo := some 13, hi := some 13 },
   { ent 0x01 .uint8 .rw with dflt := some (.num 0x0), lo := some 0, hi := some 2, enum := [0, 1, 2] },
   { ent 0x02 .bool .rwc with dflt := some (.num 0), operate := true },
   { ent 0x03 .uint8 .wo with lo := some 0, hi := some 1, operate := true, takesApply := true },
   { ent 0x04 .uint16 .rw with dflt := some (.num 0), lo := some 0, hi := some 65535 },
   { ent 0x05 .bits8 .rw with dflt := some (.num 0x0), resv := 0xFC },
   { ent 0x06 .uint16 .rw with dflt := some (.num 100), lo := some 10, hi := some 10000 },
   { ent 0x07 .uint8 .rw with dflt := some (.num 3), lo := some 0, hi := some 255 },
   { ent 0x08 .bits32 .ro with dflt := some (.num 0x0) },
   { ent 0x09 .uint8 .wo with lo := some 1, hi := some 1, operate := true },
   ent 0x0A .uint16 .ro,
   ent 0x0B .uint32 .ro,
   ent 0x0C .uint32 .ro,
   ent 0x0D .uint32 .ro]

/-- OD 9000, recorder (13_recording.md R482). -/
def tab9000 : List Entry :=
  [ent 0x00 .uint32 .ro,
   { ent 0x01 .bool .rw with dflt := some (.num 1) },
   { ent 0x02 .uint8 .ro with dflt := some (.num 0x0), lo := some 0, hi := some 4 },
   { ent 0x03 .uint64 .rw with dflt := some (.num 0xFFFE) },
   ent 0x04 .uint64 .ro,
   ent 0x05 .uint64 .ro,
   ent 0x06 .uint64 .ro,
   { ent 0x07 .uint8 .rw with dflt := some (.num 3), lo := some 0, hi := some 3 },
   { ent 0x08 .uint8 .ro with lo := some 0, hi := some 3 },
   { ent 0x09 .uint16 .ro with lo := some 0, hi := some 1000 },
   { ent 0x0A .uint16 .rw with dflt := some (.num 750), lo := some 500, hi := some 950 },
   { ent 0x0B .uint16 .rw with dflt := some (.num 500), lo := some 100, hi := some 900 },
   { ent 0x0C (.octets 16) .rw with dflt := some (.oct ([0x06, 0x04, 0x0F, 0x09, 0x05, 0x03, 0x02] ++ List.replicate 9 0xFF)), minLen := 16 },
   { ent 0x0D .uint64 .ro with dflt := some (.num 0) },
   ent 0x0E .uint32 .ro,
   ent 0x0F .uint32 .ro,
   { ent 0x10 .uint16 .rw with dflt := some (.num 100), lo := some 10, hi := some 1000 },
   { ent 0x11 .bool .rw with dflt := some (.num 1) },
   ent 0x12 .uint64 .ro,
   ent 0x13 .uint64 .ro,
   ent 0x14 .uint16 .ro]

/-- OD 9100+f, stream FIFO (13_recording.md R484). -/
def tab9100 : List Entry :=
  [{ ent 0x00 .uint8 .ro with dflt := some (.num 0xA), lo := some 10, hi := some 10 },
   { ent 0x01 .uint8 .ro with dflt := some (.num 0x0), lo := some 0, hi := some 2 },
   { ent 0x02 .uint8 .rw with dflt := some (.num 0x0), lo := some 0, hi := some 2, enum := [0, 1, 2] },
   { ent 0x03 .uint16 .rw with dflt := some (.num 512), lo := some 16, hi := some 8192 },
   { ent 0x04 .uint16 .rw with dflt := some (.num 0), lo := some 0, hi := some 8192 },
   { ent 0x05 .uint16 .rw with dflt := some (.num 16), lo := some 1, hi := some 65535 },
   { ent 0x06 .uint16 .ro with lo := some 0, hi := some 16384 },
   ent 0x07 .uint32 .ro,
   ent 0x08 .uint32 .ro,
   ent 0x09 (.octets 4608) .ro,
   ent 0x0A .uint32 .ro]

/-- OD 9200+d, SSD (13_recording.md R485). -/
def tab9200 : List Entry :=
  [{ ent 0x00 .uint8 .ro with dflt := some (.num 0xC), lo := some 12, hi := some 12 },
   { ent 0x01 .uint8 .ro with dflt := some (.num 0x0), lo := some 0, hi := some 7 },
   { ent 0x02 .uint8 .wo with lo := some 1, hi := some 3, enum := [1, 2, 3], operate := true },
   ent 0x03 .bits8 .ro,
   ent 0x04 (.string 40) .ro,
   ent 0x05 .uint64 .ro,
   ent 0x06 .uint64 .ro,
   ent 0x07 .uint64 .ro,
   ent 0x08 .uint64 .ro,
   ent 0x09 .uint64 .ro,
   ent 0x0A .uint32 .ro,
   ent 0x0B .uint64 .ro,
   { ent 0x0C .uint8 .ro with lo := some 0, hi := some 255 }]

/-- OD C000, configuration and modes (14_modes_recipes.md R504). -/
def tabC000 : List Entry :=
  [ent 0x00 .uint32 .ro,
   { ent 0x01 .uint8 .rw with dflt := some (.num 0xFF), lo := some 0, hi := some 31, also := [0xFF], operate := true, takesApply := true },
   { ent 0x02 .uint8 .ro with dflt := some (.num 0xFF), lo := some 0, hi := some 31, also := [255] },
   { ent 0x03 .uint8 .rw with dflt := some (.num 0xFF), lo := some 0, hi := some 31, also := [0xFF] },
   ent 0x04 .uint64 .ro,
   ent 0x05 .uint64 .ro,
   { ent 0x06 .bits32 .ro with dflt := some (.num 0) },
   ent 0x07 .uint32 .ro,
   ent 0x08 .uint32 .ro,
   { ent 0x09 .uint8 .wo with lo := some 1, hi := some 1 },
   ent 0x0A (.octets 1048576) .ro,
   { ent 0x0B .bool .ro with dflt := some (.num 0) },
   { ent 0x0C .uint8 .ro with dflt := some (.num 0x0) }]

/-- OD C010, configuration images (14_modes_recipes.md R505). -/
def tabC010 : List Entry :=
  [{ ent 0x00 .uint8 .ro with dflt := some (.num 0x5), lo := some 5, hi := some 5 },
   ent 0x01 (.octets 8388608) .wo,
   { ent 0x02 .uint8 .ro with dflt := some (.num 0x0), lo := some 0, hi := some 6 },
   { ent 0x03 .uint8 .wo with lo := some 1, hi := some 4, enum := [1, 2, 4], takesApply := true },
   { ent 0x04 .uint8 .ro with dflt := some (.num 0x0), lo := some 0, hi := some 2 },
   { ent 0x05 .uint32 .ro with dflt := some (.num 0) }]

/-- OD C200+s, recipe sequencer (14_modes_recipes.md R506). -/
def tabC200 : List Entry :=
  [{ ent 0x00 .uint8 .ro with dflt := some (.num 0xF), lo := some 15, hi := some 15 },
   { ent 0x01 .bits32 .ro with dflt := some (.num 0x0) },
   { ent 0x02 .uint8 .wo with lo := some 1, hi := some 5, enum := [1, 2, 3, 4, 5], operate := true },
   { ent 0x03 .uint8 .rw with dflt := some (.num 0), lo := some 0, hi := some 255 },
   { ent 0x04 .uint16 .rw with dflt := some (.num 0), lo := some 0, hi := some 1023 },
   ent 0x05 .tbtime .ro,
   ent 0x06 .leadpos .ro,
   ent 0x07 .int64 .ro,
   { ent 0x08 .bits8 .rw with dflt := some (.num 0x3), resv := 0xFC },
   { ent 0x09 .uint64 .rw with dflt := some (.num 0) },
   { ent 0x0A .uint8 .rw with dflt := some (.num 0x1), lo := some 0, hi := some 1, enum := [0, 1] },
   ent 0x0B .uint32 .ro,
   ent 0x0C .uint32 .ro,
   { ent 0x0D .bits32 .ro with dflt := some (.num 0) },
   { ent 0x0E .uint32 .ro with fromCfg := true },
   ent 0x0F .uint32 .ro]

/-- OD B000, health (15_startup_health_power.md R542). -/
def tabB000 : List Entry :=
  [ent 0x00 .uint32 .ro,
   ent 0x01 .bits32 .ro,
   ent 0x02 .uint16 .ro,
   ent 0x03 .uint16 .ro,
   ent 0x04 .int16 .ro,
   ent 0x05 .int16 .ro,
   { ent 0x06 .uint32 .ro with fromCfg := true },
   { ent 0x07 .uint8 .wo with lo := some 1, hi := some 1 },
   ent 0x08 .uint32 .ro,
   ent 0x09 .uint32 .ro,
   { ent 0x0A .bits8 .ro with dflt := some (.num 0x0) },
   ent 0x0B .uint32 .ro,
   { ent 0x0C .uint32 .ro with fromCfg := true }]

/-- OD B010, start-up (15_startup_health_power.md R543). -/
def tabB010 : List Entry :=
  [{ ent 0x00 .uint8 .ro with dflt := some (.num 0x5), lo := some 5, hi := some 5 },
   { ent 0x01 .uint8 .ro with dflt := some (.num 0x0), lo := some 0, hi := some 9 },
   { ent 0x02 .uint16 .rw with dflt := some (.num 30), lo := some 0, hi := some 600 },
   ent 0x03 .uint32 .ro,
   { ent 0x04 .uint8 .ro with lo := some 0, hi := some 1 },
   { ent 0x05 .bits16 .ro with dflt := some (.num 0x0) }]

/-- OD B020, power (15_startup_health_power.md R543). -/
def tabB020 : List Entry :=
  [{ ent 0x00 .uint8 .ro with dflt := some (.num 0x5), lo := some 5, hi := some 5 },
   { ent 0x01 .uint32 .ro with fromCfg := true },
   { ent 0x02 .uint16 .rw with dflt := some (.num 2000), lo := some 0, hi := some 5000 },
   { ent 0x03 .uint64 .rw with dflt := some (.num 0) },
   { ent 0x04 .uint32 .ro with fromCfg := true },
   { ent 0x05 .uint8 .ro with dflt := some (.num 0x0), lo := some 0, hi := some 2 }]

/-- OD B040, thermal (15_startup_health_power.md R543). -/
def tabB040 : List Entry :=
  [{ ent 0x00 .uint8 .ro with dflt := some (.num 0x9), lo := some 9, hi := some 9 },
   { ent 0x01 .uint8 .ro with dflt := some (.num 0), lo := some 0, hi := some 4 },
   { ent 0x02 .uint16 .ro with dflt := some (.num 1200), lo := some 0, hi := some 1200 },
   { ent 0x03 .uint16 .ro with dflt := some (.num 1600), lo := some 400, hi := some 1600 },
   { ent 0x04 .uint8 .ro with dflt := some (.num 3), lo := some 0, hi := some 3 },
   { ent 0x09 .uint32 .ro with fromCfg := true }] ++
  ((List.range 4).map fun i => ent (0x05 + i) .int16 .ro)

/-- OD B030, firmware (15_startup_health_power.md R544). -/
def tabB030 : List Entry :=
  [{ ent 0x00 .uint8 .ro with dflt := some (.num 0x7), lo := some 7, hi := some 7 },
   ent 0x01 (.octets 25165824) .wo,
   { ent 0x02 .uint8 .wo with lo := some 1, hi := some 4, enum := [1, 2, 3, 4] },
   { ent 0x03 .uint8 .wo with lo := some 1, hi := some 8, enum := [1, 2, 3, 4, 5, 6, 7, 8] },
   { ent 0x04 .uint8 .ro with dflt := some (.num 0x0), lo := some 0, hi := some 6 },
   { ent 0x05 .uint8 .ro with dflt := some (.num 0x0), lo := some 0, hi := some 8 },
   ent 0x06 .uint32 .ro,
   { ent 0x07 .uint8 .ro with lo := some 0, hi := some 63 }]

/-- OD B080, Paddock (15_startup_health_power.md R545). -/
def tabB080 : List Entry :=
  [{ ent 0x00 .uint8 .ro with dflt := some (.num 0x7), lo := some 7, hi := some 7 },
   ent 0x01 .bits8 .ro,
   ent 0x02 .uint16 .ro,
   { ent 0x03 .int8 .rw with dflt := some (.num 95), lo := some (-40), hi := some 125 },
   ent 0x04 (.octets 1024) .ro,
   { ent 0x05 .uint8 .wo with lo := some 1, hi := some 1 },
   { ent 0x06 .uint64 .rw with dflt := some (.num 0) },
   { ent 0x07 .bits16 .rw with dflt := some (.num 0x18) }]

/-- OD F000, diagnostics (15_startup_health_power.md R546). -/
def tabF000 : List Entry :=
  [ent 0x00 .uint32 .ro,
   ent 0x01 .uint32 .ro,
   ent 0x02 .uint32 .ro,
   { ent 0x03 .uint16 .ro with fromCfg := true, lo := some 0, hi := some 4096 },
   ent 0x04 .uint32 .ro,
   ent 0x05 .uint32 .ro,
   ent 0x06 .uint32 .ro,
   ent 0x07 .uint32 .ro,
   ent 0x08 .uint32 .ro]

/-- OD 2060, PPS (16_package_electrical.md R565). -/
def tab2060 : List Entry :=
  [{ ent 0x00 .uint8 .ro with dflt := some (.num 0x6), lo := some 6, hi := some 6 },
   { ent 0x01 .uint8 .rw with dflt := some (.num 0xFF), lo := some 0, hi := some 7, also := [0xFF] },
   { ent 0x02 .uint16 .rw with dflt := some (.num 100), lo := some 1, hi := some 500 },
   { ent 0x03 .uint8 .rw with dflt := some (.num 0), lo := some 0, hi := some 7 },
   ent 0x04 .tbtime .ro,
   ent 0x05 .int32 .ro,
   ent 0x06 .uint32 .ro]

/-- OD 9008, decimation of each class (13_recording.md R483). -/
def tab9008 : List Entry :=
  { ent 0 .uint8 .ro with dflt := some (.num 0x0F) } ::
  ((List.range 15).map fun i => { ent (i + 1) .uint16 .rw with dflt := some (.num 1), lo := some 1, hi := some 65535 })

/-- OD A010, Ostler commands (10_scheduler_placement.md R399). -/
def tabA010 : List Entry :=
  [{ ent 0 .uint8 .ro with dflt := some (.num 1) }, { ent 1 (.octets 8) .wo with minLen := 8 }]

/-- OD A020 to A022, location maps of 4-byte words (10_scheduler_placement.md R400). -/
def tabMap (items : Nat) : List Entry :=
  [{ ent 0 .uint8 .ro with dflt := some (.num 1) }, ent 1 (.octets (4 * items)) .ro]

/-- OD A030, the declaration records (10_scheduler_placement.md R400). -/
def tabA030 : List Entry :=
  [{ ent 0 .uint8 .ro with dflt := some (.num 1) }, ent 1 (.octets (8 * 6208)) .ro]

/-- Every table of the dictionary, but for the exported program variables of OD 8800 to 8FFF (R367), which the active image
defines. -/
def tables : List Table :=
  [⟨0x1010, 1, tab1010⟩,
   ⟨0x1000, 1, tab1000⟩,
   ⟨0x1002, 1, tab1002⟩,
   ⟨0x1100, 1, tab1100⟩,
   ⟨0x2000, 1, tab2000⟩,
   ⟨0x2010, 8, tab2010⟩,
   ⟨0x2020, 10, tab2020⟩,
   ⟨0x2040, 8, tab2040⟩,
   ⟨0x2050, 1, tab2050⟩,
   ⟨0x3000, 1, tab3000⟩,
   ⟨0x3010, 4, tab3010⟩,
   ⟨0x3018, 1, tab3018⟩,
   ⟨0x3020, 64, tab3020⟩,
   ⟨0x3800, 2048, tab3800⟩,
   ⟨0x3060, 1, tab3060⟩,
   ⟨0x3068, 4, tab3068⟩,
   ⟨0x3070, 1, tab3070⟩,
   ⟨0x3080, 1, tab3080⟩,
   ⟨0xF400, 8, tabF400⟩,
   ⟨0x4000, 4096, tab4000⟩,
   ⟨0x5000, 2048, tab5000⟩,
   ⟨0x5800, 256, tab5800⟩,
   ⟨0x7400, 96, tab7400⟩,
   ⟨0x7500, 16, tab7500⟩,
   ⟨0x7520, 16, tab7520⟩,
   ⟨0x7580, 32, tab7580⟩,
   ⟨0x7600, 8, tab7600⟩,
   ⟨0x5A00, 32, tab5A00⟩,
   ⟨0x8000, 1, tab8000⟩,
   ⟨0x8010, 1, tab8010⟩,
   ⟨0x8020, 1, tab8020⟩,
   ⟨0x8030, 1, tab8030⟩,
   ⟨0x8100, 64, tab8100⟩,
   ⟨0xA000, 1, tabA000⟩,
   ⟨0xA040, 1, tabA040⟩,
   ⟨0xA100, 104, tabA100⟩,
   ⟨0xA200, 13, tabA200⟩,
   ⟨0x6000, 1, tab6000⟩,
   ⟨0x6020, 32, tab6020⟩,
   ⟨0x6100, 96, tab6100⟩,
   ⟨0x6200, 64, tab6200⟩,
   ⟨0x6300, 16, tab6300⟩,
   ⟨0x7000, 1, tab7000⟩,
   ⟨0x7008, 8, tab7008⟩,
   ⟨0x7100, 64, tab7100⟩,
   ⟨0x7200, 4, tab7200⟩,
   ⟨0x7300, 32, tab7300⟩,
   ⟨0x9000, 1, tab9000⟩,
   ⟨0x9100, 256, tab9100⟩,
   ⟨0x9200, 2, tab9200⟩,
   ⟨0xC000, 1, tabC000⟩,
   ⟨0xC010, 1, tabC010⟩,
   ⟨0xC200, 64, tabC200⟩,
   ⟨0xB000, 1, tabB000⟩,
   ⟨0xB010, 1, tabB010⟩,
   ⟨0xB020, 1, tabB020⟩,
   ⟨0xB040, 1, tabB040⟩,
   ⟨0xB030, 1, tabB030⟩,
   ⟨0xB080, 1, tabB080⟩,
   ⟨0xF000, 1, tabF000⟩,
   ⟨0x2060, 1, tab2060⟩] ++
  [⟨0x9008, 1, tab9008⟩, ⟨0xA010, 1, tabA010⟩, ⟨0xA020, 1, tabMap 4096⟩, ⟨0xA021, 1, tabMap 2048⟩,
   ⟨0xA022, 1, tabMap 64⟩, ⟨0xA030, 1, tabA030⟩]

/-- The table that defines an index (R55). -/
def tableOf (index : Nat) : Option Table :=
  tables.find? fun t => t.base ≤ index && index < t.base + t.count

/-- The entry that an index and a subindex name. -/
def entryOf (index sub : Nat) : Option Entry :=
  match tableOf index with
  | none => none
  | some t => t.subs.find? fun e => e.sub = sub

/-- The highest subindex defined in an entry (R54). -/
def highestSub (index : Nat) : Nat :=
  match tableOf index with
  | none => 0
  | some t => t.subs.foldl (fun m e => max m e.sub) 0

/-- First indexes of the functions of R66, with the last index of each range. -/
def functionRanges : List (Nat × Nat) :=
  [(0x1000, 0x1FFF), (0x2000, 0x2FFF), (0x3000, 0x3FFF), (0x4000, 0x4FFF), (0x5000, 0x57FF), (0x5800, 0x5FFF),
   (0x6000, 0x6FFF), (0x7000, 0x7FFF), (0x8000, 0x8FFF), (0x9000, 0x9FFF), (0xA000, 0xAFFF), (0xB000, 0xBFFF),
   (0xC000, 0xCFFF), (0xF000, 0xFFFF)]

/-- The number, in the order of R66, of the function that an index belongs to. -/
def functionOf (index : Nat) : Option Nat :=
  functionRanges.findIdx? fun r => r.1 ≤ index && index ≤ r.2

/-- Whether an index is the first entry of its function (R54). -/
def isFirstEntry (index : Nat) : Bool :=
  functionRanges.any fun r => r.1 = index

/-- The default of a register as its table gives it, with the defaults that differ by instance (R96, R100); a register with no
default reads 0 (notes/assumptions/1.md, 2.md). -/
def defaultVal (index sub : Nat) : Val :=
  if 0x2010 ≤ index && index < 0x2018 && sub = 1 then .num (if index = 0x2010 then 1 else 0)
  else if 0x2010 ≤ index && index < 0x2018 && sub = 2 then .num (index - 0x2010)
  else if 0x2028 ≤ index && index < 0x202A && sub = 1 then .num 1
  else if 0x2020 ≤ index && index < 0x2028 && sub = 2 then .num 1
  else
    match entryOf index sub with
    | some e =>
      match e.dflt with
      | some v => v
      | none =>
        match e.ty with
        | .string n => .oct (List.replicate n 0)
        | .octets _ => .oct []
        | _ => .num 0
    | none => .num 0

/-- The key of a register in the register store. -/
def regKey (index sub : Nat) : Nat := index * 256 + sub

end Sys2Proof.Machine
end

