-- ==== Sys2Proof/Machine/Float.lean ====
section
/-! DEFINITION. Exact rationals, IEEE 754 binary64 (R251) and block floating point (R215 to R220). -/

namespace Sys2Proof

/-! Exact rationals. -/

/-- num / den in lowest terms; a denominator of 0 gives 0. -/
def Frac.mk' (n : Int) (d : Nat) : Frac :=
  if d = 0 then ⟨0, 1⟩
  else
    let g := Nat.gcd n.natAbs d
    ⟨n / (g : Int), d / g⟩

def Frac.zero : Frac := ⟨0, 1⟩

def Frac.ofInt (n : Int) : Frac := ⟨n, 1⟩

def Frac.add (a b : Frac) : Frac := Frac.mk' (a.num * b.den + b.num * a.den) (a.den * b.den)

def Frac.neg (a : Frac) : Frac := ⟨-a.num, a.den⟩

def Frac.sub (a b : Frac) : Frac := a.add b.neg

def Frac.mul (a b : Frac) : Frac := Frac.mk' (a.num * b.num) (a.den * b.den)

/-- a / b; division by 0 gives 0, which no caller meets (two evaluations never share an instant, R92). -/
def Frac.div (a b : Frac) : Frac :=
  if b.num < 0 then Frac.mk' (-(a.num * b.den)) (a.den * b.num.natAbs)
  else Frac.mk' (a.num * b.den) (a.den * b.num.natAbs)

def Frac.le (a b : Frac) : Bool := a.num * b.den ≤ b.num * a.den

/-- The nearest of lo, a, hi: clamp of R92. -/
def Frac.clamp (a lo hi : Frac) : Frac := if a.le lo then lo else if hi.le a then hi else a

/-- The integer nearest to num / den, ties to even. -/
def rneDiv (n : Int) (d : Nat) : Int :=
  let q := n / (d : Int)
  let r := n % (d : Int)
  if 2 * r < d then q
  else if 2 * r = d then (if q % 2 = 0 then q else q + 1)
  else q + 1

def Frac.round (a : Frac) : Int := rneDiv a.num a.den

/-! Binary64. -/

def F64.zero : F64 := ⟨0, 0⟩

/-- Rounds m × 2^e, with `sticky` for a non-zero rest below m, to 53 bits, ties to even; exponents end at −1074. -/
def F64.roundMag (m : Nat) (e : Int) (sticky : Bool) : Nat × Int :=
  if m = 0 then (0, 0)
  else
    let l : Int := (Nat.log2 m : Int) + 1
    let e' : Int := max (e + l - 53) (-1074)
    let r := e' - e
    if r ≤ 0 then (m * 2 ^ (-r).toNat, e')
    else
      let k := r.toNat
      let q := m / 2 ^ k
      let rem := m % 2 ^ k
      let half := 2 ^ (k - 1)
      let q' := if rem > half || (rem = half && (sticky || q % 2 = 1)) then q + 1 else q
      if q' = 0 then (0, 0)
      else if q' = 2 ^ 53 then (2 ^ 52, e' + 1)
      else (q', e')

def F64.round (m : Int) (e : Int) : F64 :=
  let r := F64.roundMag m.natAbs e false
  ⟨if m < 0 then -(r.1 : Int) else r.1, r.2⟩

/-- An integer as binary64, rounded. -/
def F64.ofInt (n : Int) : F64 := F64.round n 0

/-- n × 2^k as binary64, rounded. -/
def F64.ofScaled (n : Int) (k : Int) : F64 := F64.round n k

def F64.neg (a : F64) : F64 := ⟨-a.m, a.e⟩

def F64.abs (a : F64) : F64 := ⟨(a.m.natAbs : Int), a.e⟩

def F64.add (a b : F64) : F64 :=
  let e := min a.e b.e
  F64.round (a.m * 2 ^ (a.e - e).toNat + b.m * 2 ^ (b.e - e).toNat) e

def F64.sub (a b : F64) : F64 := a.add b.neg

def F64.mul (a b : F64) : F64 := F64.round (a.m * b.m) (a.e + b.e)

/-- a / b; the quotient by 0 is open. -/
def F64.div (a b : F64) : F64 :=
  if b.m = 0 then Config.divByZero a
  else if a.m = 0 then F64.zero
  else
    let num := a.m.natAbs * 2 ^ 120
    let d := b.m.natAbs
    let r := F64.roundMag (num / d * 2 + (if num % d = 0 then 0 else 1)) (a.e - b.e - 121) false
    ⟨if (a.m < 0) != (b.m < 0) then -(r.1 : Int) else r.1, r.2⟩

/-- The integer square root, one bit of the root a step. -/
def isqrtBits : Nat → Nat → Nat → Nat
  | 0, _, r => r
  | k + 1, n, r =>
    let c := r + 2 ^ k
    isqrtBits k n (if c * c ≤ n then c else r)

def isqrt (n : Nat) : Nat := isqrtBits (Nat.log2 n / 2 + 1) n 0

/-- The square root; of a negative number, 0 (no expression of R258 takes one). -/
def F64.sqrt (a : F64) : F64 :=
  if a.m ≤ 0 then F64.zero
  else
    let k : Nat := if a.e % 2 = 0 then 128 else 127
    let n := a.m.natAbs * 2 ^ k
    let s := isqrt n
    let r := F64.roundMag (s * 2 + (if s * s = n then 0 else 1)) ((a.e - k) / 2 - 1) false
    ⟨r.1, r.2⟩

/-- The exact sign of a − b. -/
def F64.cmp (a b : F64) : Int :=
  let e := min a.e b.e
  (a.m * 2 ^ (a.e - e).toNat - b.m * 2 ^ (b.e - e).toNat).sign

def F64.lt (a b : F64) : Bool := F64.cmp a b < 0
def F64.le (a b : F64) : Bool := F64.cmp a b ≤ 0
def F64.sign (a : F64) : Int := a.m.sign
def F64.half (a : F64) : F64 := F64.mul a ⟨1, -1⟩
def F64.max (a b : F64) : F64 := if a.lt b then b else a
def F64.min (a b : F64) : F64 := if b.lt a then b else a

/-- rne(a × 2^k), an integer (R251). -/
def F64.toIntScaled (a : F64) (k : Int) : Int :=
  let e := a.e + k
  if 0 ≤ e then a.m * 2 ^ e.toNat else rneDiv a.m (2 ^ (-e).toNat)

/-- The value as an exact rational. -/
def F64.toFrac (a : F64) : Frac :=
  if 0 ≤ a.e then ⟨a.m * 2 ^ a.e.toNat, 1⟩ else Frac.mk' a.m (2 ^ (-a.e).toNat)

/-- The number a binary64 bit pattern encodes; infinities and NaN are refused before they are stored (R57). -/
def F64.ofBits (w : Nat) : F64 :=
  let f : Nat := w % 2 ^ 52
  let x : Nat := w / 2 ^ 52 % 2 ^ 11
  let m : Nat := if x = 0 then f else f + 2 ^ 52
  let e : Int := if x = 0 then -1074 else (x : Int) - 1075
  ⟨if w / 2 ^ 63 % 2 = 1 then -(m : Int) else m, e⟩

/-- The binary64 bit pattern of a rounded number. -/
def F64.toBits (a : F64) : Nat :=
  let r := F64.roundMag a.m.natAbs a.e false
  let s := if a.m < 0 then 2 ^ 63 else 0
  if r.1 < 2 ^ 52 then s + r.1 else s + (r.2 + 1075).toNat * 2 ^ 52 + (r.1 - 2 ^ 52)

/-- The number a binary32 bit pattern encodes. -/
def F64.ofBits32 (w : Nat) : F64 :=
  let f : Nat := w % 2 ^ 23
  let x : Nat := w / 2 ^ 23 % 2 ^ 8
  let m : Nat := if x = 0 then f else f + 2 ^ 23
  let e : Int := if x = 0 then -149 else (x : Int) - 150
  ⟨if w / 2 ^ 31 % 2 = 1 then -(m : Int) else m, e⟩

/-! Block floating point. -/

def Bfp.zero : Bfp := ⟨0, -128⟩

/-- The dictionary form of R57: mantissa in [31:0], exponent in [39:32]. -/
def Bfp.toBits (d : Bfp) : Nat := (d.m % 2 ^ 32).toNat + (d.e % 2 ^ 8).toNat * 2 ^ 32

/-- The datum that a dictionary value carries, not yet normalised. -/
def Bfp.ofBits (w : Nat) : Bfp :=
  let m : Int := ((w % 2 ^ 32 : Nat) : Int)
  let e : Int := ((w / 2 ^ 32 % 2 ^ 8 : Nat) : Int)
  ⟨if m ≥ 2 ^ 31 then m - 2 ^ 32 else m, if e ≥ 128 then e - 256 else e⟩

/-- A term of R218: an integer p with a scale; a product term has 54 fraction bits below its scale, a datum term 31. -/
structure BfpTerm where
  isProd : Bool
  p      : Int
  scale  : Int
  deriving DecidableEq, Repr

/-- prod(c, ec, d). -/
def bfpProd (c ec : Int) (d : Bfp) : BfpTerm := ⟨true, c * d.m, ec + d.e⟩

/-- data(m, e). -/
def bfpData (d : Bfp) : BfpTerm := ⟨false, d.m, d.e⟩

/-- neg(t). -/
def bfpNeg (t : BfpTerm) : BfpTerm := { t with p := -t.p }

/-- p shifted right by k with an arithmetic shift. -/
def asr (p : Int) (k : Nat) : Int := p / 2 ^ k

/-- rne(a, r): a / 2^r to the nearest integer, ties to even, and 0 for r ≥ 64. -/
def rneShift (a : Int) (r : Nat) : Int := if r ≥ 64 then 0 else rneDiv a (2 ^ r)

/-- The contribution of one term at the accumulator's scale E. -/
def bfpAlign (E : Int) (t : BfpTerm) : Int :=
  let d := (E - t.scale).toNat
  if t.isProd then (if d = 0 then t.p * 2 else asr t.p (min (d - 1) 63))
  else if d ≤ 24 then t.p * 2 ^ (24 - d) else asr t.p (min (d - 24) 63)

/-- accumulate(terms): the accumulator and its exponent; (0, 0) is ZERO. -/
def bfpAccumulate (ts : List BfpTerm) : Int × Int :=
  match ts.filter fun t => t.p ≠ 0 with
  | [] => (0, 0)
  | t :: rest =>
    let E := rest.foldl (fun m u => max m u.scale) t.scale
    ((t :: rest).foldl (fun a u => a + bfpAlign E u) 0, E)

/-- to_exp(acc, E, et). -/
def bfpToExp (acc E et : Int) : Int :=
  let r := et - E + 24
  if r ≤ 0 then acc * 2 ^ (-r).toNat else rneShift acc r.toNat

/-- norm(acc, E), with EXP_SAT. -/
def bfpNorm (acc E : Int) : Bfp × Bool :=
  if acc = 0 then (Bfp.zero, false)
  else
    let mag : Nat := if acc > 0 then acc.toNat else (-acc - 1).toNat
    let L : Int := if mag = 0 then -1 else (Nat.log2 mag : Int)
    let e := E - 24 + (L - 30)
    let m := bfpToExp acc E e
    let me : Int × Int :=
      if m = 2 ^ 31 then (2 ^ 30, e + 1) else if m = -2 ^ 30 then (-2 ^ 31, e - 1) else (m, e)
    if me.2 > 127 then (⟨if acc > 0 then 0x7FFFFFFF else -0x80000000, 127⟩, true)
    else if me.2 < -127 then (Bfp.zero, false)
    else (⟨me.1, me.2⟩, false)

/-- The exact sign of a − b (R222). -/
def bfpCmp (a b : Bfp) : Int :=
  let e := min a.e b.e
  (a.m * 2 ^ (a.e - e).toNat - b.m * 2 ^ (b.e - e).toNat).sign

/-- A written BFP value normalised by an exact left shift; none where the exponent would fall below −127 (R216). -/
def bfpStore (d : Bfp) : Option Bfp :=
  if d.m = 0 then some Bfp.zero
  else
    let mag : Nat := if d.m > 0 then d.m.toNat else (-d.m - 1).toNat
    let L : Nat := if mag = 0 then 0 else Nat.log2 mag + 1
    let k := 31 - L
    if d.e - k < -127 then none else some ⟨d.m * 2 ^ k, d.e - k⟩

end Sys2Proof
end

