-- ==== Sys2Proof/Machine/Map.lean ====
section
/-! DEFINITION. Finite maps as lists of key and value pairs: the plain data behind every table of the state. A key that is not
listed holds the map's reset value. -/

namespace Sys2Proof.Machine

/-- A map from numbers, as a list of pairs in rising key order. -/
abbrev Map (α : Type) := List (Nat × α)

/-- The value at a key, or the value of an unlisted key. -/
def getAt {α : Type} (d : α) : Map α → Nat → α
  | [], _ => d
  | (j, a) :: t, k => if j = k then a else getAt d t k

/-- The map with one value changed. -/
def setAt {α : Type} : Map α → Nat → α → Map α
  | [], k, a => [(k, a)]
  | (j, b) :: t, k, a =>
    if k = j then (k, a) :: t
    else if k < j then (k, a) :: (j, b) :: t
    else (j, b) :: setAt t k a

/-- The map with one value updated. -/
def updAt {α : Type} (d : α) (m : Map α) (k : Nat) (f : α → α) : Map α :=
  setAt m k (f (getAt d m k))

/-- Keys strictly rising: the canonical form. -/
def Map.wf {α : Type} : Map α → Bool
  | [] => true
  | [_] => true
  | (j, _) :: (k, b) :: t => decide (j < k) && Map.wf ((k, b) :: t)

/-- Every listed value changed. -/
def mapVals {α : Type} (f : Nat → α → α) (m : Map α) : Map α :=
  m.map fun p => (p.1, f p.1 p.2)

end Sys2Proof.Machine
end

