-- ==== Sys2Proof/Machine/State.lean ====
section
/-! DEFINITION. The state of the MH2560 as plain data: one register store for every dictionary entry whose home it is, one record
for each piece of state that is no dictionary entry, the queue of waiting commands, and the log of what has left the module. -/

namespace Sys2Proof.Machine

/-- Why the machine stops with a fault. No meaning of this model raises one: every command has an effect in every state. -/
inductive Fault where
  /-- Reserved for a state the spec does not describe; raised by nothing. Safe: a stop never proves a false claim. -/
  | none
  deriving DecidableEq, Repr

/-- Why a command has no meaning. -/
inductive Refusal where
  /-- Raised by a dispatch arm whose command has no meaning yet. Safe: a refusal proves no false claim. -/
  | notModelled (mnemonic : String)
  deriving DecidableEq, Repr

/-! Chapter 2: the dictionary. -/

/-- An open DAZ session on an uplink (R82), its role (R63) and the TIM clock of its last request (R73). -/
structure Session where
  uplink      : Nat
  role        : Role
  lastRequest : Nat
  deriving DecidableEq, Repr

/-- A segmented write in progress (R79): client, entry, bytes so far and the TIM clock of the last segment. -/
structure Transfer where
  client : ClientId
  index  : Nat
  sub    : Nat
  bytes  : List Byte
  last   : Nat
  deriving DecidableEq, Repr

/-- One element of a write: entry and value. -/
structure Elem where
  index : Nat
  sub   : Nat
  val   : Val
  deriving DecidableEq, Repr

/-- A request with RWC elements, answered when its line-cycle boundary comes (R60, R78): the tick from which a boundary may apply it, and
whether a scheduled write brought it (R80). -/
structure BoundaryWrite where
  client : ClientId
  txn    : Nat
  op     : Nat
  elems  : List Elem
  from_  : Nat
  status : Nat
  scheduled : Bool
  deriving DecidableEq, Repr

/-- A watch (R80) with the bytes last sent for it. -/
structure Watch where
  client : ClientId
  txn    : Nat
  index  : Nat
  sub    : Nat
  last   : List Byte
  deriving DecidableEq, Repr

/-- The readiness word's fields of one function (R67). -/
structure Ready where
  state : Nat
  step  : Nat
  cause : Nat
  deriving DecidableEq, Repr

/-- The dictionary server: sessions, segmented transfers, transfers ended by the time-out of R74 whose client has not heard of it,
requests that wait for a line-cycle boundary, the values latched at the last one where they differ from the present value (R58),
watches, the readiness of the functions in the order of R66, and the state field of each die identity word (R51). -/
structure Dict where
  sessions  : Map (Option Session)
  transfers : List Transfer
  abandoned : List (ClientId × Nat × Nat)
  atLc      : List BoundaryWrite
  latched   : Map Val
  watches   : List Watch
  ready     : Map Ready
  die       : Map Nat
  deriving DecidableEq, Repr

/-! Chapter 3: ticks, time bases, Leads and actions. -/

/-- The flywheel copy of a receiving die (R33): tick number, and value and increment of TB0 to TB7 as last corrected. -/
structure Flywheel where
  tick : Nat
  tbs  : List (Nat × Nat)
  deriving DecidableEq, Repr

/-- Classes of events that are stamped in software (R99). -/
inductive SoftClass where
  | uplinkDaz
  | mailboxDaz
  | henvyControl
  | tunnelledTiming
  deriving DecidableEq, Repr

/-- A software stamp (R99): its event, the tick and the offset in ns at which its interrupt was taken, and the declared uncertainty in
ns. -/
structure SoftStamp where
  cls    : SoftClass
  tick   : Nat
  offset : Nat
  around : Nat
  deriving DecidableEq, Repr

/-- What a window says of a software stamp (R129). -/
inductive WindowResult where
  | inside
  | outside
  | edge
  deriving DecidableEq, Repr

/-- The tick and the line cycle (R83 to R88), and the timing reference (R26). `lcDone` is the tick number of the last line-cycle
boundary taken; `lcPending` is a written length with the tick from which a boundary may apply it; `fly` holds the flywheel copies of
CX, NA, NB and FX (R33) in the order of OD 1010; `soft` holds the software stamps of the present tick and `softLast` the last one with
its Lead positions and their uncertainties, and `results` what the program's windows said of it. -/
structure Clock where
  timClk     : Nat
  tick       : Nat
  lcStarted  : Bool
  lcDone     : Option Nat
  lcPending  : Option (Nat × Nat)
  refWaiting : Bool
  refSwitch  : Bool
  paddockTrims : Nat
  fly        : Map Flywheel
  soft       : List SoftStamp
  softLast   : Option (SoftStamp × List (Nat × Nat))
  results    : List WindowResult
  deriving DecidableEq, Repr

/-- States of R91. -/
inductive TbState where
  | free
  | acquiring
  | locked
  | holdover
  deriving DecidableEq, Repr

/-- A time transmitter heard by Announce (R91, R97): its identity and the port, messages counted, its grandmaster, and its rank under
the best master clock algorithm (the smaller the better). -/
structure Foreign where
  id    : Nat
  port  : Nat
  count : Nat
  gm    : Nat
  rank  : Nat
  deriving DecidableEq, Repr

/-- A time base (R89 to R92): value, its value at the last base-tick boundary, and increment in units of 2^-32 ns, servo state, the
frequency part f and correction c of the law, the last offset and instant, whether the next evaluation is a first one, the last 16
frequency parts (newest first), the lock counters, the time transmitters heard, the one in use with its port, and when its Sync and
Announce messages were last heard with their intervals. -/
structure TimeBase where
  val          : Nat
  atTick       : Nat
  inc          : Nat
  st           : TbState
  modePending  : Option Nat
  hold         : Bool
  stepDenied   : Bool
  f            : Frac
  c            : Frac
  lastOffset   : Int
  lastInstant  : Nat
  first        : Bool
  freqs        : List Frac
  inCount      : Nat
  beyond       : Nat
  masters      : List Foreign
  transmitter  : Option (Nat × Nat)
  logSync      : Int
  lastSync     : Nat
  lastAnnounce : Nat
  logAnnounce  : Int
  deriving DecidableEq, Repr

/-- A PTP port (R97): path delay in 2^-16 ns, the sequence number of the request under way, and messages sent. -/
structure PtpPort where
  pathDelay : Nat
  measured  : Bool
  seq       : Nat
  waiting   : Bool
  syncSeq   : Nat
  annSeq    : Nat
  deriving DecidableEq, Repr

/-- A sample of a station or Henvy Lead (R104): position in units of 2^-32 lu, velocity and instant in 2^-32 ns. -/
structure LeadPoint where
  pos  : Int
  vel  : Int
  time : Int
  deriving DecidableEq, Repr

/-- The velocity change that a virtual Lead follows (R105): velocity and acceleration at its start, base ticks run, and the bit patterns of
the commanded velocity and the limits it was planned under. -/
structure VirtualPlan where
  v0   : F64
  a0   : F64
  run  : Nat
  cmd  : Nat
  acc  : Nat
  jerk : Nat
  deriving DecidableEq, Repr

/-- A Lead (R101 to R112). Positions are in 2^-32 lu modulo 2^96, the velocity in 2^-32 lu per base tick. `velNew` is a velocity
formed since the last boundary; `jumpPending` is error to be added as a jump, `refPending` a re-reference to be added with its frame,
`resumeDue` a resume; `spread` is error still to be spread, over `spreadTicks` more ticks once the line cycle it waits for has begun;
`corr` sums every such addition, `corrs` is its value at each sample of `hist`. -/
structure Lead where
  pos         : Nat
  vel         : Int
  velNew      : Option Int
  st          : Nat
  reversed    : Bool
  jumped      : Bool
  overspeed   : Bool
  missing     : Nat
  hiPrev      : Nat
  lastDir     : Int
  jumpPending : Int
  refPending  : Int
  resumeDue   : Bool
  jumpBy      : Int
  spread      : Int
  spreadTicks : Nat
  spreadWait  : Bool
  corr        : Int
  corrs       : List Int
  slewLeft    : Int
  slewDist    : Int
  acc         : F64
  plan        : Option VirtualPlan
  velF        : F64
  started     : Bool
  sampled     : Bool
  faulted     : Bool
  origin      : Int
  rawCount    : Nat
  count       : Int
  last        : Option LeadPoint
  hist        : List (Nat × Nat)
  sinceTick   : Nat
  silentFrom  : Nat
  pred        : Nat
  deriving DecidableEq, Repr

/-- What an action is compared against (R113). -/
inductive ActionKind where
  | nextBoundary
  | tb (n : Nat) (target : Nat)
  | lead (n : Nat) (target : Nat)
  deriving DecidableEq, Repr

/-- What an action's executor does (R113, R114): a scheduled dictionary write, a task release, a converter trigger, the end of
a recipe step, an edge of PPS_OUT, a PWM pulse, an edge of a
field output; `who` is the client and TRANSACTION of a scheduled write that waits for its answer. -/
inductive Work where
  | writes (client : ClientId) (txn op : Nat) (elems : List Elem)
  | taskRelease (i : Nat)
  | trigger (t : Nat) (who : Option (ClientId × Nat))
  | stepEnd (s : Nat)
  | pps (level : Bool)
  | pulse (ch : Nat) (who : Option (ClientId × Nat))
  | fieldEdge (o : Nat) (level : Bool) (who : Option (ClientId × Nat))
  deriving DecidableEq, Repr

/-- An armed action (R113) with the tick in which it was accepted, its place in the order of acceptance, and the laps that NEXT_LAP
moved its target by (R119). -/
structure Action where
  id       : Nat
  kind     : ActionKind
  backward : Bool
  attr     : Nat
  repeats  : Bool
  work     : Work
  accepted : Nat
  status   : Nat
  laps     : Nat
  deriving DecidableEq, Repr

/-- An action whose crossing was found (R115): the tick and the offset in ns at which it fires. -/
structure Due where
  action : Action
  tick   : Nat
  offset : Nat
  deriving DecidableEq, Repr

/-- The action table: armed actions in order of acceptance, actions due, and the next identity. -/
structure Actions where
  armed  : List Action
  due    : List Due
  nextId : Nat
  deriving DecidableEq, Repr

/-- A link monitor of a receiving die (R30 to R33): ticks without a good flit, whether one came in this tick, whether the item
of this tick is invalid, whether the link is declared failed, errors counted, flits of bulk traffic sent again, whether any
tick-critical flit was ever reported for it, copies with a bad CRC, and the tick in which it was declared failed. -/
structure LinkMon where
  noGood  : Nat
  good    : Bool
  invalid : Bool
  failed  : Bool
  errors  : Nat
  bulkRetries : Nat
  seen    : Bool
  crc     : Nat
  failAt  : Nat
  deriving DecidableEq, Repr

/-! Chapter 4: the line bus. -/

/-- A declared station (R134 to R170): state of R167 and the state as CX consumes it (R169), run of MISSED trains, RESYNC answers,
the fresh train, the first train whose answers count, identity record, the latest good input copy at the engines, inputs that CX
consumes at the next line-cycle boundary (the inputs if new, STALE, LATE, state), the inputs in use with their flags, the outputs
that CX supplies, the outputs last carried by a train with CX outputs, the trains that carried OUT_VALID for it (newest first), and
the mailbox: bytes of the message coming in, whole messages that CX has not served, the fragment last accepted, messages sent, bytes of
the present one acknowledged, and SEQ and length of the outbound fragment. -/
structure Station where
  st        : Nat
  cst       : Nat
  missedRun : Nat
  acks      : Nat
  fresh     : Option Nat
  since     : Nat
  identity  : Option Identity
  latest    : List Byte
  pend      : Option (Option (List Byte) × Bool × Bool × Nat)
  inputs    : List Byte
  hasInputs : Bool
  stale     : Bool
  late      : Bool
  fault     : Bool
  reinActive : Bool
  outputs   : List Byte
  lastOut   : List Byte
  sent      : List Nat
  mbxIn     : List Byte
  mbxMsgs   : List (List Byte)
  mbxAck    : Nat
  mbxDone   : Nat
  mbxOff    : Nat
  mbxSeq    : Nat
  mbxLen    : Nat
  deriving DecidableEq, Repr

/-- A ring (R141, R157, R177, R188, R190): state, slot layout as (station, frame, offset) with its frame count, stations counted by
NA and by NB, the engine that acquires while the ring is not split, whether it is split, the line cycle H of a heal with the bounds
of the split, the ring delay T_AB in 1/16 ns, the number of the last measurement, its TIM clock, whether its DELAY_READ frames are due,
and whether a station that resyncs wants one (R160); segments that link at another speed (R132), segment p lying before position p;
whether a rejoined engine still has to heal the ring and whether the heal under way is that one (R187); the TIM clocks of H, of the
earliest next heal, and of the last DISCOVER to the looped stations (R190). -/
structure Ring where
  st        : Nat
  layout    : List (Nat × Nat × Nat)
  frames    : Nat
  countNa   : Option Nat
  countNb   : Option Nat
  cmd       : Engine
  split     : Bool
  healAt    : Option Nat
  healBounds : Nat × Nat
  tab       : Option Nat
  measNo    : Nat
  measClk   : Nat
  readDue   : Bool
  measDue   : Bool
  badSeg    : List Nat
  joining   : Bool
  healJoin  : Bool
  healClk   : Nat
  healFrom  : Nat
  loopAsk   : Nat
  deriving DecidableEq, Repr

/-- A frame of the acyclic part that waits for its turn (R136): type, CLOSE, what it is about (a frame that says the same again takes
its place), BASE, the measurement number of a DELAY frame, COUNT, and the bytes after the header. -/
structure AcFrame where
  typ   : Nat
  close : Bool
  key   : Nat
  base  : Nat
  no    : Option Nat
  count : Nat
  body  : List Byte
  deriving DecidableEq, Repr

/-- What an engine has received of one copy of one train (R151, R182): train, ORIGIN, indexes of its good frames, positions that answered,
and the position that turned it. -/
structure CopyIn where
  train  : Nat
  origin : Engine
  frames : List Nat
  heard  : List Nat
  turned : Option Nat
  deriving DecidableEq, Repr

/-- The rails of one bound (R179): the true and the complement word, and the base ticks for which they have not inverted. -/
structure Rail where
  word  : BitVec 10
  comp  : BitVec 10
  still : Nat
  deriving DecidableEq, Repr

/-- A path engine (R176 to R190): state, positions held on each ring counted from its own port, those latched for the train, its reach, the
tick of its last release on each ring with the positions then held, the rails of its bounds, the copies of the latest trains it received,
REIN_SEQ of each ring, whether it is bringing up for a rejoin and whether it has passed that bring-up. For each ring: the wire bytes of
acyclic frames in the present line cycle, the frames that wait, REIN frames sent within the present train and whether one waits for its
end (R147), and the position from which the next DISCOVER looks (R167). `fcsGood` and `fcsBad` say what FCSs frames of the present train
showed, `badRun` counts the trains before it in which every frame failed (R184). -/
structure PathEngine where
  st        : Nat
  held      : Map Nat
  latched   : Map Nat
  reach     : Map Nat
  released  : Map (Option (Nat × Nat))
  rails     : Map Rail
  copies    : Map (List CopyIn)
  reinSeq   : Map Nat
  rejoining : Bool
  broughtUp : Bool
  acUsed    : Map Nat
  acWait    : Map (List AcFrame)
  reinSent  : Map Nat
  reinWait  : Map Bool
  discNext  : Map Nat
  fcsGood   : Bool
  fcsBad    : Bool
  badRun    : Nat
  deriving DecidableEq, Repr

/-- The Rein field's pins as counted by NA and NB (bits 0 and 1), and as counted by AX. -/
structure Rein where
  pins    : Nat
  pinsAx  : Nat
  changed : Bool
  deriving DecidableEq, Repr

/-! Chapter 5: coast and Henvy. -/

/-- A coast record (R193) with the extrapolation state of R194; `live` says that an engine formed its last setpoint. Positions are
Q32.32. -/
structure CoastRec where
  valid    : Bool
  station  : Nat
  offset   : Nat
  format   : Nat
  mode     : Nat
  lead     : Nat
  num      : Int
  den      : Nat
  stopDec  : Nat
  stopJerk : Nat
  tag      : Nat
  pos      : Int
  vel      : F64
  acc      : F64
  stopping : Bool
  stoppedBy : Bool
  posRef   : Int
  leadRef  : Nat
  s        : List Int
  stopBit  : Bool
  leadAt   : Nat
  live     : Bool
  deriving DecidableEq, Repr

/-- Coast (R191 to R198): whether it runs, entry tick and instant, whether the limit was reached, whether OUT_VALID is cleared,
and the announced boundaries e and h. -/
structure Coast where
  active     : Bool
  entryTick  : Nat
  limitHit   : Bool
  outCleared : Bool
  announced  : Option Nat
  returnAt   : Option Nat
  recs       : Map CoastRec
  stopAll    : Bool
  deriving DecidableEq, Repr

/-- A message of Henvy, or a PRP supervision frame; the spec gives no layout of what follows byte 16 (R200, R203). -/
inductive UpMsg where
  /-- MEMBER: module number, digest, domains, CANDIDATE, REFUSED. -/
  | member (number digest : Nat) (domains : List Nat) (candidate refused : Bool)
  /-- STOP: object bits and sequence number. -/
  | stop (objects seq : Nat)
  /-- LEAD_SAMPLE: Lead, LEADPOS, LEADVEL, state and sample instant. -/
  | leadSample (n pos vel st instant : Nat)
  | supervision
  deriving DecidableEq, Repr

/-- A frame for an uplink (R200, R203): priority, the bytes from the source address to byte 16 of the message, the length of the whole
frame, which no rule gives, and the message. -/
structure UpFrame where
  prio : Nat
  head : List Byte
  len  : Nat
  msg  : UpMsg
  deriving DecidableEq, Repr

/-- An uplink (R200 to R202): frames that wait in order of arrival, the rest of a preempted frame with its bytes, the instant in the present
base tick from which the wire is free (0.2 ns), and the TIM clock at which a frame last came in on it. -/
structure Uplink where
  queue  : List UpFrame
  part   : Option (UpFrame × Nat)
  wire   : Nat
  lastRx : Nat
  deriving DecidableEq, Repr

/-- The PRP node (R200): the sequence number last sent, nodes heard with the TIM clock of their last frame (latest first), and copies accepted
as (node, sequence number, TIM clock). -/
structure Prp where
  seq   : Nat
  nodes : List (Nat × Nat)
  seen  : List (Nat × Nat × Nat)
  deriving DecidableEq, Repr

/-- Henvy (R47, R203 to R205): this module's number, the TIM clock at which candidacy began, when STOP and MEMBER messages of each
module were last received, and the sequence number of STOP. -/
structure Henvy where
  number   : Nat
  since    : Nat
  stopSeen : Map (Option Nat)
  members  : Map (Option Nat)
  stopSeq  : Nat
  deriving DecidableEq, Repr

/-! Chapter 6: control channels and traces. -/

/-- States of a section (R215): mantissas and shared exponent. -/
structure SecState where
  m1 : Int
  m2 : Int
  es : Int
  deriving DecidableEq, Repr

/-- An armed commit (R238, R239): target, ZERO_STATES, and the tick from which it may swap. -/
structure Commit where
  target : Nat
  zero   : Bool
  from_  : Nat
  client : ClientId
  txn    : Nat
  deriving DecidableEq, Repr

/-- A control channel (R229 to R245): state code, status flags, section states, the last x, u and y, the output in force, the
one to come with its tick and raw form, the unit and phase of its placement, last good source values, and what is latched for the next sample boundary. -/
structure Chan where
  st        : Nat
  limHi     : Bool
  limLo     : Bool
  frozen    : Bool
  stale     : Bool
  ovrIn     : Bool
  expSat    : Bool
  outSat    : Bool
  resumed   : Bool
  rein      : Bool
  overrun   : Bool
  staleRun  : Nat
  secs      : Map SecState
  x         : Bfp
  u         : Bfp
  y         : Bfp
  outs      : Map Bfp
  inForce   : Bfp
  toCome    : Option (Nat × Bfp × Nat)
  lastA     : Option Bfp
  lastB     : Option Bfp
  enableAt  : Bool
  disableAt : Bool
  latched   : Bool
  rampDone  : Bool
  faultDue  : Bool
  resumeDue : Bool
  commits   : List Commit
  placed    : Bool
  unit      : Nat
  phase     : Nat
  deriving DecidableEq, Repr

/-- A cluster trace (R241 to R243): state code, the words captured (newest first), words still to capture, the probes'
decimation counters and previous nodes, and the trigger mark to set. -/
structure Trace where
  st       : Nat
  absent   : Bool
  words    : List Nat
  left     : Nat
  decim    : Map Nat
  prev     : Map (Option Bfp)
  prevFlag : Map Bool
  markTrig : Bool
  out      : List Nat
  deriving DecidableEq, Repr

/-! Chapter 7: motion. -/

/-- One phase of a jerk-limited curve (R258): duration in base ticks and jerk. -/
structure Seg where
  t : F64
  j : F64
  deriving DecidableEq, Repr

/-- A profile (R258): the anchor, the start velocity and acceleration, its phases, the base ticks run since its start, and its
exact target where it has one. -/
structure Profile where
  anchor : Int
  v0     : F64
  a0     : F64
  segs   : List Seg
  run    : Nat
  target : Option Int
  vEnd   : F64
  toLimit : Bool
  deriving DecidableEq, Repr

/-- Gearing (R269): Lead, ratio and reference pair. -/
structure Gear where
  lead : Nat
  num  : Int
  den  : Nat
  pRef : Int
  lRef : Nat
  deriving DecidableEq, Repr

/-- A quintic ramp (R270, R272) against a Lead: `v0` is the velocity it starts from, `rel` says that Y follows p0 (GEAR_IN without AT),
`held` that p0 is the setpoint at a crossing of L0 still to come. -/
structure Ramp where
  lead   : Nat
  l0     : Nat
  dir    : Int
  span   : Nat
  p0     : Int
  k0     : F64
  num    : Int
  den    : Nat
  y      : Int
  out    : Bool
  begun  : Bool
  attr   : Nat
  v0     : F64
  rel    : Bool
  held   : Bool
  deriving DecidableEq, Repr

/-- A ratio change that waits for its Lead position, or its blend under way (R271). -/
structure RatioChange where
  x     : Nat
  dir   : Int
  num   : Int
  den   : Nat
  blend : Bool
  span  : Nat
  begun : Bool
  posX  : Int
  attr  : Nat
  deriving DecidableEq, Repr

/-- An axis command waiting for its sample boundary (R253, R257). -/
structure AxisOrder where
  op     : Nat
  cmd    : AxisCmd
  client : ClientId
  txn    : Nat
  daz    : Nat
  direct : Bool
  deriving DecidableEq, Repr

/-- An axis (R249 to R283): state and cause codes, status flags, position in 2^-32 counts, velocity and acceleration in counts
per base tick, the motion in progress, what is latched for the next sample boundary, and the target instant of its last setpoint
(R253). `resumeDue` stands from the return of R278 to the next sample, which sets RESUMED, `resetDue` from a RESET to the first good
inputs (R281), `failAt` from the loss of the unit to the next boundary (R254); `evented` is the tick whose events were taken, and
`discards` counts latched enables discarded (R264). -/
structure Axis where
  st          : Nat
  cause       : Nat
  causes      : List Nat
  atTarget    : Bool
  softLimit   : Bool
  late        : Bool
  gearStep    : Bool
  resumed     : Bool
  resumeDue   : Bool
  staleAct    : Bool
  syncLost    : Bool
  gearOver    : Bool
  overrun     : Bool
  rearmDisc   : Bool
  p           : Int
  v           : F64
  a           : F64
  prof        : Option Profile
  velHold     : Bool
  gear        : Option Gear
  ramp        : Option Ramp
  ratio       : Option RatioChange
  gearOut     : Option Ramp
  orders      : List AxisOrder
  sp          : Option Int
  enableAt    : Bool
  disableAt   : Bool
  dropAt      : Bool
  disabledIn  : Bool
  actual      : Int
  actualVel   : Int
  placed      : Bool
  unit        : Nat
  phase       : Nat
  reinSeen    : Bool
  toCome      : Option (Nat × Int)
  target      : Nat
  resetDue    : Bool
  failAt      : Bool
  evented     : Option Nat
  discards    : Nat
  deriving DecidableEq, Repr

/-- A group command waiting for its members' sample boundary (R267, R284). -/
structure GroupOrder where
  op      : Nat
  targets : List Int
  client  : ClientId
  txn     : Nat
  daz     : Nat
  direct  : Bool
  deriving DecidableEq, Repr

/-- An interpolation group (R266 to R268): state and cause codes, the path's profile in λ, starts and distances of the members,
limits, and flags. λ is held in 2^-32 as positions are. -/
structure Group where
  st       : Nat
  cause    : Nat
  pathLeft : Bool
  vMember  : Nat
  aMember  : Nat
  starts   : List Int
  dists    : List Int
  prof     : Option Profile
  lam      : F64
  lamV     : F64
  lamA     : F64
  stopDec  : F64
  stopJerk : F64
  active   : List Nat
  stepTick : Option Nat
  orders   : List GroupOrder
  taken    : Nat
  deriving DecidableEq, Repr

/-! Chapter 8: local axes, PWM, encoders, capture. -/

/-- A PWM channel (R286 to R292): the duty its CX source last delivered, the duty of the last period start, the periods since it
left OFF, the high intervals of the last period in PWM clocks, the end of a pulse in PWM clocks and whether one runs, and whether
its loss action drives it low. -/
structure Pwm where
  source  : Int
  duty    : Int
  periods : Nat
  wave    : List (Nat × Nat)
  pulseTo : Nat
  high    : Bool
  lossOff : Bool
  deriving DecidableEq, Repr

/-- A limit or home input (R309): whether it is LATCHED, and the axis position and encoder count at the stamp. -/
structure InLatch where
  latched : Bool
  x       : Int
  count   : Int
  deriving DecidableEq, Repr

/-- Homing of a local axis (R311 to R314): phase (0 none, 1 search, 3 leave, 5 creep, 6 stop after the home edge, 7 stop after
DISTANCE, 9 at rest with its edge), initial search direction, present direction, start position, whether the search-bound limit
was met, what the inputs have reported since the last sample: failure result, search-bound latch, target found, re-arm, home edge, and
the tick from which x has deviated from the actual position (HARD_STOP). -/
structure Homing where
  phase    : Nat
  dir      : Int
  cur      : Int
  start    : Int
  boundMet : Bool
  fail     : Nat
  reverse  : Bool
  found    : Bool
  rearmed  : Bool
  homeSeen : Bool
  edge     : Option Int
  devSince : Option Nat
  deriving DecidableEq, Repr

/-- A local axis (R294 to R314). Positions are Q32.32 counts: x, the segment from sPrev to sNew begun at segTick, the setpoint
that comes into force next, steps emitted and waiting, the DIR level and the PWM clock of the next permitted step, the tick of the
last change of x, hold amplitude in use, HOMED, the three inputs (0 positive, 1 negative, 2 home), the coast record with its entry
tick, the phase references, and x with the encoder count at past base ticks (newest first). -/
structure LocalAxis where
  x        : Int
  sPrev    : Int
  sNew     : Int
  segTick  : Nat
  incoming : Option Int
  emitted  : Int
  lag      : Nat
  dirNeg   : Bool
  stepFrom : Nat
  lastMove : Nat
  holding  : Bool
  homed    : Bool
  latches  : Map InLatch
  coast    : CoastRec
  coasting : Bool
  coastAt  : Nat
  openLoop : Bool
  refA     : Int
  refB     : Int
  hist     : List (Nat × Int × Int)
  homing   : Homing
  deriving DecidableEq, Repr

/-- An encoder interface (R301 to R304): count, stamp of the last counted edge in PWM clocks, history by base tick, latched bits,
levels, last index with its stamp in PWM clocks, and SSI word. -/
structure Enc where
  count     : Int
  lastEdge  : Nat
  hist      : List (Nat × Int × Nat)
  indexSeen : Bool
  ssiErr    : Bool
  indexErr  : Bool
  quadErr   : Bool
  lineFault : Bool
  a         : Bool
  b         : Bool
  lastIndex : Option Int
  indexAt   : Nat
  ssiWord   : Option Nat
  faultTick : Bool
  atTick    : Int
  deriving DecidableEq, Repr

/-- An event of a capture line whose record is formed one base tick later (R306): tick, offset in 0.625 ns, edge, time-base
stamp, encoder count at the stamp and event number. -/
structure CapEvent where
  tick   : Nat
  offset : Nat
  rising : Bool
  stamp  : Nat
  count  : Int
  seq    : Nat
  deriving DecidableEq, Repr

/-- A capture line (R306 to R308). -/
structure Capture where
  fifo    : List (List Byte)
  waiting : List CapEvent
  seq     : Nat
  reref   : Option Nat
  deriving DecidableEq, Repr

/-! Chapter 11: analogue. Instants are in ADC clocks of 12.5 ns. -/

/-- A conversion request (R409, R411): its trigger, the input selection s, the scheduled hold instant H in ADC clocks, its class,
whether it restarts an aborted conversion, and its start S once it runs. -/
structure Req where
  trig      : Nat
  input     : Nat
  h         : Nat
  urgent    : Bool
  restarted : Bool
  start     : Nat
  deriving DecidableEq, Repr

/-- A converter (R405 to R415): the ADC clock its sequencer has reached, the running conversion, the normal queue in its order, the
urgent slot, the selected input with the instant of the last switch, REF_STARVED, FAILED, consecutive bad checks, check intervals
without a gap, the overrange of its cluster (start of the last OVR conversion, its input, and conversions still to mark), whether a
reference check runs, and when the last check or check interval ended. -/
structure Conv where
  clock     : Nat
  running   : Option Req
  normal    : List Req
  urgent    : Option Req
  sel       : Nat
  selT      : Nat
  starved   : Bool
  failed    : Bool
  bad       : Nat
  noGap     : Nat
  ovrStart  : Nat
  ovrInput  : Nat
  neighbour : Nat
  checking  : Bool
  checkedAt : Nat
  deriving DecidableEq, Repr

/-- An analogue input: its record (R413), the record released to CX, conversions, whether the previous conversion carried OVR, the
start of its last OVR conversion, the range in force, a range write waiting for its boundary, the ADC clock from which the range
applies, and the range before it. -/
structure AnaIn where
  rec_      : Nat
  atCx      : Nat
  seq       : Nat
  prevOvr   : Bool
  ovrAt     : Option Nat
  range     : Nat
  rangePend : Bool
  rangeAt   : Option Nat
  rangeOld  : Nat
  deriving DecidableEq, Repr

/-- A conversion trigger (R408, R409): its state code, H of its last event in ADC clocks, the tick from which it is armed, and the ADC
clock of the last TICK or PWM event that it saw. -/
structure Trig where
  st        : Nat
  lastH     : Nat
  fromTick  : Nat
  lastEvent : Nat
  deriving DecidableEq, Repr

/-- An analogue output (R417 to R421): code in force, the last valid code, the code its CX source last sent, whether it waits for a
first code after a mode change, its conditions, and the tick from which it has held its code. -/
structure AOut where
  code     : Int
  last     : Int
  source   : Int
  waiting  : Bool
  holding  : Bool
  safe     : Bool
  stopOver : Bool
  openF    : Bool
  shortF   : Bool
  overtemp : Bool
  holdFrom : Nat
  deriving DecidableEq, Repr

/-! Chapter 12: field I/O. -/

/-- A digital input (R431 to R434): the debounced level at FX before invert, the logical level that consumers read in the present tick, the
stamp of its last edge in 20 ns of the tick time base, and the flags of its status word. -/
structure DigIn where
  fx        : Bool
  cur       : Bool
  stamp     : Nat
  rising    : Bool
  stampLost : Bool
  wireBreak : Bool
  valid     : Bool
  deriving DecidableEq, Repr

/-- An edge accepted by FX that no frame has carried yet (R432). -/
structure DiEdge where
  input : Nat
  level : Bool
  stamp : Nat
  deriving DecidableEq, Repr

/-- An edge action on a field output (R436): the tick and the offset in ns at which FX applies it, and whether it is late (R438). -/
structure DoEdge where
  output : Nat
  level  : Bool
  tick   : Nat
  offset : Nat
  late   : Bool
  deriving DecidableEq, Repr

/-- A digital output (R436 to R444): OSTATE, commanded level, drive level, the last value of the level source with whether the next
value is a first one, the program's level, and its conditions. `onClk` is the TIM clock of its turn-on, `faultClk` that of its last
fault, `holdTick` the tick from which it is HOLDING. -/
structure DigOut where
  st        : Nat
  commanded : Bool
  drive     : Bool
  lastVal   : Bool
  first     : Bool
  progLevel : Bool
  holding   : Bool
  expired   : Bool
  stopOver  : Bool
  lateEdge  : Bool
  openLoad  : Bool
  lastFault : Nat
  consec    : Nat
  resetDue  : Bool
  onClk     : Nat
  faultClk  : Nat
  holdTick  : Nat
  deriving DecidableEq, Repr

/-- Supply conditions of an output group (R441); `okFrom` is the TIM clock since which the voltage has been above 10.0 V, `lastOn` that
of the last turn-on after MISSING cleared. -/
structure Supply where
  missing : Bool
  low     : Bool
  high    : Bool
  okFrom  : Option Nat
  lastOn  : Option Nat
  deriving DecidableEq, Repr

/-- The field link and FX (R432, R438, R442): edges not yet carried, whether the present inputs are STALE, levels received for the
next tick, level values and edge actions that FX applies at the next boundary, the actions of a frame that failed its check and
those carried over, stop pins as FX knows them, link loss with the good downlink frames since the last bad one, DECLARE sent and in
force, and the watchdog of R43. -/
structure Field where
  edges     : List DiEdge
  stale     : Bool
  arrived   : Option (List (Nat × Bool) × List DiEdge)
  levels    : Option (List Bool)
  actions   : List DoEdge
  repeats   : List DoEdge
  carried   : List DoEdge
  pins      : Nat
  linkLost  : Bool
  goodRun   : Nat
  sendDecl  : Bool
  declared  : Bool
  watchdog  : Bool
  typesDue  : Bool
  types     : Map Nat
  typeFrom  : Map Nat
  deriving DecidableEq, Repr

/-! Chapter 13: recording. -/

/-- A record that waits for the assembly of its tick (R454, R456): class, instance, tick and instant within it, value bytes. -/
structure RecItem where
  cls  : Nat
  inst : Nat
  tick : Nat
  off  : Nat
  val  : List Byte
  deriving DecidableEq, Repr

/-- A closed chunk (R464, R471): numbers, ticks, effort, raw and stored bytes, and the SSDs that hold it. -/
structure Chunk where
  seq    : Nat
  first  : Nat
  last   : Nat
  effort : Nat
  raw    : List Byte
  stored : List Byte
  on0    : Bool
  on1    : Bool
  deriving DecidableEq, Repr

/-- The recorder (R453 to R468): records waiting for their tick, marks for the next assembled tick, the open chunk's records with
its first and last tick and the tick at which it was opened, closed chunks oldest first, the next CHUNK_SEQ, decimation counters
by KEY, shed classes newest first with the fill's side of the marks and the tick of its last step, whether it is sealed or stopped,
the cause of a gap that the next assembled tick ends, the last tick assembled, the effort of the open chunk, what POWER_ON is to
report, and the bytes of the last second. -/
structure Recorder where
  waiting  : List RecItem
  marks    : List (Nat × List Byte)
  recs     : List RecItem
  firstTick : Nat
  lastTick : Nat
  openedAt : Nat
  rawLen   : Nat
  chunks   : List Chunk
  nextSeq  : Nat
  decim    : Map Nat
  shed     : List Nat
  above    : Bool
  below    : Bool
  waterAt  : Nat
  sealed   : Bool
  stopped  : Bool
  gap      : Option Nat
  assembled : Option Nat
  effort   : Nat
  powerOn  : Bool
  prevTick : Nat
  intake   : List (Nat × Nat)
  output   : List (Nat × Nat)
  deriving DecidableEq, Repr

/-- A stream FIFO (R457 to R462): fill bank and drain bank oldest first, whether the producer is inside a packet, whether the rest
of a packet is being dropped, whether LOSS is due, whether a swap has released the open packet, whether the flush timeout has
passed, and the tick of the oldest word of the fill bank. -/
structure Fifo where
  fill     : List Nat
  drain    : List Nat
  inPacket : Bool
  dropping : Bool
  lossDue  : Bool
  released : Bool
  flush    : Bool
  fillAt   : Nat
  deriving DecidableEq, Repr

/-- An SSD (R469 to R479): state code, link, VOLUME_ID, capacity, LBA size and model from Identify, the segment being filled (index,
SEG_SEQ, bytes used), the chunks it holds, oldest first, as (CHUNK_SEQ, FIRST_TICK, LAST_TICK, segment), the span they cover, bytes of
the last second, wear, and failures of the write in hand. -/
structure Ssd where
  st       : Nat
  link     : Nat
  volume   : Nat
  capacity : Nat
  model    : List Byte
  segIdx   : Nat
  segSeq   : Nat
  segPos   : Nat
  chunks   : List (Nat × Nat × Nat × Nat)
  oldest   : Nat
  newest   : Nat
  drain    : List (Nat × Nat)
  wear     : Nat
  lba      : Nat
  fails    : Nat
  deriving DecidableEq, Repr

/-! Chapter 9: the cyclic program. -/

/-- Release information of R331, with LATE of R366; `rtick` is the release boundary. -/
structure Release where
  rtick    : Nat
  time     : Nat
  leadPos  : Nat
  cause    : Nat
  lateness : Nat
  merged   : Nat
  late     : Bool
  deriving DecidableEq, Repr

/-- A task's input image (R332): station inputs with STALE and LATE, channel outputs, axis and group status words and setpoints, Lead
positions and velocities, time bases, converter records, field inputs, latched RWC values, exchange variables, the results of
library jobs (R369), and what its windows made of the last software stamp (R129). -/
structure InputImage where
  stations : List (Nat × List Byte × Bool × Bool)
  chans    : List (Nat × Bfp)
  axes     : List (Nat × Nat × Int)
  groups   : List (Nat × Nat)
  leads    : List (Nat × Int)
  tbs      : List Nat
  convs    : List (Nat × Nat)
  dins     : List (Nat × Bool)
  rwc      : Map Val
  exch     : Map (List Byte)
  jobs     : List (Nat × List Byte)
  windows  : List WindowResult
  deriving DecidableEq, Repr

/-- A task (R327 to R342): its declaration with the positions and budget in force, core, whether no core holds it, HALTED, a cycle in
progress, suspended at a breakpoint, whether this cycle counted an overrun or missed its deadline, the flags of R366, the overrun
counts, a release due at this boundary, a deferred release (tick, merged count, instant of the first crossing), the positions fired on an
ABSOLUTE Lead, whether a release fell while the cycle runs, releases merged during a restart, the last release,
the release and input image of the cycle, a LEAD deadline, an output image waiting for its boundary (with the tick for a LEAD task),
the retain capture with its release tick, exported writes waiting, library results waiting, the CAUSE of the next release, and the cause of a reaction that is due (R340). -/
structure TaskRec where
  decl      : Option TaskDecl
  core      : Option Nat
  noCore    : Bool
  halted    : Bool
  running   : Bool
  atBreak   : Bool
  counted   : Bool
  missed    : Bool
  overran   : Bool
  exceeded  : Bool
  lateF     : Bool
  jumpedF   : Bool
  deferredF : Bool
  rolledF   : Bool
  throttled : Bool
  resumedF  : Bool
  exchanged : Bool
  consec    : Nat
  window    : List Bool
  due       : Option Release
  deferAt   : Option (Nat × Nat × Nat)
  spent     : List Nat
  fell      : Bool
  merged    : Nat
  lastRel   : Option Nat
  rel       : Option Release
  input     : Option InputImage
  deadline  : Option Nat
  out       : Option (List (OwnedOutput × List Byte) × Option Nat)
  capture   : List Byte
  captureAt : Nat
  writes    : List Elem
  results   : List (Nat × List Byte)
  nextCause : Nat
  react     : Option Nat
  deriving DecidableEq, Repr

/-- The program runtime (R343 to R360): the image banks with the inactive bank's state, the boundaries at which RUN and STOP take
effect (STOP with its cause), whether CONTINUE is refused, HOLD's first tick, the task that a STEP runs, the boundary X of an
exchange and whether its pause runs, with the request that armed it, outputs that take their STOP values at the next line-cycle
boundary, published values of variables by their place in the symbol table, the MRAM retain slots with the next SEQUENCE, whether a
commit is due, its KIND, whether one was lost, the last whole second seen, and library jobs with their tasks. -/
structure Prog where
  active    : Option ProgramImage
  activeRaw : List Byte
  bank      : Option ProgramImage
  bankRaw   : List Byte
  xst       : Nat
  runAt     : Option Nat
  stopAt    : Option (Nat × Nat)
  fresh     : Bool
  holdFrom  : Nat
  stepping  : Option Nat
  xAt       : Option Nat
  pausing   : Bool
  xTick     : Nat
  xWho      : Option (ClientId × Nat)
  orphans   : List OwnedDecl
  exch      : Map (List Byte)
  slots     : Map (List Byte)
  seq       : Nat
  commitDue : Bool
  commitKind : Nat
  commitLost : Bool
  lastSecond : Nat
  jobs      : Map (Option Nat)
  deriving DecidableEq, Repr

/-! Chapter 10: the task scheduler and the Ostler. -/

/-- The task scheduler (R369 to R376): items waiting in the on-die lists (release reserve, runtime reserve, shared pool), contexts of
pre-empted items with their cores, the item each core runs, the DRAM list, and items held at their source. -/
structure Sched where
  release : List WorkItem
  runtime : List WorkItem
  shared  : List WorkItem
  saved   : List (Nat × WorkItem)
  cores   : Map (Option WorkItem)
  dram    : List WorkItem
  held    : List WorkItem
  deriving DecidableEq, Repr

/-- A unit of kind CE, MP or LC (R384): state code, RETIRE_CAUSE, and what its running self-test is for: 0 a rotation or interval
test, 1 a test after a mismatch, 2 a RETEST, 3 the test after a region update; `toSpare` makes it SPARE when it passes. -/
structure UnitRec where
  st      : Nat
  cause   : Nat
  why     : Nat
  toSpare : Bool
  deriving DecidableEq, Repr

/-- Room reserved for a member of a coupling group (R379): kind and item of R378, unit, φ, P and cost. -/
structure Resv where
  kind   : Nat
  item   : Nat
  unit   : Nat
  phase  : Nat
  period : Nat
  cost   : Nat
  deriving DecidableEq, Repr

/-- A live migration (R385 to R389): item, source and target unit, the reason (0 rotation, 1 evacuation, 2 spare restoration, 3 a
command), stage (0 PREPARE, 1 the copy is complete, k0 is fixed), k0, samples found equal, N, and whether it is the second one of
its item after a mismatch. -/
structure Migr where
  kind   : Nat
  item   : Nat
  source : Nat
  target : Nat
  why    : Nat
  stage  : Nat
  k0     : Nat
  equal  : Nat
  n      : Nat
  second : Bool
  deriving DecidableEq, Repr

/-- A migration that the Ostler has chosen and not started. -/
structure MovePlan where
  kind   : Nat
  item   : Nat
  target : Nat
  why    : Nat
  second : Bool
  deriving DecidableEq, Repr

/-- The Ostler (R377 to R397): units, reservations, migrations, chosen migrations, declaration records, the unit that each cluster's
rotation empties with its spare, the region that is being evacuated with whether an update follows, the kind that a REBALANCE moves,
the TIM clock at which each unit's self-test began, and the instant of the last rotation. -/
structure Ostler where
  units   : Map UnitRec
  resvs   : List Resv
  migs    : List Migr
  plans   : List MovePlan
  decls   : Map (List Byte)
  turning : Map (Option (Nat × Nat))
  evac    : Option (Nat × Bool)
  balance : Nat
  tests   : Map Nat
  rotAt   : Nat
  deriving DecidableEq, Repr


/-! Chapter 14: configurations, modes and recipes. -/

/-- A recipe sequencer (R500): state code, flags of its status word, recipe, current step and the one before it (0xFFFF none), the
time-base value and Lead position at the start of the step, the remainder held in PAUSED and FAULTED (2^-32 ns or lu), the identity of
its end action, the tick from which a fired end applies with LATE, whether its condition held at the last line-cycle boundary, waiting
commands with the ticks from which a boundary may carry them out, the tick from which a set Rein bit does so, and whether the Rein bits
were set when last seen. -/
structure Sequencer where
  st        : Nat
  late      : Bool
  actionRef : Bool
  discarded : Bool
  rein      : Bool
  recipe    : Nat
  step      : Nat
  prev      : Nat
  startTb   : Nat
  startLead : Nat
  held      : Option Int
  endAct    : Option Nat
  endDue    : Option (Nat × Bool)
  condDue   : Bool
  cmds      : List (Nat × Nat)
  reinFrom  : Option Nat
  reinSeen  : Bool
  deriving DecidableEq, Repr

/-- The layers (R487 to R492): active base configuration and overlay set with their bytes, the inactive bank with what it holds once
verified, sequencers, a requested mode and a stored ACTIVATE, each with the tick from which a boundary may apply it and whether that
must be a line-cycle boundary. -/
structure Layers where
  base     : Option BaseConfig
  baseRaw  : List Byte
  ovl      : Option OverlaySet
  ovlRaw   : List Byte
  bankRaw  : List Byte
  bankBase : Option BaseConfig
  bankOvl  : Option OverlaySet
  bankSt   : Nat
  bankKind : Nat
  seqs     : Map Sequencer
  mode     : Option (Nat × Nat × Bool)
  activate : Option (Nat × Bool)
  deriving DecidableEq, Repr
/-! Chapter 15: start-up, power and the governor. -/

/-- The thermal governor (R529): step in force, power step, for each temperature threshold (1 to 4) whether it is held with the TIM
clock since which the hot spot has been 5 K below it, the peak allowance in half TIM clocks, the TIM clocks of the last update, of the last
move of the power step and of the last move of the step in force, and since when the power has been at or below 60 W. -/
structure Governor where
  step      : Nat
  power     : Nat
  thr       : Map (Bool × Option Nat)
  allowance : Nat
  lastClk   : Nat
  powerAt   : Nat
  stepAt    : Option Nat
  lowFrom   : Option Nat
  deriving DecidableEq, Repr


/-! Chapter 15: firmware, restart, power failure and the Paddock. -/

/-- Who owns the QSPI NOR (R22): CX, with the QSPI lands at high impedance, or an external programmer on the lands. -/
inductive NorOwner where
  | cx
  | lands
  deriving DecidableEq, Repr

/-- A CX warm restart (R522): cause code, whether it is planned, the named entry boundary of a planned one that has not begun, and the
TIM clock of its start. -/
structure Restart where
  cause   : Nat
  planned : Bool
  at_     : Option Nat
  clk     : Nat
  deriving DecidableEq, Repr

/-- The Paddock (R537 to R540): clock in 1/32,768 s, comparator states, the brown-out latch and what the last power-on found of it, the
log (oldest first), the next SEQ, whether WAKE_N is low, and the clock at the last event that drove it. -/
structure Paddock where
  clock     : Nat
  vbatLow   : Bool
  latch     : Bool
  clockLost : Bool
  caseOpen  : Bool
  tempHigh  : Bool
  log       : List (List Byte)
  seq       : Nat
  wake      : Bool
  wakeAt    : Nat
  deriving DecidableEq, Repr

/-- Start-up, firmware, restart and power failure (R508 to R536): whether the dies run, whether PWR_12V is there, RST_N low, the owner of the
NOR, the start-up step under way (0 none)
with the TIM clocks of the start and of the step, CX in its boot ROM, the slot that the boot record names, the package bytes in the slot that booted and in
the other one with its state, the region under update, revoked release keys (bit per key), digests of the owner anchors fused so far
(the last is in force), the enrolment record, the TIM clock at which PFW_N fell while it is low, that of its last rise, whether the module itself drives it, whether the shutdown
step has passed, a
warm restart with whether CX is down for it, TIM clocks of unplanned restarts, and a CX thermal trip. -/
structure Health where
  running   : Bool
  supplied  : Bool
  reset     : Bool
  nor       : NorOwner
  step      : Nat
  startClk  : Nat
  stepClk   : Nat
  bootRom   : Bool
  bootNext  : Nat
  bootRaw   : List Byte
  pkgRaw    : List Byte
  pkg       : Option FwPackage
  pkgSt     : Nat
  updating  : Option Nat
  revoked   : Nat
  anchors   : List (List Byte)
  enrolment : List Byte
  pfw       : Option Nat
  pfwHigh   : Nat
  pfwOut    : Bool
  shut      : Bool
  restart   : Option Restart
  down      : Bool
  unplanned : List Nat
  tripped   : Bool
  deriving DecidableEq, Repr

/-! What leaves the module. -/

/-- What has left the module, one constructor for each kind. -/
inductive Sent where
  /-- A DAZ response (R76): request opcode, TRANSACTION, entry, abort code, data. -/
  | response (client : ClientId) (opcode txn index sub count abort : Nat) (data : List Byte)
  /-- A notification of a watch (R80). -/
  | notice (client : ClientId) (txn index sub abort : Nat) (data : List Byte)
  /-- A frame on a ring (R12, R131, R137): engine, ring, bytes from the destination address to the FCS. -/
  | frame (engine : Engine) (ring : Nat) (bytes : List Byte)
  /-- The frame on the wire ends with an invalid FCS (R184). -/
  | cutFrame (engine : Engine) (ring : Nat)
  /-- A frame leaves uplink u at an offset of a base tick, in 0.2 ns (R200 to R203). -/
  | uplink (u tick offset : Nat) (frame : UpFrame)
  /-- A PTP message (R97): message type, port, time base, sequence, time in 2^-32 ns, and the port it answers. -/
  | ptp (kind port tb seq : Nat) (time requester : Nat)
  /-- An Announce message (R97): port, time base, sequence, grandmaster identity, clockClass, priority1, priority2 and the log of its
  interval. -/
  | announce (port tb seq grandmaster clockClass priority1 priority2 : Nat) (logInterval : Int)
  /-- A message on the path cross link: a demotion notice or an arm report (R184, R188). -/
  | cross (engine : Engine) (ring reach : Nat) (demotion : Bool)
  /-- An engine reports its compute link failed on the path cross link (R191). -/
  | linkReport (engine : Engine)
  /-- An edge on a pin of the module: PWM pulse, field output, PPS_OUT, WAKE_N, READY_N and the like (R291, R436, R565). -/
  | pin (kind number : Nat) (level : Bool) (tick offset : Nat)
  /-- A line of UART0 (R515, R566): a completed start-up step, or BOOT_FAIL. -/
  | uart (step : Nat) (bootFail : Bool)
  /-- A write to SSD d: byte offset in the namespace and bytes (R469 to R471). -/
  | ssdWrite (d offset : Nat) (bytes : List Byte)
  /-- Zeros written to SSD d from a byte offset on (R471). -/
  | ssdZero (d offset len : Nat)
  /-- A Flush of SSD d (R475). -/
  | ssdFlush (d : Nat)
  /-- A session closed by the module (R73). -/
  | closed (client : ClientId)
  deriving DecidableEq, Repr

/-- The MH2560. -/
structure State where
  /-- Every dictionary register whose home it is, by `regKey`; an unlisted one holds its default (R64). -/
  regs     : Map Val
  dict     : Dict
  clock    : Clock
  tbs      : Map TimeBase
  ports    : Map PtpPort
  leads    : Map Lead
  actions  : Actions
  links    : Map LinkMon
  stations : Map Station
  rings    : Map Ring
  na       : PathEngine
  nb       : PathEngine
  rein     : Rein
  coast    : Coast
  henvy    : Henvy
  uplinks  : Map Uplink
  prp      : Prp
  /-- Live values the control engines run with (R234), by `regKey`, and the stored writes not yet taken up. -/
  taken    : Map Val
  stored   : List Elem
  chans    : Map Chan
  traces   : Map Trace
  axes     : Map Axis
  groups   : Map Group
  pwms     : Map Pwm
  locals   : Map LocalAxis
  encs     : Map Enc
  caps     : Map Capture
  convs    : Map Conv
  ains     : Map AnaIn
  trigs    : Map Trig
  aouts    : Map AOut
  dins     : Map DigIn
  douts    : Map DigOut
  supplies : Map Supply
  field    : Field
  rcd      : Recorder
  fifos    : Map Fifo
  ssds     : Map Ssd
  tasks    : Map TaskRec
  prog     : Prog
  sched    : Sched
  ost      : Ostler
  lay      : Layers
  gov      : Governor
  health   : Health
  paddock  : Paddock
  /-- What has left the module, newest first. -/
  sent     : List Sent
  /-- Counter that the free values of `Config` are applied to; the model's own (notes/assumptions/4.md). -/
  freeCtr  : Nat
  /-- Commands waiting, first in first out. -/
  pending  : List Instr
  deriving DecidableEq, Repr

/-! Reset values. -/

def Clock.init : Clock := ⟨0, 0, false, none, none, false, false, 0, [], [], none, []⟩

/-- A time base after AX bring-up (R89, R90): 0 s, nominal increment, TB0 in PTP mode and so ACQUIRING, the others FREE. -/
def TimeBase.init (n : Nat) : TimeBase :=
  { val := 0, atTick := 0, inc := 4 * 2 ^ 32, st := if n = 0 then .acquiring else .free, modePending := none, hold := false,
    stepDenied := false, f := Frac.zero, c := Frac.zero, lastOffset := 0, lastInstant := 0, first := true, freqs := [],
    inCount := 0, beyond := 0, masters := [], transmitter := none, logSync := 0, lastSync := 0, lastAnnounce := 0,
    logAnnounce := 0 }

def PtpPort.init : PtpPort := ⟨0, false, 0, false, 0, 0⟩

/-- A Lead with no source (R106, R112). -/
def Lead.init : Lead :=
  { pos := 0, vel := 0, velNew := none, st := 0, reversed := false, jumped := false, overspeed := false, missing := 0, hiPrev := 0, lastDir := 0,
    jumpPending := 0, refPending := 0, resumeDue := false, jumpBy := 0, spread := 0, spreadTicks := 0, spreadWait := false,
    corr := 0, corrs := [], slewLeft := 0, slewDist := 0, acc := F64.zero,
    plan := none, velF := F64.zero, started := false, sampled := false, faulted := false, origin := 0, rawCount := 0,
    count := 0, last := none, hist := [], sinceTick := 0, silentFrom := 0,
    pred := 0 }

def LinkMon.init : LinkMon := ⟨0, false, false, false, 0, 0, false, 0, 0⟩

def Station.init : Station :=
  { st := 0, cst := 0, missedRun := 0, acks := 0, fresh := none, since := 0, identity := none, latest := [], pend := none,
    inputs := [], hasInputs := false, stale := false, late := false, fault := false, reinActive := false, outputs := [],
    lastOut := [], sent := [], mbxIn := [], mbxMsgs := [], mbxAck := 0, mbxDone := 0, mbxOff := 0, mbxSeq := 0, mbxLen := 0 }

/-- A ring in IDLE under NA (R133, R157). -/
def Ring.init : Ring :=
  { st := 0, layout := [], frames := 0, countNa := none, countNb := none, cmd := .na, split := false, healAt := none,
    healBounds := (0, 0), tab := none, measNo := 0, measClk := 0, readDue := false, measDue := false, badSeg := [], joining := false,
    healJoin := false, healClk := 0, healFrom := 0, loopAsk := 0 }

/-- Rails that nobody drives (R176, R179). -/
def Rail.init : Rail := ⟨0, 0, 2⟩

def PathEngine.init : PathEngine :=
  { st := 0, held := [], latched := [], reach := [], released := [], rails := [], copies := [], reinSeq := [], rejoining := false,
    broughtUp := false, acUsed := [], acWait := [], reinSent := [], reinWait := [], discNext := [], fcsGood := false, fcsBad := false,
    badRun := 0 }

def Uplink.init : Uplink := ⟨[], none, 0, 0⟩

def CoastRec.init : CoastRec :=
  { valid := false, station := 0, offset := 0, format := 0, mode := 0, lead := 0, num := 0, den := 1, stopDec := 0,
    stopJerk := 0, tag := 0, pos := 0, vel := F64.zero, acc := F64.zero, stopping := false, stoppedBy := false, posRef := 0,
    leadRef := 0, s := [], stopBit := false, leadAt := 0, live := false }

def Coast.init : Coast := ⟨false, 0, false, false, none, none, [], false⟩

def SecState.init : SecState := ⟨0, 0, -128⟩

/-- A channel in OFF (R245). -/
def Chan.init : Chan :=
  { st := 0, limHi := false, limLo := false, frozen := false, stale := false, ovrIn := false, expSat := false, outSat := false,
    resumed := false, rein := false, overrun := false, staleRun := 0, secs := [], x := Bfp.zero, u := Bfp.zero, y := Bfp.zero, outs := [],
    inForce := Bfp.zero, toCome := none, lastA := none, lastB := none, enableAt := false, disableAt := false,
    latched := false, rampDone := false, faultDue := false, resumeDue := false, commits := [], placed := false, unit := 0,
    phase := 0 }

def Trace.init : Trace := ⟨0, false, [], 0, [], [], [], false, []⟩

/-- An axis in DISABLED (R283). -/
def Axis.init : Axis :=
  { st := 0, cause := 0, causes := [], atTarget := false, softLimit := false, late := false, gearStep := false, resumed := false,
    resumeDue := false, staleAct := false, syncLost := false, gearOver := false, overrun := false, rearmDisc := false, p := 0, v := F64.zero,
    a := F64.zero, prof := none, velHold := false, gear := none, ramp := none, ratio := none, gearOut := none,
    orders := [], sp := none, enableAt := false, disableAt := false, dropAt := false, disabledIn := false,
    actual := 0, actualVel := 0, placed := false, unit := 0, phase := 0, reinSeen := false, toCome := none, target := 0,
    resetDue := false, failAt := false, evented := none, discards := 0 }

def Group.init : Group :=
  { st := 0, cause := 0, pathLeft := false, vMember := 0, aMember := 0, starts := [], dists := [], prof := none,
    lam := F64.zero, lamV := F64.zero, lamA := F64.zero, stopDec := F64.zero, stopJerk := F64.zero, active := [],
    stepTick := none, orders := [], taken := 0 }

def Pwm.init : Pwm := ⟨0, 0, 0, [], 0, false, false⟩

def InLatch.init : InLatch := ⟨false, 0, 0⟩

def Homing.init : Homing := ⟨0, 1, 1, 0, false, 0, false, false, false, false, none, none⟩

def LocalAxis.init : LocalAxis :=
  { x := 0, sPrev := 0, sNew := 0, segTick := 0, incoming := none, emitted := 0, lag := 0, dirNeg := false, stepFrom := 0,
    lastMove := 0, holding := false, homed := false, latches := [], coast := CoastRec.init, coasting := false, coastAt := 0,
    openLoop := false, refA := 0, refB := 0, hist := [], homing := Homing.init }

def Enc.init : Enc :=
  { count := 0, lastEdge := 0, hist := [], indexSeen := false, ssiErr := false, indexErr := false, quadErr := false,
    lineFault := false, a := false, b := false, lastIndex := none, indexAt := 0, ssiWord := none, faultTick := false,
    atTick := 0 }

def Capture.init : Capture := ⟨[], [], 0, none⟩

def Conv.init : Conv := ⟨0, none, [], none, 0, 0, false, false, 0, 0, 0, 0, 0, false, 0⟩

/-- An input before its first conversion (R413, R414): INVALID set, code 0. -/
def AnaIn.init : AnaIn := ⟨0x800000, 0x800000, 0, false, none, 0, false, none, 0⟩

def Trig.init : Trig := ⟨0, 0, 0, 0⟩

/-- An output in its output-off state (R417). -/
def AOut.init : AOut := ⟨0, 0, 0, true, false, false, false, false, false, false, 0⟩
/-- An input without a level from FX (R448): INVALID set. -/
def DigIn.init : DigIn := ⟨false, false, 0, false, false, false, false⟩

def DigOut.init : DigOut :=
  { st := 0, commanded := false, drive := false, lastVal := false, first := true, progLevel := false, holding := false,
    expired := false, stopOver := false, lateEdge := false, openLoad := false, lastFault := 0, consec := 0, resetDue := false,
    onClk := 0, faultClk := 0, holdTick := 0 }

/-- A supply before its first measurement (R449): MISSING set. -/
def Supply.init : Supply := ⟨true, false, false, none, none⟩

def Field.init : Field :=
  { edges := [], stale := false, arrived := none, levels := none, actions := [], repeats := [], carried := [], pins := 0,
    linkLost := false, goodRun := 0, sendDecl := false, declared := false, watchdog := false, typesDue := false, types := [], typeFrom := [] }

def Recorder.init : Recorder :=
  { waiting := [], marks := [], recs := [], firstTick := 0, lastTick := 0, openedAt := 0, rawLen := 0, chunks := [], nextSeq := 1,
    decim := [], shed := [], above := false, below := false, waterAt := 0, sealed := false, stopped := false, gap := none,
    assembled := none, effort := 3,
    powerOn := true, prevTick := 0, intake := [], output := [] }

def Fifo.init : Fifo := ⟨[], [], false, false, false, false, false, 0⟩

def Ssd.init : Ssd :=
  { st := 0, link := 0, volume := 0, capacity := 0, model := [], segIdx := 0, segSeq := 0, segPos := 0, chunks := [], oldest := 0,
    newest := 0, drain := [], wear := 0, lba := 512, fails := 0 }

/-- An undeclared task; TASK_STATE reads STOPPED (R366). -/
def TaskRec.init : TaskRec :=
  { decl := none, core := none, noCore := false, halted := false, running := false, atBreak := false, counted := false,
    missed := false, overran := false, exceeded := false, lateF := false, jumpedF := false, deferredF := false, rolledF := false,
    throttled := false, resumedF := false, exchanged := false, consec := 0, window := [], due := none, deferAt := none, spent := [], fell := false,
    merged := 0, lastRel := none, rel := none, input := none, deadline := none, out := none, capture := [], captureAt := 0,
    writes := [], results := [], nextCause := 0, react := none }

def Prog.init : Prog :=
  { active := none, activeRaw := [], bank := none, bankRaw := [], xst := 0, runAt := none, stopAt := none, fresh := true,
    holdFrom := 0, stepping := none, xAt := none, pausing := false, xTick := 0, xWho := none, orphans := [], exch := [],
    slots := [], seq := 0, commitDue := false, commitKind := 1, commitLost := false, lastSecond := 0, jobs := [] }

def Sched.init : Sched := ⟨[], [], [], [], [], [], []⟩

/-- A unit in IDLE (R384). -/
def UnitRec.init : UnitRec := ⟨0, 0, 0, false⟩

def Ostler.init : Ostler := ⟨[], [], [], [], [], [], none, 0, [], 0⟩


/-- A sequencer in IDLE (R500). -/
def Sequencer.init : Sequencer :=
  { st := 0, late := false, actionRef := false, discarded := false, rein := false, recipe := 0, step := 0xFFFF, prev := 0xFFFF,
    startTb := 0, startLead := 0, held := none, endAct := none, endDue := none, condDue := false, cmds := [], reinFrom := none,
    reinSeen := false }

def Layers.init : Layers := ⟨none, [], none, [], [], none, none, 0, 0, [], none, none⟩
/-- The governor at step 0 with its full peak allowance of 120 s. -/
def Governor.init : Governor := ⟨0, 0, [], 120 * 250000000 * 2, 0, 0, none, none⟩


/-- The module without supply (R508); no owner anchor is fused and the enrolment record is empty. -/
def Health.init : Health :=
  { running := false, supplied := false, reset := false, nor := .cx, step := 0, startClk := 0, stepClk := 0, bootRom := false, bootNext := 0, bootRaw := [], pkgRaw := [],
    pkg := none, pkgSt := 0,
    updating := none, revoked := 0, anchors := [], enrolment := [], pfw := none, pfwHigh := 0, pfwOut := false, shut := false, restart := none, down := false,
    unplanned := [], tripped := false }

def Paddock.init : Paddock := ⟨0, false, false, false, false, false, [], 0, false, 0⟩

/-- The machine right after reset, as the spec says; every field that the spec gives no reset value holds the value that the log
names (notes/assumptions/1.md to 4.md). Memory lists nothing, no command waits, and nothing has left the module. (DESIGN CHOICE,
notes/assumptions/8.md) -/
def State.reset : State where
  regs := []
  dict := ⟨[], [], [], [], [], [], [], []⟩
  clock := Clock.init
  tbs := (List.range 8).map fun n => (n, TimeBase.init n)
  ports := []
  leads := []
  actions := ⟨[], [], 0⟩
  links := (List.range 14).map fun l => (l, LinkMon.init)
  stations := []
  rings := []
  na := PathEngine.init
  nb := PathEngine.init
  rein := ⟨3, 3, false⟩
  coast := Coast.init
  henvy := ⟨0, 0, [], [], 0⟩
  uplinks := []
  prp := ⟨0, [], []⟩
  taken := []
  stored := []
  chans := []
  traces := []
  axes := []
  groups := []
  pwms := []
  locals := []
  encs := []
  caps := []
  convs := []
  ains := []
  trigs := []
  aouts := []
  dins := []
  douts := []
  supplies := []
  field := Field.init
  rcd := Recorder.init
  fifos := []
  ssds := []
  tasks := []
  prog := Prog.init
  sched := Sched.init
  ost := Ostler.init
  lay := Layers.init
  gov := Governor.init
  health := Health.init
  paddock := Paddock.init
  sent := []
  freeCtr := 0
  pending := []

end Sys2Proof.Machine
end

