-- ==== Sys2Proof/Machine/Operands.lean ====
section
/-! DEFINITION. The operand forms: bytes of dictionary values (R57), Lead positions and time-base values (R57, R89, R101), and
the checks of a written value (R57, R64, R65). -/

namespace Sys2Proof.Machine

/-! Abort codes of R74. -/

def abOk : Nat := 0x0000
def abNoEntry : Nat := 0x0101
def abNoSub : Nat := 0x0102
def abReadOnly : Nat := 0x0103
def abWriteOnly : Nat := 0x0104
def abLength : Nat := 0x0105
def abRangeLow : Nat := 0x0106
def abRangeHigh : Nat := 0x0107
def abBadValue : Nat := 0x0108
def abNotReady : Nat := 0x0109
def abDenied : Nat := 0x010A
def abLocked : Nat := 0x010B
def abUndeclared : Nat := 0x010C
def abBusy : Nat := 0x010D
def abSequence : Nat := 0x010E
def abTimeout : Nat := 0x010F
def abNoResource : Nat := 0x0110
def abPastDue : Nat := 0x0111
def abDependency : Nat := 0x0112
def abSignature : Nat := 0x0113
def abMalformed : Nat := 0x0114
def abCancelled : Nat := 0x0115
def abNoTransaction : Nat := 0x0116

/-! Bits and bytes. -/

/-- Bits [hi:lo] of a number (R11). -/
def bits (w hi lo : Nat) : Nat := w / 2 ^ lo % 2 ^ (hi - lo + 1)

/-- Bit n of a number. -/
def bit (w n : Nat) : Bool := w / 2 ^ n % 2 = 1

/-- 1 for true. -/
def b2n (b : Bool) : Nat := if b then 1 else 0

/-- n bytes of a number, little-endian (R12). -/
def leBytes : Nat → Nat → List Byte
  | 0, _ => []
  | k + 1, w => BitVec.ofNat 8 w :: leBytes k (w / 256)

/-- The number that little-endian bytes hold (R12). -/
def leNat : List Byte → Nat
  | [] => 0
  | b :: t => b.toNat + 256 * leNat t

/-- Signed value of the low w bits of a number, two's complement. -/
def toSigned (w n : Nat) : Int :=
  let m := n % 2 ^ w
  if m < 2 ^ (w - 1) then m else (m : Int) - 2 ^ w

/-- The low w bits of an integer, two's complement. -/
def ofSigned (w : Nat) (i : Int) : Nat := (i % 2 ^ w).toNat

/-- int64 of a difference of two 64-bit numbers (R101). -/
def diff64 (a b : Nat) : Int := toSigned 64 (a + 2 ^ 64 - b % 2 ^ 64)

/-- Part of a byte string; bytes beyond its end read as 0. -/
def slice (b : List Byte) (off len : Nat) : List Byte :=
  let d := (b.drop off).take len
  d ++ List.replicate (len - d.length) 0

/-- A byte string with `new` written at an offset, lengthened with 0 where it is too short. -/
def splice (b : List Byte) (off : Nat) (new : List Byte) : List Byte :=
  let pre := b.take off
  pre ++ List.replicate (off - pre.length) 0 ++ new ++ b.drop (off + new.length)

/-- First 8 bytes of a SHA-384 digest as a UINT64; 0 for no image (R362, R504). (DEDUCED, notes/assumptions/100.md) -/
def digest8 (raw : List Byte) : Nat := if raw.isEmpty then 0 else leNat (slice (Config.sha384 raw) 0 8)

/-! Types. -/

/-- Size of a type of fixed size (R57). -/
def Ty.size : Ty → Option Nat
  | .bool | .int8 | .uint8 | .bits8 => some 1
  | .int16 | .uint16 | .bits16 => some 2
  | .int32 | .uint32 | .real32 | .bits32 => some 4
  | .int64 | .uint64 | .real64 | .leadpos | .leadvel | .bfp => some 8
  | .tbtime => some 12
  | .string _ | .octets _ => none

/-- Type code of R57. -/
def Ty.code : Ty → Nat
  | .bool => 0x01
  | .int8 => 0x02
  | .int16 => 0x03
  | .int32 => 0x04
  | .int64 => 0x05
  | .uint8 => 0x06
  | .uint16 => 0x07
  | .uint32 => 0x08
  | .uint64 => 0x09
  | .real32 => 0x0A
  | .real64 => 0x0B
  | .bits8 => 0x0C
  | .bits16 => 0x0D
  | .bits32 => 0x0E
  | .leadpos => 0x0F
  | .leadvel => 0x10
  | .tbtime => 0x11
  | .bfp => 0x12
  | .string _ => 0x13
  | .octets _ => 0x14

/-- Size of the type, or capacity (R571). -/
def Ty.capacity : Ty → Nat
  | .string n => n
  | .octets n => n
  | t => t.size.getD 0

/-- Whether values of the type are two's complement. -/
def Ty.signed : Ty → Bool
  | .int8 | .int16 | .int32 | .int64 | .leadvel => true
  | _ => false

/-- A stored number read as the type reads it. -/
def Ty.toInt (t : Ty) (n : Nat) : Int :=
  if t.signed then toSigned (8 * t.capacity) n else n

/-- Whether the bytes are well-formed UTF-8; `more` continuation bytes are still due, the next of them within lo to hi. -/
def utf8From : List Byte → Nat → Nat → Nat → Bool
  | [], more, _, _ => more = 0
  | b :: t, more, lo, hi =>
    let x := b.toNat
    if more > 0 then (lo ≤ x && x ≤ hi) && utf8From t (more - 1) 0x80 0xBF
    else if x < 0x80 then utf8From t 0 0x80 0xBF
    else if 0xC2 ≤ x && x ≤ 0xDF then utf8From t 1 0x80 0xBF
    else if x = 0xE0 then utf8From t 2 0xA0 0xBF
    else if x = 0xED then utf8From t 2 0x80 0x9F
    else if 0xE1 ≤ x && x ≤ 0xEF then utf8From t 2 0x80 0xBF
    else if x = 0xF0 then utf8From t 3 0x90 0xBF
    else if x = 0xF4 then utf8From t 3 0x80 0x8F
    else if 0xF1 ≤ x && x ≤ 0xF3 then utf8From t 3 0x80 0xBF
    else false

def validUtf8 (b : List Byte) : Bool := utf8From b 0 0x80 0xBF

/-- Bytes of a value in a DAZ message (R57). A stored string is read whole, padded to its capacity. -/
def encodeVal (t : Ty) (v : Val) : List Byte :=
  match t with
  | .string n => slice v.octets 0 n
  | .octets _ => v.octets
  | t => leBytes t.capacity v.toNat

/-- Whether a value of fixed size is encodable under R57. -/
def encodable (t : Ty) (n : Nat) : Bool :=
  match t with
  | .bool => n ≤ 1
  | .real32 => bits n 30 23 ≠ 255
  | .real64 => bits n 62 52 ≠ 2047
  | .tbtime => bits n 47 16 ≤ 999999999
  | .bfp => bits n 63 40 = 0
  | _ => true

/-- −1, 0 or 1: the written number against a range end; ends of REAL types are in thousandths, of BFP in mantissa units. -/
def cmpEnd (t : Ty) (n : Nat) (e : Int) : Int :=
  match t with
  | .real32 => ((F64.ofBits32 n).toFrac.num * 1000 - e * (F64.ofBits32 n).toFrac.den).sign
  | .real64 => ((F64.ofBits n).toFrac.num * 1000 - e * (F64.ofBits n).toFrac.den).sign
  | .bfp => ((Bfp.ofBits n).m - e).sign
  | t => (t.toInt n - e).sign

/-- RANGE_LOW or RANGE_HIGH of a number under R64 (BFP also under R216). (DEDUCED, notes/assumptions/110.md) -/
def rangeAbort (e : Entry) (n : Nat) : Option Nat :=
  if e.also.contains (e.ty.toInt n) then none
  else if e.lo.any (fun l => cmpEnd e.ty n l < 0) then some abRangeLow
  else if e.hi.any (fun h => cmpEnd e.ty n h > 0) then some abRangeHigh
  else if e.ty = .bfp && (bfpStore (Bfp.ofBits n)).isNone then some abRangeLow
  else none

/-- BAD_VALUE of a number: not encodable, or beside the enumeration its Meaning lists (R57). (DEDUCED, notes/assumptions/111.md) -/
def badValue (e : Entry) (n : Nat) : Bool :=
  !encodable e.ty n || (!e.enum.isEmpty && !e.enum.contains (e.ty.toInt n))

/-- The value that a write of these bytes stores: reserved bits dropped (R11), BFP normalised (R216), strings padded (R57). -/
def storedVal (e : Entry) (data : List Byte) : Val :=
  match e.ty with
  | .string n => .oct (slice data 0 n)
  | .octets _ => .oct data
  | .bfp => .num (Bfp.toBits ((bfpStore (Bfp.ofBits (leNat data))).getD Bfp.zero))
  | _ => .num (leNat data - (leNat data &&& e.resv))

/-- LENGTH of a write (R74): a fixed-size type takes its size, a string or octets at most the capacity, a record its length. -/
def lengthAbort (e : Entry) (data : List Byte) : Bool :=
  match e.ty.size with
  | some n => data.length ≠ n
  | none => data.length > e.ty.capacity || data.length < e.minLen

/-- LENGTH, BAD_VALUE and RANGE of a written value, in the order of R65. -/
def valueAbort (e : Entry) (data : List Byte) : Option Nat :=
  if lengthAbort e data then some abLength
  else
    match e.ty with
    | .string _ => if validUtf8 data then none else some abBadValue
    | .octets _ => none
    | _ => if badValue e (leNat data) then some abBadValue else rangeAbort e (leNat data)

/-! Time-base values (R89): numbers of 2^-32 ns. -/

/-- Units of 2^-32 ns in one second. -/
def secUnits : Nat := 1000000000 * 2 ^ 32

/-- The length of a base tick, 6,250 ns (R83). -/
def tickUnits : Nat := 6250 * 2 ^ 32

/-- Modulus of a time base: 2^48 s. -/
def tbModulus : Nat := 2 ^ 48 * secUnits

/-- TBTIME of R57 of a time-base value: fraction [15:0], nanoseconds [47:16], seconds [95:48]. -/
def toTbtime (v : Nat) : Nat :=
  let sec := v / secUnits % 2 ^ 48
  let r := v % secUnits
  r / 2 ^ 32 * 2 ^ 16 + r % 2 ^ 32 / 2 ^ 16 + sec * 2 ^ 48

/-- The time-base value of a TBTIME. -/
def ofTbtime (t : Nat) : Nat :=
  bits t 95 48 * secUnits + bits t 47 16 * 2 ^ 32 + bits t 15 0 * 2 ^ 16

/-- TIM clocks of a number of nanoseconds of wall time (R23). -/
def wallNs (ns : Nat) : Nat := ns / 4

/-- TIM clocks of a number of seconds of wall time. -/
def wallSec (s : Nat) : Nat := s * 250000000

/-! CRC-32 with the polynomial, initial value and final inversion of the IEEE 802.3 FCS (R144). -/

/-- One bit of the reflected CRC. -/
def crcBit (c : BitVec 32) : BitVec 32 :=
  if c.getLsbD 0 then (c >>> 1) ^^^ 0xEDB88320#32 else c >>> 1

/-- One byte of the reflected CRC. -/
def crcByte (c : BitVec 32) (b : Byte) : BitVec 32 :=
  let c0 := c ^^^ b.setWidth 32
  crcBit (crcBit (crcBit (crcBit (crcBit (crcBit (crcBit (crcBit c0)))))))

def crc32 (data : List Byte) : BitVec 32 :=
  ~~~(data.foldl crcByte 0xFFFFFFFF#32)

/-- A number as n decimal digits in ASCII. -/
def decimal : Nat → Nat → List Byte
  | 0, _ => []
  | n + 1, v => decimal n (v / 10) ++ [BitVec.ofNat 8 (0x30 + v % 10)]

/-- The serial number in the form YYWW-NNNNNN, padded with 0x00 (R71). (DEDUCED, notes/assumptions/164.md) -/
def serialText : List Byte :=
  decimal 2 Config.serialYear.val ++ decimal 2 Config.serialWeek.val ++ [0x2D] ++ decimal 6 Config.serialCount.val ++ List.replicate 5 0

end Sys2Proof.Machine
end

