-- ==== Sys2Proof/Machine/Ops.lean ====
section
/-! DEFINITION. The named operations over the state: registers, records, counters, free values, and what leaves the module. -/

namespace Sys2Proof.Machine

/-! Registers (R53, R58, R64). -/

/-- A register's present value. -/
def State.reg (s : State) (index sub : Nat) : Val :=
  getAt (defaultVal index sub) s.regs (regKey index sub)

/-- A register's present value as a number. -/
def State.rn (s : State) (index sub : Nat) : Nat := (s.reg index sub).toNat

/-- A register's present value as its type reads it, w bits signed. -/
def State.ri (s : State) (index sub w : Nat) : Int := toSigned w (s.rn index sub)

/-- The state with one register changed. -/
def State.setReg (s : State) (index sub : Nat) (v : Val) : State :=
  { s with regs := setAt s.regs (regKey index sub) v }

def State.setNum (s : State) (index sub n : Nat) : State := s.setReg index sub (.num n)

/-- A free value and the state whose counter has moved past it (notes/assumptions/4.md). -/
def State.free (s : State) : Nat × State :=
  (Config.free s.freeCtr, { s with freeCtr := s.freeCtr + 1 })

/-- A counter of w bits counts by k; where it would pass its last value, which no rule states, it takes a free value. -/
def State.countBy (s : State) (index sub w k : Nat) : State :=
  let n := s.rn index sub + k
  if n < 2 ^ w then s.setNum index sub n
  else
    let f := s.free
    f.2.setNum index sub (f.1 % 2 ^ w)

/-- A UINT32 counter counts one. -/
def State.bump (s : State) (index sub : Nat) : State := s.countBy index sub 32 1

/-- A UINT64 counter counts one. -/
def State.bump64 (s : State) (index sub : Nat) : State := s.countBy index sub 64 1

/-- Something leaves the module. (DESIGN CHOICE, notes/assumptions/121.md) -/
def State.emit (s : State) (x : Sent) : State := { s with sent := x :: s.sent }

/-! Kinds of pins in `Sent.pin`. -/
def pinPwm : Nat := 0
def pinStep : Nat := 1
def pinDir : Nat := 2
def pinPps : Nat := 3
def pinField : Nat := 4
def pinWake : Nat := 5
def pinPfw : Nat := 6

/-! Records. -/

def State.tb (s : State) (n : Nat) : TimeBase := getAt (TimeBase.init n) s.tbs n
def State.setTb (s : State) (n : Nat) (t : TimeBase) : State := { s with tbs := setAt s.tbs n t }
def State.port (s : State) (p : Nat) : PtpPort := getAt PtpPort.init s.ports p
def State.setPort (s : State) (p : Nat) (x : PtpPort) : State := { s with ports := setAt s.ports p x }
def State.lead (s : State) (n : Nat) : Lead := getAt Lead.init s.leads n
def State.setLead (s : State) (n : Nat) (l : Lead) : State := { s with leads := setAt s.leads n l }
def State.link (s : State) (l : Nat) : LinkMon := getAt LinkMon.init s.links l
def State.setLink (s : State) (l : Nat) (x : LinkMon) : State := { s with links := setAt s.links l x }
def State.uplink (s : State) (u : Nat) : Uplink := getAt Uplink.init s.uplinks u
def State.setUplink (s : State) (u : Nat) (x : Uplink) : State := { s with uplinks := setAt s.uplinks u x }
def State.station (s : State) (a : Nat) : Station := getAt Station.init s.stations a
def State.setStation (s : State) (a : Nat) (x : Station) : State := { s with stations := setAt s.stations a x }
def State.ring (s : State) (k : Nat) : Ring := getAt Ring.init s.rings k
def State.setRing (s : State) (k : Nat) (x : Ring) : State := { s with rings := setAt s.rings k x }
def State.chan (s : State) (n : Nat) : Chan := getAt Chan.init s.chans n
def State.setChan (s : State) (n : Nat) (c : Chan) : State := { s with chans := setAt s.chans n c }
def State.trace (s : State) (t : Nat) : Trace := getAt Trace.init s.traces t
def State.setTrace (s : State) (t : Nat) (x : Trace) : State := { s with traces := setAt s.traces t x }
def State.axis (s : State) (n : Nat) : Axis := getAt Axis.init s.axes n
def State.setAxis (s : State) (n : Nat) (x : Axis) : State := { s with axes := setAt s.axes n x }
def State.group (s : State) (g : Nat) : Group := getAt Group.init s.groups g
def State.setGroup (s : State) (g : Nat) (x : Group) : State := { s with groups := setAt s.groups g x }
def State.coastRec (s : State) (n : Nat) : CoastRec := getAt CoastRec.init s.coast.recs n
def State.setCoastRec (s : State) (n : Nat) (r : CoastRec) : State :=
  { s with coast := { s.coast with recs := setAt s.coast.recs n r } }

def State.pwm (s : State) (c : Nat) : Pwm := getAt Pwm.init s.pwms c
def State.setPwm (s : State) (c : Nat) (x : Pwm) : State := { s with pwms := setAt s.pwms c x }
def State.loc (s : State) (a : Nat) : LocalAxis := getAt LocalAxis.init s.locals a
def State.setLoc (s : State) (a : Nat) (x : LocalAxis) : State := { s with locals := setAt s.locals a x }
def State.enc (s : State) (e : Nat) : Enc := getAt Enc.init s.encs e
def State.setEnc (s : State) (e : Nat) (x : Enc) : State := { s with encs := setAt s.encs e x }
def State.cap (s : State) (c : Nat) : Capture := getAt Capture.init s.caps c
def State.setCap (s : State) (c : Nat) (x : Capture) : State := { s with caps := setAt s.caps c x }
def State.conv (s : State) (a : Nat) : Conv := getAt Conv.init s.convs a
def State.setConv (s : State) (a : Nat) (x : Conv) : State := { s with convs := setAt s.convs a x }
def State.ain (s : State) (i : Nat) : AnaIn := getAt AnaIn.init s.ains i
def State.setAin (s : State) (i : Nat) (x : AnaIn) : State := { s with ains := setAt s.ains i x }
def State.trig (s : State) (t : Nat) : Trig := getAt Trig.init s.trigs t
def State.setTrig (s : State) (t : Nat) (x : Trig) : State := { s with trigs := setAt s.trigs t x }
def State.aout (s : State) (o : Nat) : AOut := getAt AOut.init s.aouts o
def State.setAout (s : State) (o : Nat) (x : AOut) : State := { s with aouts := setAt s.aouts o x }

def State.din (s : State) (i : Nat) : DigIn := getAt DigIn.init s.dins i
def State.setDin (s : State) (i : Nat) (x : DigIn) : State := { s with dins := setAt s.dins i x }
def State.dout (s : State) (o : Nat) : DigOut := getAt DigOut.init s.douts o
def State.setDout (s : State) (o : Nat) (x : DigOut) : State := { s with douts := setAt s.douts o x }
def State.supply (s : State) (q : Nat) : Supply := getAt Supply.init s.supplies q
def State.setSupply (s : State) (q : Nat) (x : Supply) : State := { s with supplies := setAt s.supplies q x }

def State.fifo (s : State) (f : Nat) : Fifo := getAt Fifo.init s.fifos f
def State.setFifo (s : State) (f : Nat) (x : Fifo) : State := { s with fifos := setAt s.fifos f x }
def State.ssd (s : State) (d : Nat) : Ssd := getAt Ssd.init s.ssds d
def State.setSsd (s : State) (d : Nat) (x : Ssd) : State := { s with ssds := setAt s.ssds d x }

/-- The engine named, and the state with it changed. -/
def State.eng (s : State) : Engine → PathEngine
  | .na => s.na
  | .nb => s.nb

def State.setEng (s : State) (e : Engine) (x : PathEngine) : State :=
  match e with
  | .na => { s with na := x }
  | .nb => { s with nb := x }

def otherEngine : Engine → Engine
  | .na => .nb
  | .nb => .na

/-- Applies a function to the numbers 0 to n − 1 in order. -/
def forNums (n : Nat) (s : State) (f : State → Nat → State) : State :=
  (List.range n).foldl f s

/-! Readiness and dies (R51, R67, R68). -/

/-- Readiness of function f, in the order of R66: BRINGUP until start-up says otherwise. -/
def State.ready (s : State) (f : Nat) : Ready := getAt ⟨1, 0, 0⟩ s.dict.ready f

def State.setReady (s : State) (f : Nat) (r : Ready) : State :=
  { s with dict := { s.dict with ready := setAt s.dict.ready f r } }

/-- The readiness word (R67). -/
def Ready.word (r : Ready) : Nat :=
  r.state * 2 ^ 28 +
    (if r.state = 1 ∨ r.state = 4 then r.step * 2 ^ 16 else 0) +
    (if r.state = 5 ∨ r.state = 6 then r.cause * 2 ^ 8 else 0)

/-- Whether a function serves accesses (R68). -/
def State.serves (s : State) (f : Nat) : Bool := (s.ready f).state = 2 || (s.ready f).state = 3

/-- State field of the die at subindex d of OD 1010 (R51). -/
def State.dieState (s : State) (d : Nat) : Nat := getAt 1 s.dict.die d

def State.setDie (s : State) (d st : Nat) : State :=
  { s with dict := { s.dict with die := setAt s.dict.die d st } }

/-- The number of a link in the order of R29. -/
def linkNum : Link → Nat
  | .cxNa => 0
  | .naCx => 1
  | .cxNb => 2
  | .nbCx => 3
  | .naNb => 4
  | .nbNa => 5
  | .cxAx => 6
  | .axCx => 7
  | .tickCx => 8
  | .tickNa => 9
  | .tickNb => 10
  | .tickFx => 11
  | .axFx => 12
  | .fxAx => 13

/-- Whether the items of a link are there and good in this base tick (R30, R32): a good flit has come in it, or none was ever
reported for this link. (DESIGN CHOICE, notes/assumptions/125.md) -/
def State.linkGood (s : State) (l : Link) : Bool :=
  let x := s.link (linkNum l)
  !x.failed && (!x.seen || x.good)

/-- Whether a record class is formed by AX, so that its items reach the recorder over the compute–analogue link (R453, R456). -/
def fromAx (cls : Nat) : Bool := 6 ≤ cls && cls ≤ 0x0D

/-- A record waits for the assembly of its tick (R454, R456); an item of AX that is invalid in its tick produces none. -/
def State.record (s : State) (cls inst tick off : Nat) (val : List Byte) : State :=
  if fromAx cls && !s.linkGood .axCx then s
  else { s with rcd := { s.rcd with waiting := ⟨cls, inst, tick, off, val⟩ :: s.rcd.waiting } }

/-- An EVENT record at the present boundary (R455). -/
def State.event (s : State) (code inst : Nat) (payload : List Byte) : State :=
  s.record 0x0E inst s.clock.tick 0 (leBytes 2 code ++ payload)

/-- A MARK for the next assembled tick (R472). -/
def State.mark (s : State) (code : Nat) (val : List Byte) : State :=
  { s with rcd := { s.rcd with marks := s.rcd.marks ++ [(code, val)] } }

/-- Whether a span of TIM clocks counted from an event of the tick that began at `start` can end before the present tick does. -/
def State.elapsed (s : State) (start span : Nat) : Bool := start + span < s.clock.timClk + 1563

/-- Whether CX computes: neither RESTARTING nor FAILED (R43, R51). -/
def State.cxUp (s : State) : Bool := s.dieState 1 ≠ 4 && s.dieState 1 ≠ 5

/-- Whether AX has not failed (R43). -/
def State.axUp (s : State) : Bool := s.dieState 4 ≠ 5

/-- Whether what CX sends AX arrives in this base tick (R30, R292, R295). -/
def State.cxToAx (s : State) : Bool := s.cxUp && s.linkGood .cxAx

/-- Whether what AX sends CX arrives in this base tick (R30, R43). -/
def State.axToCx (s : State) : Bool := s.axUp && s.linkGood .axCx

/-! The line cycle (R87) and instants. -/

def State.lcLen (s : State) : Nat := s.rn 0x2000 3
def State.lcPhase (s : State) : Nat := s.rn 0x2000 4

/-- Whether the present base tick opens a line cycle (R86, R87). -/
def State.atLc (s : State) : Bool := s.clock.tick % s.lcLen = s.lcPhase

/-- The tick time base (R84). -/
def State.tickTb (s : State) : TimeBase := s.tb (s.rn 0x2000 1)

/-- Present instant of the tick time base, in 2^-32 ns. -/
def State.now (s : State) : Nat := s.tickTb.val

/-- The first line-cycle boundary at or after a tick, under the length in force. -/
def State.nextLc (s : State) (tick : Nat) : Nat :=
  tick + (s.lcPhase + s.lcLen - tick % s.lcLen) % s.lcLen

/-- Whether a masked Rein bit is set as known to CX (R230, R256): pin mask and object mask against pins and objects. -/
def State.reinHit (s : State) (pinMask objMask : Nat) : Bool :=
  (pinMask &&& s.rein.pins &&& 3) ≠ 0 || (objMask &&& s.rn 0x3018 2) ≠ 0

/-- The readiness word in RESTARTING, with the last start-up step completed (R67). -/
def restartingWord (s : State) : Nat := 0x40000000 + s.rn 0xB010 1 * 65536

end Sys2Proof.Machine
end

