-- ==== Sys2Proof/Machine/Profile.lean ====
section
/-! DEFINITION. Jerk-limited curves (R258, R260) and the stop step (R195, R262), in binary64 under R251. Velocities are in counts
per base tick; displacements start at an integer anchor. -/

namespace Sys2Proof.Machine

/-- Half of a number and other small constants of the formulas. -/
def f2 : F64 := F64.ofInt 2
def f6 : F64 := F64.ofInt 6

/-- ±x by a sign. -/
def signed (s : Int) (x : F64) : F64 := if s < 0 then x.neg else if s = 0 then F64.zero else x

/-- vchange(u, w, L) of R258 under jerk J: the jerk phases' time and the constant phase's time. -/
def vchange (J u w L : F64) : F64 × F64 :=
  let dv := (w.sub u).abs
  if ((L.mul L).div J).le dv then
    let tj := L.div J
    (tj, (dv.div L).sub tj)
  else ((dv.div J).sqrt, F64.zero)

/-- dist(u, w, L). -/
def vdist (J u w L : F64) : F64 :=
  let t := vchange J u w L
  (((u.add w).div f2)).mul ((f2.mul t.1).add t.2)

/-- bound(u, w). -/
def vbound (A D u w : F64) : F64 :=
  if u.abs.lt w.abs && (0 ≤ u.sign * w.sign) then A else D

/-- The phases of a velocity change from u to w under L. -/
def changeSegs (J u w L : F64) : List Seg :=
  let t := vchange J u w L
  let s := (w.sub u).sign
  [⟨t.1, signed s J⟩, ⟨t.2, F64.zero⟩, ⟨t.1, signed (-s) J⟩]

/-- A velocity change; one that crosses zero is two, first to 0 under D and then away under A. -/
def velChange (J A D u w : F64) : List Seg :=
  if u.sign * w.sign < 0 then changeSegs J u F64.zero D ++ changeSegs J F64.zero w A
  else changeSegs J u w (vbound A D u w)

/-- Position, velocity and acceleration after t base ticks of one phase. -/
def segAt (j t p v a : F64) : F64 × F64 × F64 :=
  let a' := a.add (j.mul t)
  let v' := (v.add (a.mul t)).add (((j.mul t).mul t).div f2)
  let p' := ((p.add (v.mul t)).add (((a.mul t).mul t).div f2)).add ((((j.mul t).mul t).mul t).div f6)
  (p', v', a')

/-- The curve evaluated t base ticks after its start. -/
def curveAt : List Seg → F64 → F64 → F64 → F64 → F64 × F64 × F64
  | [], t, p, v, a => segAt F64.zero t p v a
  | g :: rest, t, p, v, a =>
    if t.le g.t then segAt g.j t p v a
    else
      let q := segAt g.j g.t p v a
      curveAt rest (t.sub g.t) q.1 q.2.1 q.2.2

/-- Duration of a curve. -/
def curveTime (l : List Seg) : F64 := l.foldl (fun t g => t.add g.t) F64.zero

/-- Phase Z: the phase that ramps the acceleration to 0, and the velocity and displacement at its end. (DEDUCED,
notes/assumptions/62.md) -/
def phaseZ (J v0 a0 : F64) : List Seg × F64 × F64 :=
  if a0.sign = 0 then ([], v0, F64.zero)
  else
    let t := a0.abs.div J
    let j := signed (-a0.sign) J
    let v := v0.add ((a0.mul a0.abs).div (f2.mul J))
    ([⟨t, j⟩], v, (segAt j t F64.zero v0 a0).1)

/-- Bisection of R258, `n` iterations over [lo, hi] of a rising `f`; the lower end is the one at which f does not exceed X. -/
def bisect (f : F64 → F64) (X : F64) : Nat → F64 → F64 → F64 × F64
  | 0, lo, hi => (lo, hi)
  | n + 1, lo, hi =>
    let mid := (lo.add hi).div f2
    if (f mid).le X then bisect f X n mid hi else bisect f X n lo mid

/-- The same where f falls as its argument rises: the upper end is the one at which f does not exceed X. -/
def bisectDown (f : F64 → F64) (X : F64) : Nat → F64 → F64 → F64 × F64
  | 0, lo, hi => (lo, hi)
  | n + 1, lo, hi =>
    let mid := (lo.add hi).div f2
    if (f mid).le X then bisectDown f X n lo mid else bisectDown f X n mid hi

/-- What planning yields: the phases, and the displacements of the points at which phases Z and R end, where the plan has those phases:
the stopping points of R259. -/
structure Plan where
  segs  : List Seg
  stops : List F64
  deriving DecidableEq, Repr

/-- Phase F of R258: from velocity u ≥ 0 towards a target X away, in direction s. -/
def phaseF (V A D J : F64) (s : Int) (u X : F64) : List Seg :=
  if X.sign = 0 then []
  else
    let total := fun vc => (vdist J u vc (vbound A D u vc)).add (vdist J vc F64.zero D)
    let vc :=
      if (total V).le X then V
      else if u.le V then (bisect total X 52 u V).1
      else (bisectDown (fun vc => (vdist J u vc D).add (vdist J vc F64.zero D)) X 52 V u).2
    let rest := (X.sub (vdist J u vc (vbound A D u vc))).sub (vdist J vc F64.zero D)
    let cruise := rest.div vc
    let cruise := if cruise.sign < 0 then F64.zero else cruise
    let up := changeSegs J u vc (vbound A D u vc)
    let down := changeSegs J vc F64.zero D
    (up ++ [Seg.mk cruise F64.zero] ++ down).map fun (g : Seg) => { g with j := signed s g.j }

/-- plan(p0, v0, a0, pT) of R258 with the target as a displacement from p0. -/
def planTo (V A D J v0 a0 target : F64) : Plan :=
  let z := phaseZ J v0 a0
  let v := z.2.1
  let p := z.2.2
  let stopZ := p.add (signed v.sign (vdist J v.abs F64.zero D))
  let x := target.sub p
  let s := x.sign
  let endZ := if a0.sign = 0 then [] else [p]
  if v.sign ≠ 0 && (v.sign ≠ s || x.abs.lt (vdist J v.abs F64.zero D)) then
    let back := changeSegs J v F64.zero D
    let p' := stopZ
    let x' := target.sub p'
    ⟨z.1 ++ back ++ phaseF V A D J x'.sign F64.zero x'.abs, endZ ++ [p']⟩
  else ⟨z.1 ++ phaseF V A D J s (signed s v) x.abs, endZ⟩

/-- A velocity move: phase Z, then the change to w (R260). -/
def planVel (A D J v0 a0 w : F64) : List Seg :=
  let z := phaseZ J v0 a0
  z.1 ++ velChange J A D z.2.1 w

/-- stop_step of R195 with dt base ticks: velocity and acceleration after the step; the displacement is velocity × dt. -/
def stopStep (dec jerk dt v a : F64) : F64 × F64 :=
  let a' :=
    if v.abs.le ((a.mul a).div (f2.mul jerk)) then (a.sub (jerk.mul dt)).max (jerk.mul dt)
    else (a.add (jerk.mul dt)).min dec
  let v' := signed v.sign ((v.abs.sub (a'.mul dt)).max F64.zero)
  if v'.sign = 0 then (F64.zero, F64.zero) else (v', a')

/-- rne(x × 2^32): a displacement in counts as an integer of 2^-32 counts (R251). -/
def toFix (x : F64) : Int := x.toIntScaled 32

/-- A dictionary velocity or acceleration, n × 2^-32. -/
def fix32 (n : Int) : F64 := F64.ofScaled n (-32)

/-- A dictionary jerk, n × 2^-48. -/
def fix48 (n : Int) : F64 := F64.ofScaled n (-48)

end Sys2Proof.Machine
end

