-- ==== Sys2Proof/Machine/Time.lean ====
section
/-! DEFINITION. Time bases (R89 to R98) and scheduled actions (R113 to R124) as operations over the state. -/

namespace Sys2Proof.Machine

/-! Time bases. -/

/-- The nominal increment, 4 ns (R89). -/
def nominalInc : Nat := 4 * 2 ^ 32

/-- The rate in use relative to nominal. -/
def TimeBase.rate (t : TimeBase) : Frac := Frac.mk' ((t.inc : Int) - nominalInc) nominalInc

/-- ppm as a rate. -/
def ppm (n : Nat) : Frac := Frac.mk' n 1000000

/-- The increment that a rate gives: nominal × (1 + rate) to the nearest 2^-32 ns (R92). -/
def incOfRate (r : Frac) : Nat := ((nominalInc : Int) + (r.mul (Frac.ofInt nominalInc)).round).toNat

/-- The mean of the frequency parts held (R91). -/
def meanFreq (l : List Frac) : Frac :=
  (l.foldl Frac.add Frac.zero).div (Frac.ofInt l.length)

/-- A time base enters HOLDOVER (R91): the mean of its last frequency parts without offset corrections, or the increment in use
where there was no evaluation; counted in OD 2010+n:0C. (DESIGN CHOICE, notes/assumptions/159.md) -/
def enterHoldover (s : State) (n : Nat) : State :=
  let t := s.tb n
  let inc := if t.freqs.isEmpty then t.inc else incOfRate (meanFreq t.freqs)
  (s.setTb n { t with st := .holdover, inc := inc, transmitter := none, masters := [], inCount := 0, beyond := 0 }).bump
    (0x2010 + n) 0x0C

/-- A time base enters ACQUIRING (R91); its next evaluation is a first one (R92). -/
def TimeBase.acquire (t : TimeBase) : TimeBase :=
  { t with st := .acquiring, first := true, inCount := 0, beyond := 0 }

/-- A mode takes effect at a base-tick boundary (R90, R91): FREE keeps the increment in use, PTP and GPTP enter ACQUIRING and
wait for a qualified time transmitter; f is at first the rate in use (R92). -/
def TimeBase.applyMode (t : TimeBase) : TimeBase :=
  match t.modePending with
  | none => t
  | some 0 => { t with st := .free, modePending := none, hold := false, transmitter := none, masters := [] }
  | some _ =>
    { t.acquire with modePending := none, hold := false, f := if t.st = .free then t.rate else t.f, transmitter := none,
                     masters := [] }

/-- Every mode that was written takes effect; no grandmaster is in use from then on (R90, R91, R96). -/
def applyModes (s : State) : State :=
  forNums 8 s fun s n =>
    if (s.tb n).modePending.isNone then s else (s.setTb n (s.tb n).applyMode).setNum (0x2010 + n) 0x0A 0

/-- The TIM clocks until the tick time base reaches its next multiple of 6,250 ns (R83). -/
def timClocksToTick (t : TimeBase) : Nat :=
  let next := (t.val / tickUnits + 1) * tickUnits
  (next - t.val + t.inc - 1) / t.inc

/-- A time base after n TIM clocks (R89). -/
def TimeBase.run (t : TimeBase) (n : Nat) : TimeBase := { t with val := (t.val + n * t.inc) % tbModulus }

/-- The value a time base is predicted to have at the boundary `k` base ticks after the last one (R117). -/
def predictTb (s : State) (n k : Nat) : Nat :=
  let tt := s.tickTb
  let t := s.tb n
  let ahead := (tt.val / tickUnits + k) * tickUnits - tt.val
  if n = s.rn 0x2000 1 then tt.val + ahead else t.val + ahead * t.inc / tt.inc

/-! Leads as actions see them (R101). -/

/-- The LEADPOS part of a Lead's position. -/
def Lead.pos64 (l : Lead) : Nat := l.pos / 2 ^ 32 % 2 ^ 64

/-- p + k·v in whole lu, cut towards minus infinity (R116). (DEDUCED, notes/assumptions/10.md) -/
def Lead.ahead (l : Lead) (k : Nat) : Nat := ofSigned 64 ((l.pos64 : Int) + (k : Int) * l.vel / 2 ^ 32)

/-- Whether a Lead is CYCLIC (R102). -/
def cyclicLead (s : State) (n : Nat) : Bool := s.rn (0x2040 + n) 3 = 0

/-- Whether a Lead is in NONE or LOST (R106). -/
def leadGone (s : State) (n : Nat) : Bool := (s.lead n).st = 0 || (s.lead n).st = 4

/-! Acceptance and past-due handling (R118, R119). -/

/-- The Lead position that a target must not lie behind in a direction (R118). -/
def lateEdge (l : Lead) (backward : Bool) : Nat :=
  if backward then (if l.vel < 0 then l.ahead 2 else l.pos64) else (if l.vel > 0 then l.ahead 2 else l.pos64)

/-- Whether a target is past due in the present tick (R118). -/
def pastDue (s : State) (k : ActionKind) (backward : Bool) : Bool :=
  match k with
  | .nextBoundary => false
  | .tb n t => t < predictTb s n 2
  | .lead n t =>
    let e := lateEdge (s.lead n) backward
    if backward then diff64 t e ≥ 0 else diff64 t e < 0

/-- Whole laps that bring a Lead target to the first position that is not past due (R119). -/
def lapsToMove (s : State) (n t : Nat) (backward : Bool) : Nat :=
  let e := lateEdge (s.lead n) backward
  if backward then ((diff64 t e) / 2 ^ 32 + 1).toNat else ((2 ^ 32 - 1 - diff64 t e) / 2 ^ 32).toNat

/-- A Lead position moved by whole laps. -/
def moveLaps (t laps : Nat) (backward : Bool) : Nat :=
  if backward then ofSigned 64 ((t : Int) - laps * 2 ^ 32) else (t + laps * 2 ^ 32) % 2 ^ 64

/-- Lateness in ns and Lead distance in lu of a LATE_FIRE at boundary k+2 (R119). (DEDUCED, notes/assumptions/28.md) -/
def lateness (s : State) (k : ActionKind) (backward : Bool) : Nat × Nat :=
  match k with
  | .nextBoundary => (0, 0)
  | .tb n t => ((predictTb s n 2 - t) / 2 ^ 32, 0)
  | .lead n t =>
    let l := s.lead n
    let d := if backward then diff64 t (l.ahead 2) else diff64 (l.ahead 2) t
    let v := l.vel.natAbs
    (if v = 0 then 0 else d.toNat * 2 ^ 32 * 6250 / v, d.toNat)

/-- Bits of the apply record's status word (R77, R119). -/
def statLate : Nat := 1
def statNextLap : Nat := 2
def statJumped : Nat := 4

/-- A LATE_FIRE: counted, with its lateness, and due at boundary k+2 (R119, R125). (DESIGN CHOICE, notes/assumptions/160.md) -/
def fireLate (s : State) (a : Action) : State :=
  let l := lateness s a.kind a.backward
  let s := ((s.bump 0x2050 3).setNum 0x2050 4 (l.1 % 2 ^ 32)).setNum 0x2050 5 (l.2 % 2 ^ 32)
  { s with actions := { s.actions with
      due := s.actions.due ++ [⟨{ a with status := a.status + statLate }, s.clock.tick + 2, 0⟩] } }

/-- NEXT_LAP and REPEAT need a CYCLIC Lead (R119, R124). -/
def notModular (s : State) (k : ActionKind) (attr : Nat) (repeats : Bool) : Bool :=
  match k with
  | .nextBoundary => false
  | .tb _ _ => attr = 2 || repeats
  | .lead n _ => (attr = 2 || repeats) && !cyclicLead s n

/-- An action against a Lead in NONE or LOST is refused (R106, R124). -/
def onLostLead (s : State) (k : ActionKind) : Bool :=
  match k with
  | .lead n _ => leadGone s n
  | _ => false

/-- Why an action is refused, in the order of R65: table full, past due under LATE_REJECT, then the lowest function code. -/
def actionAbort (s : State) (k : ActionKind) (backward : Bool) (attr : Nat) (repeats : Bool) : Nat :=
  if s.actions.armed.length ≥ 4096 then abNoResource
  else if attr = 1 && pastDue s k backward then abPastDue
  else if notModular s k attr repeats then 0x2001
  else if onLostLead s k then 0x2002
  else abOk

/-- An action enters the table as its last. -/
def keepArmed (s : State) (a : Action) : State := { s with actions := { s.actions with armed := s.actions.armed ++ [a] } }

/-- An action that the table takes: armed, fired late, or moved by whole laps (R118, R119). -/
def enterAction (s : State) (k : ActionKind) (backward : Bool) (attr : Nat) (repeats : Bool) (w : Work) : State :=
  let a : Action := ⟨s.actions.nextId, k, backward, attr, repeats, w, s.clock.tick, 0, 0⟩
  let s := { s with actions := { s.actions with nextId := s.actions.nextId + 1 } }
  if pastDue s k backward then
    match attr, k with
    | 2, .lead n t =>
      let laps := lapsToMove s n t backward
      keepArmed (s.bump 0x2050 7) { a with kind := .lead n (moveLaps t laps backward), status := statNextLap, laps := laps }
    | _, _ => fireLate s a
  else keepArmed s a

/-- An action is offered to the table, which refuses it under R124 or takes it; a LATE_REJECT discard is counted (R119, R125). -/
def armAction (s : State) (k : ActionKind) (backward : Bool) (attr : Nat) (repeats : Bool) (w : Work) : State :=
  let code := actionAbort s k backward attr repeats
  if code = abOk then enterAction s k backward attr repeats w
  else if code = abPastDue then s.bump 0x2050 6
  else s

/-! The comparison of base tick j (R115 to R121). -/

/-- What the comparison of one armed action finds. -/
inductive Crossing where
  | wait
  | fire (offset : Nat) (jumped : Bool)
  | skip
  deriving DecidableEq, Repr

/-- One action on a Lead compared over [lo, hi) after a jump of Δ lu (R116, R121). -/
def crossLead (lo hi : Nat) (jump : Int) (skipPolicy : Bool) (target : Nat) (backward : Bool) : Crossing :=
  let lo' := ofSigned 64 ((lo : Int) + jump)
  let inJump :=
    if backward then jump < 0 && diff64 lo target ≥ 0 && diff64 lo' target < 0
    else jump > 0 && diff64 target lo ≥ 0 && diff64 target lo' < 0
  if inJump then (if skipPolicy then .skip else .fire 0 true)
  else
    let d := diff64 hi lo'
    if backward then
      if d < 0 && diff64 lo' target ≥ 0 && diff64 hi target < 0 then
        .fire ((diff64 lo' target * 6250 / (-d)).toNat) false
      else .wait
    else if d > 0 && diff64 target lo' ≥ 0 && diff64 target hi < 0 then
      .fire ((diff64 target lo' * 6250 / d).toNat) false
    else .wait

/-- One action on a time base compared against its predicted values (R117). -/
def crossTb (lo hi target : Nat) : Crossing :=
  if hi ≤ target then .wait
  else if target ≤ lo then .fire 0 false
  else .fire ((target - lo) * 6250 / (hi - lo)) false

/-- Whether an action is a scheduled dictionary write. -/
def Work.isWrite : Work → Bool
  | .writes .. => true
  | _ => false

/-- What base tick j finds for one armed action. A NEXT_BOUNDARY action is due at the first boundary of its class at least 2
base ticks after its acceptance, for a dictionary write a line-cycle boundary (R113, R78). -/
def crossing (s : State) (a : Action) : Crossing :=
  match a.kind with
  | .nextBoundary =>
    let m := s.clock.tick + 1
    if a.accepted + 2 ≤ m && (!a.work.isWrite || m % s.lcLen = s.lcPhase) then .fire 0 false else .wait
  | .tb n t => crossTb (predictTb s n 1) (predictTb s n 2) t
  | .lead n t =>
    let l := s.lead n
    crossLead l.hiPrev (l.ahead 2) (l.jumpBy / 2 ^ 32) (s.rn (0x2040 + n) 0x0D = 1) t a.backward

/-- The target of a REPEAT action after it was handled: the next lap in its direction beyond what the Lead has passed (R116,
R121). (DEDUCED, notes/assumptions/30.md) -/
def rearmed (s : State) (a : Action) (jumped : Bool) : Action :=
  match a.kind with
  | .lead n t =>
    let l := s.lead n
    let lo' := ofSigned 64 ((l.hiPrev : Int) + l.jumpBy / 2 ^ 32)
    let laps := if !jumped then 1
      else if a.backward then (max 1 ((2 ^ 32 - 1 + diff64 t lo') / 2 ^ 32)).toNat
      else (max 1 ((2 ^ 32 - 1 - diff64 t lo') / 2 ^ 32)).toNat
    { a with kind := .lead n (moveLaps t laps a.backward), status := 0, laps := 0 }
  | _ => a

/-- An action fires in the coming tick at an offset in ns, by a jump or by a crossing (R115, R116, R121). -/
def fireAt (s : State) (a : Action) (off : Nat) (jumped : Bool) : State :=
  let s := if jumped then s.bump 0x2050 8 else s
  let d : Due := ⟨{ a with status := a.status + if jumped then statJumped else 0 }, s.clock.tick + 1, off⟩
  { s with actions := { s.actions with due := s.actions.due ++ [d] } }

/-- A REPEAT action handled in a jumped span is compared again at its new position over the rest of the interval (R116, R121). -/
def compareAgain (s : State) (a : Action) : State :=
  match a.kind with
  | .lead n t =>
    let l := s.lead n
    match crossLead (ofSigned 64 ((l.hiPrev : Int) + l.jumpBy / 2 ^ 32)) (l.ahead 2) 0 false t a.backward with
    | .fire off _ => keepArmed (fireAt s a off false) (rearmed s a false)
    | _ => keepArmed s a
  | _ => keepArmed s a

/-- The first instant i × T + O of a periodic rate on a time base after a value, in 2^-32 ns (R329, R408). -/
def nextTarget (v period off : Nat) : Nat :=
  let t := max 1 period * 2 ^ 32
  let o := off * 2 ^ 32
  if v < o then o else ((v - o) / t + 1) * t + o

/-- The next target of a trigger of kind TB whose present one is handled (R408): the first one after it and after what the time
base has passed. (DEDUCED, notes/assumptions/162.md) -/
def nextTb (s : State) (a : Action) : Option Action :=
  match a.work, a.kind with
  | .trigger t none, .tb n target =>
    let i := 0x6200 + t
    if s.rn i 1 = 2 then some { a with kind := .tb n (nextTarget (max target (predictTb s n 1)) (s.rn i 3) (s.rn i 4)) } else none
  | _, _ => none

/-- A TB trigger's next target, compared over the same interval, in which it may lie as well. -/
def compareNextTb (s : State) (a : Action) : State :=
  match crossing s a with
  | .fire off _ =>
    let s := fireAt s a off false
    match nextTb s a with
    | some b => keepArmed s b
    | none => s
  | _ => keepArmed s a

/-- One armed action compared and taken from, or kept in, the table. (DEDUCED, notes/assumptions/31.md) -/
def compareOne (s : State) (a : Action) : State :=
  match crossing s a with
  | .wait => keepArmed s a
  | .skip =>
    let s := s.bump 0x2050 9
    if a.repeats then compareAgain s (rearmed s a true) else s
  | .fire off jumped =>
    let s := fireAt s a off jumped
    if !a.repeats then
      match nextTb s a with
      | some b => compareNextTb s b
      | none => s
    else if jumped then compareAgain s (rearmed s a true) else keepArmed s (rearmed s a false)

/-- The comparison of every armed action in its order of acceptance, after which each Lead's prediction becomes the next lower
end (R116). Actions accepted in this tick are first compared in the next one (R115). (DEDUCED, notes/assumptions/117.md) -/
def compareActions (s : State) : State :=
  let list := s.actions.armed
  let s := { s with actions := { s.actions with armed := [] } }
  let s := list.foldl compareOne s
  forNums 8 s fun s n =>
    let l := s.lead n
    s.setLead n { l with hiPrev := l.ahead 2 }

/-! What an action's firing answers. -/

/-- Whether the present tick opens a line cycle whose LINE_CYCLE_BOUNDARY is still to come. -/
def lcAhead (s : State) : Bool := s.clock.lcStarted && s.atLc && s.clock.lcDone ≠ some s.clock.tick

/-- The count of the line cycle that holds the present instant: at a line-cycle boundary whose LINE_CYCLE_BOUNDARY is still to
come, the new cycle has begun (R77, R87). -/
def cycleCount (s : State) : Nat :=
  let c := s.rn 0x2000 5
  if lcAhead s && s.clock.lcDone.isSome then (c + 1) % 2 ^ 64 else c

/-- The apply record of R77: line-cycle count, TB0 time and status word at application. (DESIGN CHOICE, notes/assumptions/12.md;
DEDUCED, notes/assumptions/22.md) -/
def applyRecord (s : State) (tb0 status : Nat) : List Byte :=
  leBytes 8 (cycleCount s) ++ leBytes 12 (toTbtime tb0) ++ leBytes 4 status

/-- Whether a client is there to hear an answer: a session that is still open, a station, or the program. -/
def hears (s : State) (c : ClientId) : Bool :=
  match c with
  | .session n => (getAt none s.dict.sessions n.val).isSome
  | _ => true

/-- The answer to a write applied when TB0 has a value (R76, R77). -/
def answerAt (s : State) (c : ClientId) (txn op : Nat) (elems : List Elem) (abort tb0 status : Nat) : State :=
  let e := elems.headD ⟨0, 0, .num 0⟩
  if hears s c then
    s.emit (.response c op txn e.index e.sub (max 1 elems.length) abort (if abort = 0 then applyRecord s tb0 status else []))
  else s

/-- The answer to a write applied at the boundary that the block has reached (R76, R77). -/
def answerWrite (s : State) (c : ClientId) (txn op : Nat) (elems : List Elem) (abort status : Nat) : State :=
  answerAt s c txn op elems abort (s.tb 0).val status

/-- The answer to a write applied as its request completes: the instant lies at a free offset of the base tick
(notes/assumptions/4.md). -/
def answerDirect (s : State) (c : ClientId) (txn op : Nat) (elems : List Elem) (abort : Nat) : State :=
  let f := s.free
  answerAt f.2 c txn op elems abort (((s.tb 0).val + f.1 % tickUnits) % tbModulus) 0

/-- The client of a scheduled write that an action carries, with its TRANSACTION. -/
def Work.who : Work → Option (ClientId × Nat)
  | .writes c txn _ _ => some (c, txn)
  | .trigger _ who => who
  | .pulse _ who => who
  | .fieldEdge _ _ who => who
  | _ => none

/-- Whether an entry is a command record, whose answer comes at its take-up or, with an apply block, at arming (R257). -/
def isCommandRecord (index sub : Nat) : Bool :=
  (0x5000 ≤ index && index < 0x5800 && sub = 0x1C) || (0x5800 ≤ index && index < 0x5900 && sub = 4)

/-- (DEDUCED, notes/assumptions/61.md) -/
def answeredAtArm (w : Work) : Bool :=
  match w with
  | .writes _ _ _ elems => elems.any fun e => isCommandRecord e.index e.sub
  | _ => false

/-- The boundary at which an action is carried out whose crossing lies at an offset of a tick (R114). -/
def Due.boundary (d : Due) : Nat := d.tick + b2n (d.offset > 0)

/-- Whether one action stands before another at their boundary: the earlier due instant, then the earlier acceptance (R123). -/
def Due.before (a b : Due) : Bool :=
  let i := fun (d : Due) => d.tick * 6250 + d.offset
  i a < i b || (i a = i b && a.action.id ≤ b.action.id)

/-- Actions due, those of the earlier instant first, so that the later one stands (R123). -/
def sortDue (l : List Due) : List Due :=
  l.foldr (fun d acc => (acc.takeWhile fun q => !d.before q) ++ d :: acc.dropWhile fun q => !d.before q) []

/-- The answer to the scheduled write that an action carries, if it carries one. -/
def answerWork (s : State) (w : Work) (abort tb0 status : Nat) : State :=
  match w with
  | .writes c txn op elems => answerAt s c txn op elems abort tb0 status
  | .pulse ch (some q) => answerAt s q.1 q.2 0x02 [⟨0x7400 + ch, 0x0B, .num 0⟩] abort tb0 status
  | .trigger t (some q) => answerAt s q.1 q.2 0x02 [⟨0x6200 + t, 0x0B, .num 0⟩] abort tb0 status
  | .fieldEdge o _ (some q) => answerAt s q.1 q.2 0x02 [⟨0x7300 + o, 3, .num 0⟩] abort tb0 status
  | _ => s

/-- A step of time base n to a new value (R84, R92, R96), with its effect on armed actions (R122): one whose target the step has
passed is handled as if accepted now. -/
def stepActions (s : State) (n oldVal newVal : Nat) : State :=
  let list := s.actions.armed
  let s := { s with actions := { s.actions with armed := [] } }
  list.foldl (fun s a =>
    match a.kind with
    | .tb m t =>
      if m = n && oldVal ≤ t && t < newVal then
        if a.attr = 1 then
          let s := s.bump 0x2050 6
          answerWork s a.work abPastDue 0 0
        else fireLate s a
      else { s with actions := { s.actions with armed := s.actions.armed ++ [a] } }
    | _ => { s with actions := { s.actions with armed := s.actions.armed ++ [a] } }) s

def stepTb (s : State) (n newVal : Nat) : State :=
  let t := s.tb n
  stepActions (s.setTb n { t with val := newVal % tbModulus, first := true }) n t.val (newVal % tbModulus)

/-! The servo (R91, R92). -/

/-- The corrections of a port in 2^-16 ns: MAC stamp correction of R98 plus the added one of R100. -/
def ingressCorr (s : State) (p : Nat) : Int :=
  let base : Int := if p ≥ 8 then -61600 else if s.rn (0x3010 + p % 4) 1 = 0 then -352000 else -1312000
  rneDiv ((base + s.ri (0x2020 + p) 7 32) * 65536) 1000

def egressCorr (s : State) (p : Nat) : Int :=
  let base : Int := if p ≥ 8 then 44800 else if s.rn (0x3010 + p % 4) 1 = 0 then 184000 else 864000
  rneDiv ((base + s.ri (0x2020 + p) 8 32) * 65536) 1000

/-- A sync interval of 2^log s in 2^-16 ns. -/
def syncUnits (log : Int) : Frac := (Frac.ofInt (65536 * 1000000000)).mul
  (if 0 ≤ log then Frac.ofInt (2 ^ log.toNat) else Frac.mk' 1 (2 ^ (-log).toNat))

/-- One servo evaluation of time base n with offset o at instant t, both in 2^-16 ns (R92). -/
def servo (s : State) (n : Nat) (o : Int) (t : Nat) (log : Int) : State :=
  let b := s.tb n
  let i := 0x2010 + n
  let isTick := n = s.rn 0x2000 1
  let mayStep := !(isTick && s.clock.lcStarted)
  let beyondStep : Bool := o.natAbs > s.rn i 7 * 65536
  let f := if b.first then b.f
    else (b.f.add b.c).sub ((Frac.ofInt (o - b.lastOffset)).div (Frac.ofInt ((t : Int) - b.lastInstant)))
  let slew := ppm (s.rn i 8)
  let doStep := beyondStep && mayStep
  let c := if doStep then Frac.zero else ((Frac.ofInt (-o)).div (syncUnits log)).clamp slew.neg slew
  let rate := (f.add c).clamp (ppm 500).neg (ppm 500)
  let lock := s.rn i 9 * 65536
  let within : Bool := o.natAbs ≤ lock
  let inCount := if within then b.inCount + 1 else 0
  let beyond := if o.natAbs > 10 * lock then b.beyond + 1 else 0
  let denied := if within then false else if beyondStep && !mayStep then true else b.stepDenied
  let b := { b with inc := incOfRate rate, f := f, c := c, lastOffset := o, lastInstant := t, first := false,
                    freqs := (f :: b.freqs).take 16, inCount := inCount, beyond := beyond, stepDenied := denied,
                    lastSync := s.clock.timClk, logSync := log }
  let b := if b.st = .acquiring && inCount ≥ 16 then { b with st := .locked, beyond := 0 }
    else if b.st = .locked && beyond ≥ 4 then b.acquire else b
  let s := s.setTb n b
  let s := if beyondStep then s.bump i 0x0B else s
  let s := s.setNum i 5 (ofSigned 64 o)
  if doStep then stepTb s n ((b.val : Int) - o * 65536).toNat else s

end Sys2Proof.Machine
end

