-- ==== Sys2Proof/Machine/Leads.lean ====
section
/-! DEFINITION. The Leads (R101 to R112): one sample of each at every base-tick boundary, source samples, re-references, states
and the status word; windows (R126 to R129). Positions are in 2^-32 lu, velocities in 2^-32 lu per base tick. -/

namespace Sys2Proof.Machine

/-- Lead state codes of R106. -/
def ldNone : Nat := 0
def ldValid : Nat := 1
def ldExtra : Nat := 2
def ldStopping : Nat := 3
def ldLost : Nat := 4

/-- Signed difference of two 96-bit positions. -/
def diff96 (a b : Int) : Int := toSigned 96 (ofSigned 96 (a - b))

/-- A position moved, modulo 2^96. -/
def addPos (p : Nat) (d : Int) : Nat := ofSigned 96 ((p : Int) + d)

/-- Counts scaled by N counts per D laps, exact and truncated (R103). -/
def scaleCount (s : State) (n : Nat) (c : Int) : Int :=
  Int.tdiv (c * s.rn (0x2040 + n) 5 * 2 ^ 64) (max 1 (s.rn (0x2040 + n) 4))

/-- The speed limit of R101, 2^30 lu per base tick. -/
def maxLeadVel : Int := 2 ^ 62

/-- A velocity saturated at the limit, and OVERSPEED. -/
def limitVel (v : Int) : Int × Bool :=
  if v > maxLeadVel then (maxLeadVel, true) else if v < -maxLeadVel then (-maxLeadVel, true) else (v, false)

/-- Sample of a Lead on an encoder at the present boundary: position before the origin, and velocity (R103). A source instance
above 15 is taken modulo 16. (DEDUCED, notes/assumptions/24.md; DESIGN CHOICE, notes/assumptions/150.md) -/
def encoderSample (s : State) (n : Nat) : Int × Int :=
  let e := s.enc (s.rn (0x2040 + n) 2 % 16)
  let w := s.rn (0x2040 + n) 9
  let old := (e.hist.find? fun h => h.1 + w ≤ s.clock.tick).getD (0, e.count, e.lastEdge)
  let dt : Int := (e.lastEdge : Int) - old.2.2
  let v := if dt ≤ 0 then 0 else Int.tdiv (scaleCount s n (e.count - old.2.1)) dt * 2500
  let one := scaleCount s n 1
  let frac := min (Int.tdiv (v * ((s.clock.tick * 2500 : Nat) - (e.lastEdge : Int))) 2500) one
  (scaleCount s n e.count + frac, v)

/-- Rounds a rate in laps per s^k to units of 2^-32 lu per base tick^k: × 2^64 × (6.25 µs)^k. -/
def lapsToUnits (x : F64) (k : Nat) : Int :=
  ((x.toFrac.mul (Frac.ofInt (2 ^ 64))).mul (Frac.mk' (625 ^ k) (100000000 ^ k))).round

/-- The Lead stop deceleration in 2^-32 lu per base tick² (R106). -/
def stopDecel (s : State) (n : Nat) : Int := max 1 (lapsToUnits (F64.ofBits32 (s.rn (0x2040 + n) 0x11)) 2)

/-- A velocity brought nearer to 0 by d. -/
def towardsZero (v d : Int) : Int := if v > 0 then max 0 (v - d) else min 0 (v + d)

/-- A virtual Lead's velocity in laps/s and acceleration in laps/s² after so many base ticks of a velocity change (R105, R260). -/
def VirtualPlan.eval (p : VirtualPlan) : F64 × F64 :=
  let acc := F64.ofBits32 p.acc
  let segs := planVel acc acc (F64.ofBits32 p.jerk) p.v0 p.a0 (F64.ofBits p.cmd)
  let t := (F64.ofInt (625 * p.run)).div (F64.ofInt 100000000)
  if (curveTime segs).le t then (F64.ofBits p.cmd, F64.zero) else (curveAt segs t F64.zero p.v0 p.a0).2

/-- A virtual Lead's velocity change at this base tick: the change in progress runs on; a write takes effect at the next base
tick and plans it again from the velocity and acceleration that the Lead has at that tick (R105). (DEDUCED,
notes/assumptions/25.md) -/
def virtualStep (s : State) (n : Nat) (l : Lead) : VirtualPlan × F64 × F64 :=
  let i := 0x2040 + n
  let old := l.plan.map fun p => { p with run := p.run + 1 }
  let now := (old.map VirtualPlan.eval).getD (l.velF, l.acc)
  let fresh : VirtualPlan := ⟨now.1, now.2, 0, s.rn i 0x0E, s.rn i 0x0F, s.rn i 0x10⟩
  match old with
  | some p => if p.cmd = fresh.cmd && p.acc = fresh.acc && p.jerk = fresh.jerk then (p, now.1, now.2) else (fresh, fresh.eval.1, fresh.eval.2)
  | none => (fresh, fresh.eval.1, fresh.eval.2)

/-- The part of a SLEW that one tick's travel adds (R108). -/
def slewPart (l : Lead) (travel : Int) : Int :=
  if l.slewDist ≤ 0 then l.slewLeft
  else if (travel.natAbs : Int) ≥ l.slewDist then l.slewLeft
  else Int.tdiv (l.slewLeft * travel.natAbs) l.slewDist

/-- The part of a spread error that one tick adds: nothing while it waits for the next line cycle, then equal parts (R104). -/
def spreadPart (l : Lead) : Int :=
  if l.spreadTicks = 0 then 0 else if l.spreadTicks = 1 then l.spread else Int.tdiv l.spread l.spreadTicks

/-- A Lead's source kind of R111. -/
def leadSource (s : State) (n : Nat) : Nat := s.rn (0x2040 + n) 1

/-- Whether the encoder of a Lead delivers samples: switched on and free of faults (R103, R106). -/
def encoderDelivers (s : State) (n : Nat) : Bool :=
  let e := s.rn (0x2040 + n) 2 % 16
  !(s.enc e).faultTick && !(s.enc e).lineFault && s.rn (0x7500 + e) 1 ≠ 0

/-- The instant of the present base-tick boundary in ns of the tick time base. -/
def tickNs (s : State) : Nat := s.tickTb.val / tickUnits * 6250

/-- A Lead on an encoder at the new boundary (R103): the first good sample sets the origin, and without one the Lead runs on. A
resume goes to the position that the encoder gives (R108). -/
def encoderAdvance (s : State) (n : Nat) (l : Lead) : Lead :=
  if !encoderDelivers s n then { l with pos := addPos l.pos l.vel, faulted := true }
  else
    let q := encoderSample s n
    let v := limitVel q.2
    let origin := if l.started then l.origin else (l.pos : Int) - q.1
    let p := ofSigned 96 (origin + q.1)
    let l := { l with started := true, faulted := false, origin := origin, vel := v.1, overspeed := v.2 }
    if l.resumeDue then { l with jumpPending := diff96 p l.pos, resumeDue := false } else { l with pos := p }

/-- A virtual Lead at the new boundary (R105). -/
def virtualAdvance (s : State) (n : Nat) (l : Lead) : Lead :=
  let q := virtualStep s n l
  let v := limitVel (lapsToUnits q.2.1 1)
  { l with plan := some q.1, velF := q.2.1, acc := q.2.2, vel := v.1, overspeed := v.2, pos := addPos l.pos l.vel }

/-- A Lead of a station or Henvy source at the new boundary: the velocity last formed, and at the start of a line cycle the error that
waits begins to be spread (R104). A resume goes to the last sample advanced by its velocity (R108). -/
def sampledAdvance (s : State) (l : Lead) : Lead :=
  let v := limitVel (l.velNew.getD l.vel)
  let l := { l with overspeed := if l.velNew.isSome then v.2 else l.overspeed, velNew := none,
                    spreadTicks := if l.spreadWait && s.atLc then s.lcLen else l.spreadTicks,
                    spreadWait := l.spreadWait && !s.atLc }
  match l.resumeDue, l.last with
  | true, some q =>
    let p := l.origin + q.pos + Int.tdiv (q.vel * ((tickNs s : Nat) - q.time)) 6250
    { l with vel := (limitVel q.vel).1, overspeed := (limitVel q.vel).2, jumpPending := diff96 p l.pos, resumeDue := false,
             spread := 0, spreadTicks := 0, spreadWait := false }
  | _, _ =>
    let d := spreadPart l
    { l with vel := v.1, pos := addPos l.pos (v.1 + d), spread := l.spread - d, spreadTicks := l.spreadTicks - 1, corr := l.corr + d }

/-- A Lead that its stop ramp slows down (R106). -/
def stoppingAdvance (s : State) (n : Nat) (l : Lead) : Lead :=
  { l with vel := towardsZero l.vel (stopDecel s n), pos := addPos l.pos l.vel, overspeed := false }

/-- Position and velocity of a Lead at the new boundary before jumps and slews, by its source and state (R103 to R106). While AX has
failed, the other dies run it on at its last velocity (R110). -/
def leadAdvance (s : State) (n : Nat) (l : Lead) : Lead :=
  if l.st = ldNone || l.st = ldLost then { l with vel := 0, velNew := none, overspeed := false }
  else if l.st = ldStopping then stoppingAdvance s n l
  else if !s.axUp then { l with pos := addPos l.pos l.vel }
  else
    match leadSource s n with
    | 1 => encoderAdvance s n l
    | 3 => virtualAdvance s n l
    | _ => sampledAdvance s l

/-- Jump and slew of one tick: the amounts added as a jump (R104, R108, R121) and the slewed part. The frame of the source moves with a
re-reference. -/
def leadShift (l : Lead) : Lead :=
  let sl := if l.slewLeft = 0 then 0 else slewPart l l.vel
  let left := l.slewLeft - sl
  let dist := if left = 0 then 0 else l.slewDist - l.vel.natAbs
  let jump := l.jumpPending + l.refPending
  { l with pos := addPos l.pos (jump + sl), jumped := jump ≠ 0, jumpBy := jump, jumpPending := 0, refPending := 0,
           slewLeft := left, slewDist := dist, origin := l.origin + l.refPending + sl, corr := l.corr + jump + sl }

/-- REVERSED for the first tick whose velocity is non-zero and opposite to the last non-zero one (R107). -/
def leadDir (l : Lead) : Lead :=
  if l.vel = 0 then { l with reversed := false }
  else { l with reversed := l.lastDir ≠ 0 && l.vel.sign ≠ l.lastDir, lastDir := l.vel.sign }

/-- State changes that a tick itself makes: a faulted encoder, and the return from it (R106). -/
def leadState (s : State) (n : Nat) (l : Lead) : Lead :=
  if !s.axUp || leadSource s n ≠ 1 then l
  else if l.st = ldValid && l.faulted && l.started then { l with st := ldExtra, sinceTick := s.clock.tick }
  else if l.st = ldExtra && !l.faulted then { l with st := ldValid }
  else l

/-- Sample j of Lead n (R101): the tick number has already advanced. -/
def formLead (s : State) (n : Nat) : State :=
  let l := s.lead n
  let l := leadAdvance s n { l with pred := l.ahead 1 }
  let l := if leadSource s n = 1 && s.axUp && encoderDelivers s n then { l with sampled := true, missing := 0 } else l
  let l := leadDir (leadShift (leadState s n l))
  let keep := 2 * s.lcLen + 200
  s.setLead n { l with hist := ((s.clock.tick, l.pos) :: l.hist).take keep, corrs := (l.corr :: l.corrs).take keep }

/-- A position between samples, by its instant in ns (R104, R128): the samples held are (tick, position), newest first. -/
def leadAt (hist : List (Nat × Nat)) (ns : Int) : Int :=
  match hist with
  | [] => 0
  | [(_, p)] => p
  | (t1, p1) :: (t0, p0) :: rest =>
    if ns ≥ (t0 : Int) * 6250 then
      (p0 : Int) + Int.tdiv (diff96 p1 p0 * (ns - (t0 : Int) * 6250)) (((t1 : Int) - t0) * 6250)
    else leadAt ((t0, p0) :: rest) ns

/-- The Lead stamp of an event at `offset` units of 0.625 ns in tick t: p[t] + (p[t+1] − p[t]) × offset / 6,250 ns (R128). -/
def leadStamp (l : Lead) (tick offset : Nat) : Nat :=
  let at_ := fun (k : Nat) => ((l.hist.find? fun h => h.1 = k).map (·.2)).getD l.pos
  ofSigned 96 ((at_ tick : Int) + Int.fdiv (diff96 (at_ (tick + 1)) (at_ tick) * offset) 10000)

/-- Q(t_s) of R104: the position that AT produced for t_s, with every correction that has been added since or is still to be added. -/
def leadQ (l : Lead) (ns : Int) : Int :=
  leadAt ((l.hist.zip l.corrs).map fun h => (h.1.1, addPos h.1.2 (-h.2))) ns + l.corr + l.spread + l.jumpPending

/-- A sample of a station or Henvy Lead with value p_s at t_s ns (R104): velocity from the last two samples; the error is added to what is
to be spread over the next line cycle, or with it as a jump. The first good sample of a source sets the origin (R109). In STOPPING
and LOST samples are not applied (R106). -/
def takeSample (s : State) (n : Nat) (p : Int) (t : Int) : State :=
  let l := s.lead n
  let v := match l.last with
    | some q => if t - q.time ≤ 0 then q.vel else Int.tdiv (diff96 p q.pos * 6250) (t - q.time)
    | none => 0
  let l := { l with last := some ⟨p, v, t⟩, sampled := true, missing := 0 }
  if l.st = ldNone || l.st = ldStopping || l.st = ldLost then s.setLead n l
  else if !l.started then s.setLead n { l with started := true, origin := (l.pos : Int) - p, st := ldValid }
  else
    let e := diff96 (l.origin + p) (leadQ l t)
    let l := { l with velNew := some v, st := ldValid }
    if (e.natAbs : Int) ≤ s.rn (0x2040 + n) 0x13 * 2 ^ 32 then
      s.setLead n { l with spread := l.spread + e, spreadTicks := 0, spreadWait := true }
    else s.setLead n { l with jumpPending := l.jumpPending + e + l.spread, spread := 0, spreadTicks := 0, spreadWait := false }

/-- A station count unwrapped into an INT64 count as R304 unwraps an SSI word. -/
def unwrap (w : Nat) (prevCount : Int) (prevWord word : Nat) : Int :=
  prevCount + toSigned w (word + 2 ^ w - prevWord % 2 ^ w)

/-- A line cycle without a sample (R106, R112): MISSING counts, saturating, and a VALID Lead of a station or Henvy source
becomes EXTRAPOLATING after its first good sample. (DEDUCED, notes/assumptions/124.md) -/
def leadMissing (s : State) (n : Nat) : State :=
  let l := s.lead n
  let src := leadSource s n
  if (src = 1 || src = 2 || src = 4) && !l.sampled then
    let l := { l with missing := min 0xFFFF (l.missing + 1) }
    s.setLead n (if src ≠ 1 && l.st = ldValid && l.started then { l with st := ldExtra, sinceTick := s.clock.tick } else l)
  else s.setLead n { l with sampled := false }

/-- Whether the source of a Lead delivers samples (R108): one has come in this line cycle or in the last one. -/
def sourceAlive (s : State) (n : Nat) : Bool :=
  let l := s.lead n
  match leadSource s n with
  | 0 => false
  | 1 => encoderDelivers s n
  | 3 => true
  | _ => l.sampled || (l.missing = 0 && l.last.isSome)

/-- A re-reference of Lead n to a LEADPOS value (R108): by STEP a jump at the next boundary, by SLEW a part to be added over the
slew distance. The frame of the source moves with it. A LOST Lead returns to VALID, and the next good sample of its source sets
the origin (R106). (DEDUCED, notes/assumptions/26.md) -/
def rereference (s : State) (n value : Nat) : State :=
  let l := s.lead n
  let d := diff64 value l.pos64 * 2 ^ 32
  let l := if l.st = ldLost then { l with st := ldValid, started := leadSource s n = 3 } else l
  if s.rn (0x2040 + n) 0x0B = 0 then s.setLead n { l with refPending := d, slewLeft := 0, slewDist := 0 }
  else s.setLead n { l with slewLeft := d, slewDist := s.rn (0x2040 + n) 0x0C * 2 ^ 32 }

/-- A resume of a LOST Lead: at the next boundary a STEP to the position that its source gives for it (R108). -/
def resumeLead (s : State) (n : Nat) : State :=
  s.setLead n { s.lead n with st := ldValid, resumeDue := true }

/-- A new source or source instance: VALID at the present position with velocity 0 until the first good sample; NONE holds
(R106, R109). -/
def newSource (s : State) (n : Nat) : State :=
  let l := s.lead n
  let none_ := leadSource s n = 0
  s.setLead n { l with st := if none_ then ldNone else ldValid, vel := 0, velNew := none, started := leadSource s n = 3, sampled := false,
                       faulted := false, missing := 0, last := none, spread := 0, spreadTicks := 0, spreadWait := false,
                       jumpPending := 0, resumeDue := false, overspeed := false, acc := F64.zero, velF := F64.zero, plan := none }

/-- The Lead status word (R112). (DEDUCED, notes/assumptions/27.md) -/
def leadStatus (s : State) (n : Nat) : Nat :=
  let l := s.lead n
  l.st * 2 ^ 28 + leadSource s n * 2 ^ 24 + b2n (l.vel < 0) * 2 ^ 23 + b2n (l.vel = 0) * 2 ^ 22 + b2n l.reversed * 2 ^ 21 +
    b2n l.jumped * 2 ^ 20 + b2n (l.slewLeft ≠ 0) * 2 ^ 19 + b2n l.overspeed * 2 ^ 18 + l.missing

/-- Whether a Lead is at standstill, as R109 asks of a change of its source, scaling or mode. -/
def leadStands (s : State) (n : Nat) : Bool := (s.lead n).vel = 0

/-- The reaction of CX, NA and NB to a failed AX (R110): each Lead runs on at its last velocity, then stops at its Lead stop
deceleration. `silentFrom` is the tick at which the samples ended. (DEDUCED, notes/assumptions/127.md) -/
def leadsWithoutAx (s : State) : State :=
  forNums 8 s fun s n =>
    let l := s.lead n
    if l.st = ldNone || l.st = ldStopping || l.st = ldLost then s
    else s.setLead n { l with st := ldExtra, sinceTick := s.clock.tick, silentFrom := s.clock.tick }

/-- AX passes bring-up: a virtual Lead follows its commanded velocity again from the velocity it has (R105). -/
def virtualLeadsBack (s : State) : State :=
  forNums 8 s fun s n =>
    let l := s.lead n
    if leadSource s n ≠ 3 then s
    else s.setLead n { l with st := ldValid, plan := none, acc := F64.zero,
                              velF := ((F64.ofInt l.vel).mul (F64.ofInt 160000)).div (F64.ofInt (2 ^ 64)) }

/-! Windows (R126 to R129). -/

/-- Whether a position lies inside [open, close) on a Lead; MODULAR compares only fractions of a lap (R126, R127). -/
def inWindow (modular : Bool) (wopen wclose stamp : Nat) : Bool :=
  if modular then
    let f := stamp % 2 ^ 32
    let o := wopen % 2 ^ 32
    let c := wclose % 2 ^ 32
    if o < c then o ≤ f && f < c else if o > c then f ≥ o || f < c else true
  else diff64 wclose wopen > 0 && diff64 stamp wopen ≥ 0 && diff64 stamp wclose < 0

/-- Whether a time lies inside [open, close) on a time base (R126): empty where close ≤ open. -/
def inTbWindow (wopen wclose stamp : Nat) : Bool := wopen ≤ stamp && stamp < wclose

/-- What a window of length len says of the interval that reaches from `a` to `a + w`, both counted from its open bound (R126,
R129). -/
def intervalResult (len : Int) (a : Int) (w : Nat) : WindowResult :=
  if 0 ≤ a && a + w < len then .inside
  else if a + w < 0 || len ≤ a || len ≤ 0 then .outside
  else .edge

/-- The same in a window that recurs each lap (R127): `a` is taken within the lap, and an interval that ends beyond it reaches the
next opening. -/
def lapResult (len a w : Nat) : WindowResult :=
  let a := a % 2 ^ 32
  if len = 0 || a + w < len then .inside
  else if len ≤ a && a + w < 2 ^ 32 then .outside
  else .edge

/-- The offset of a software stamp's centre is in ns; its stamp in TBn (R99). -/
def softTb (s : State) (n : Nat) (x : SoftStamp) : Nat :=
  let back := (s.clock.tick - x.tick) * tickUnits
  (s.tb n).atTick + x.offset * 2 ^ 32 - back

/-- The Lead stamp of a software stamp at its centre, and its uncertainty |v| × the time uncertainty, in lu (R128). -/
def softLead (s : State) (n : Nat) (x : SoftStamp) : Nat × Nat :=
  let l := s.lead n
  (leadStamp l x.tick (x.offset * 8 / 5) / 2 ^ 32 % 2 ^ 64, l.vel.natAbs * x.around / 6250 / 2 ^ 32)

/-- The bit of an event class in a window's declaration. -/
def SoftClass.bit : SoftClass → Nat
  | .uplinkDaz => 0
  | .mailboxDaz => 1
  | .henvyControl => 2
  | .tunnelledTiming => 3

/-- What a declared window says of a software stamp (R126, R127, R129). MODULAR counts only on a CYCLIC Lead. (DESIGN CHOICE,
notes/assumptions/128.md) -/
def windowResult (s : State) (d : WindowDecl) (x : SoftStamp) : WindowResult :=
  if d.onLead then
    let q := softLead s (d.number % 8) x
    if d.modular && cyclicLead s (d.number % 8) then
      lapResult ((d.wclose + 2 ^ 32 - d.wopen % 2 ^ 32) % 2 ^ 32) (q.1 + 2 ^ 64 - d.wopen % 2 ^ 64 + 2 ^ 64 - q.2) (2 * q.2)
    else intervalResult (diff64 d.wclose d.wopen) (diff64 q.1 d.wopen - q.2) (2 * q.2)
  else intervalResult ((d.wclose : Int) - d.wopen) (((softTb s (d.number % 8) x : Nat) : Int) / 2 ^ 32 - d.wopen - x.around) (2 * x.around)

/-- What the consumer is given: INCLUSIVE counts EDGE inside and EXCLUSIVE outside, REPORT delivers it (R129). -/
def resolveEdge (attr : Nat) (r : WindowResult) : WindowResult :=
  match r with
  | .edge => if attr = 1 then .inside else if attr = 2 then .outside else .edge
  | r => r

/-- An event is stamped in software as its interrupt is taken on CX, at a free offset of the present tick (R99). The uncertainty is
25 µs, for a mailbox 1 line cycle + 5 µs. -/
def softStamp (s : State) (c : SoftClass) : State :=
  let f := s.free
  let around := if c = .mailboxDaz then s.lcLen * 6250 + 5000 else 25000
  let x : SoftStamp := ⟨c, s.clock.tick, f.1 % 6250, around⟩
  { f.2 with clock := { f.2.clock with soft := f.2.clock.soft ++ [x] } }

/-- The software stamps of the last tick at the boundary that completes their Lead stamps (R128, R129): the windows that the
program declares say what they make of each, and every EDGE is counted. (DESIGN CHOICE, notes/assumptions/129.md) -/
def softAtTick (s : State) : State :=
  let list := s.clock.soft
  let s := { s with clock := { s.clock with soft := [] } }
  list.foldl (fun s x =>
    let wins := (((s.prog.active.map (·.windows)).getD []).filter fun d => bit d.classes x.cls.bit)
    let raw := wins.map fun d => windowResult s d x
    let s := raw.foldl (fun s r => if r = .edge then s.bump 0x2050 0x0A else s) s
    { s with clock := { s.clock with softLast := some (x, (List.range 8).map fun n => softLead s n x),
                                     results := (wins.zip raw).map fun p => resolveEdge p.1.attr p.2 } }) s

end Sys2Proof.Machine
end

