-- ==== Sys2Proof/Machine/Channel.lean ====
section
/-! DEFINITION. Control channels (R211 to R247): sources, the section cascade, limiter and anti-windup, output conversion, states,
live writes, shadow commits and trace capture. -/

namespace Sys2Proof.Machine

/-! Channel state codes of R229. -/
def chOff : Nat := 0
def chRunning : Nat := 1
def chHolding : Nat := 2
def chRamping : Nat := 3
def chRearm : Nat := 4
def chFailed : Nat := 5

/-- Index of channel n. -/
def chIdx (n : Nat) : Nat := 0x4000 + n

/-- A live value the channel's unit runs with: as of the last pickup (R234). -/
def State.tk (s : State) (index sub : Nat) : Val :=
  getAt (defaultVal index sub) s.taken (regKey index sub)

/-- A live datum of the channel's unit. -/
def State.tkBfp (s : State) (index sub : Nat) : Bfp :=
  (bfpStore (Bfp.ofBits (s.tk index sub).toNat)).getD Bfp.zero

/-- A stored datum. -/
def State.rBfp (s : State) (index sub : Nat) : Bfp :=
  (bfpStore (Bfp.ofBits (s.rn index sub))).getD Bfp.zero

/-- The output of channel n in force: y, or the off value while it is OFF or FAILED (R229). -/
def State.chanOut (s : State) (n : Nat) : Bfp :=
  let c := s.chan n
  if (c.st = chOff || c.st = chFailed) && c.toCome.isNone then s.tkBfp (chIdx n) 0x13 else c.inForce

/-! Sources (R213, R221, R232). -/

/-- What a source gives in a sample: its converted datum (none when stale), OVR, and EXP_SAT of the conversion. -/
structure SrcIn where
  datum : Option Bfp
  ovr   : Bool
  sat   : Bool
  deriving DecidableEq, Repr

/-- An integer source: q = raw + input offset, norm(q, k_in + 55). -/
def intSource (raw off k : Int) : SrcIn :=
  let r := bfpNorm (raw + off) (k + 55)
  ⟨some r.1, false, r.2⟩

/-- A REAL32 source: norm(s, f + k_in + 55); a NaN or an infinity is stale. -/
def realSource (w : Nat) (k : Int) : SrcIn :=
  if bits w 30 23 = 255 then ⟨none, false, false⟩
  else
    let f := F64.ofBits32 w
    let r := bfpNorm f.m (f.e + k + 55)
    ⟨some r.1, false, r.2⟩

/-- A BFP source: (m, e + k_in), saturated or flushed as in norm. -/
def bfpSource (d : Bfp) (k : Int) : SrcIn :=
  if d.m = 0 then ⟨some Bfp.zero, false, false⟩
  else if d.e + k > 127 then ⟨some ⟨if d.m > 0 then 0x7FFFFFFF else -0x80000000, 127⟩, false, true⟩
  else if d.e + k < -127 then ⟨some Bfp.zero, false, false⟩
  else ⟨some ⟨d.m, d.e + k⟩, false, false⟩

/-- An AXIS source: norm(v, k_in + 23) of a Q32.32 value taken as int64. (DEDUCED, notes/assumptions/51.md) -/
def axisSource (v k : Int) : SrcIn :=
  let r := bfpNorm (toSigned 64 (ofSigned 64 v)) (k + 23)
  ⟨some r.1, false, r.2⟩

/-- A STATION source: the value in the format given; STALE and LATE inputs are stale (R152, R232). -/
def stationSource (s : State) (d : Nat) (off k : Int) : SrcIn :=
  let st := s.station (bits d 25 15 % 2048)
  if !st.hasInputs || st.stale || st.late then ⟨none, false, false⟩
  else
    let o := bits d 14 0
    match bits d 27 26 with
    | 0 => intSource (toSigned 16 (leNat (slice st.inputs o 2))) off k
    | 1 => intSource (toSigned 32 (leNat (slice st.inputs o 4))) off k
    | _ => realSource (leNat (slice st.inputs o 4)) k

/-- The phase reference that a MICROSTEP axis delivers to its bound phase channel in place of the setpoint (R299). -/
def phaseRef (s : State) (n : Nat) : Option Int :=
  (List.range 32).findSome? fun a =>
    let i := 0x7580 + a
    if s.rn i 1 = 2 && s.rn i 0x0B = n then some (s.loc a).refA
    else if s.rn i 1 = 2 && s.rn i 0x0C = n then some (s.loc a).refB
    else none

/-- A source descriptor evaluated for channel n (R213, R221). -/
def readSource (s : State) (n d : Nat) : SrcIn :=
  let off := s.ri (chIdx n) 9 32
  let k := s.ri (chIdx n) 0x0A 8
  match bits d 31 28 with
  | 1 =>
    let r := (s.ain (bits d 6 0)).atCx
    if bit r 23 || !s.axToCx then ⟨none, false, false⟩
    else { intSource (toSigned 16 (bits r 15 0)) off k with ovr := bit r 16 }
  | 2 => stationSource s d off k
  | 3 => bfpSource (s.chanOut (bits d 11 0)) k
  | 4 =>
    let x := s.axis (bits d 10 0)
    if x.staleAct && 2 ≤ bits d 12 11 then ⟨none, false, false⟩
    else axisSource (match bits d 12 11 with
      | 0 => x.p
      | 1 => x.v.toIntScaled 32
      | 2 => x.actual
      | _ => x.actualVel) k
  | 5 =>
    match phaseRef s n with
    | some v => intSource v off k
    | none => bfpSource (s.rBfp (chIdx n) 0x0E) k
  | _ => ⟨some Bfp.zero, false, false⟩

/-- Whether a descriptor is allowed as source A, source B or destination, with its instance in range and no reserved field set
(R213). -/
def sourceValid (d : Nat) (isB : Bool) : Bool :=
  let fmt := bits d 27 26
  match bits d 31 28 with
  | 0 => isB && d = 0
  | 1 => fmt = 0 && bits d 25 7 = 0 && bits d 6 0 ≤ 95
  | 2 => fmt ≤ 2 && bits d 25 15 ≤ 2047
  | 3 => fmt = 0 && bits d 25 12 = 0
  | 4 => fmt = 0 && bits d 25 13 = 0
  | 5 => fmt = 0 && bits d 25 0 = 0
  | _ => false

def destValid (d : Nat) : Bool :=
  let fmt := bits d 27 26
  match bits d 31 28 with
  | 0 => d = 0
  | 2 => fmt ≤ 2 && bits d 25 15 ≤ 2047
  | 6 => fmt = 0 && bits d 25 4 = 0
  | 7 => fmt = 0 && bits d 25 7 = 0 && bits d 6 0 ≤ 95
  | _ => false

/-- Width in bytes of a STATION descriptor's value. -/
def descWidth (d : Nat) : Nat := if bits d 27 26 = 0 then 2 else 4

/-- A STATION descriptor within the station's declared area of `size` bytes (R213, at the enable). -/
def descInArea (s : State) (d sizeSub : Nat) : Bool :=
  bits d 31 28 ≠ 2 || bits d 14 0 + descWidth d ≤ s.rn (0x3800 + bits d 25 15) sizeSub

/-! Sections (R219, R220, R246). -/

/-- A section's coefficients from its record. -/
structure Coef where
  b0 : Int
  b1 : Int
  b2 : Int
  a1 : Int
  a2 : Int
  ec : Int
  deriving DecidableEq, Repr

/-- The section record of R246. -/
def coefOf (r : List Byte) : Coef :=
  let c := fun i => toSigned 24 (leNat (slice r (3 * i) 3))
  ⟨c 0, c 1, c 2, c 3, c 4, toSigned 6 (leNat (slice r 15 1))⟩

/-- section(x, sec): y with its saturation, n1 and n2 as accumulators (R219). -/
def evalSection (c : Coef) (st : SecState) (x : Bfp) : (Bfp × Bool) × (Int × Int) × (Int × Int) :=
  let acc := bfpAccumulate [bfpProd c.b0 c.ec x, bfpData ⟨st.m1, st.es⟩]
  let y := bfpNorm acc.1 acc.2
  let n1 := bfpAccumulate [bfpProd c.b1 c.ec x, bfpNeg (bfpProd c.a1 c.ec y.1), bfpData ⟨st.m2, st.es⟩]
  let n2 := bfpAccumulate [bfpProd c.b2 c.ec x, bfpNeg (bfpProd c.a2 c.ec y.1)]
  (y, n1, n2)

/-- renorm_states(n1, n2) of R220, with the saturation of its normalisations. -/
def renormStates (n1 n2 : Int × Int) : SecState × Bool :=
  let a := bfpNorm n1.1 n1.2
  let b := bfpNorm n2.1 n2.2
  let es := max a.1.e b.1.e
  if es = -128 then (SecState.init, a.2 || b.2)
  else
    let m1 := if a.1.e = es then a.1.m else bfpToExp n1.1 n1.2 es
    let m2 := if b.1.e = es then b.1.m else bfpToExp n2.1 n2.2 es
    (⟨m1, m2, es⟩, a.2 || b.2)

/-- The exact sign of candidate s1 minus present s1 (R224). -/
def deltaSign (cand cur : SecState) : Int := bfpCmp ⟨cand.m1, cand.es⟩ ⟨cur.m1, cur.es⟩

/-- freeze(i) of R224. -/
def freezes (mode : Nat) (limHi limLo sense : Bool) (delta : Int) : Bool :=
  let d := if sense then -delta else delta
  match mode with
  | 0 => limHi || limLo
  | 1 => (limHi && d > 0) || (limLo && d < 0)
  | _ => false

/-- The cascade from section i on: sections still to run, x, results so far as (section, y, n1, n2). -/
def cascade (s : State) (n : Nat) (c : Chan) :
    List Nat → Bfp → Bool → List (Nat × Bfp × (Int × Int) × (Int × Int)) →
    Bfp × Bool × List (Nat × Bfp × (Int × Int) × (Int × Int))
  | [], x, sat, out => (x, sat, out)
  | i :: rest, x, sat, out =>
    let r := evalSection (coefOf (s.tk (chIdx n) (0x30 + i)).octets) (getAt SecState.init c.secs i) x
    cascade s n c rest r.1.1 (sat || r.1.2) (out ++ [(i, r.1.1, r.2.1, r.2.2)])

/-! Output conversion (R221). -/

/-- Rounds y × 2^k to an integer, ties to even. -/
def bfpToInt (y : Bfp) (k : Int) : Int :=
  let e := y.e - 31 + k
  if e ≥ 0 then y.m * 2 ^ e.toNat else rneDiv y.m (2 ^ (-e).toNat)

/-- Saturated to w bits signed, with OUT_SAT. -/
def saturate (w : Nat) (v : Int) : Int × Bool :=
  if v > 2 ^ (w - 1) - 1 then (2 ^ (w - 1) - 1, true)
  else if v < -2 ^ (w - 1) then (-2 ^ (w - 1), true)
  else (v, false)

/-- y × 2^k as a binary32 pattern: 24-bit significand, ties to even; below 2^−126 gives 0; 2^128 or more the largest finite.
(DEDUCED, notes/assumptions/53.md) -/
def bfpToReal32 (y : Bfp) (k : Int) : Nat × Bool :=
  if y.m = 0 then (0, false)
  else
    let neg := y.m < 0
    let m := y.m.natAbs
    let e := y.e - 31 + k
    let l : Int := (Nat.log2 m : Int) + 1
    let r := l - 24
    let m24 : Int := if r ≤ 0 then m * 2 ^ (-r).toNat else rneDiv m (2 ^ r.toNat)
    let me : Int × Int := if m24 = 2 ^ 24 then (2 ^ 23, e + r + 1) else (m24, e + r)
    let sgn := if neg then 2 ^ 31 else 0
    if me.2 + 23 < -126 then (0, false)
    else if me.2 + 23 ≥ 128 then (sgn + 0x7F7FFFFF, true)
    else (sgn + (me.2 + 23 + 127).toNat * 2 ^ 23 + (me.1 - 2 ^ 23).toNat, false)

/-- output(y): the raw form for the destination, and OUT_SAT. INT16 goes to AOUT and PWM. -/
def convertOut (s : State) (n : Nat) (y : Bfp) : Nat × Bool :=
  let d := s.rn (chIdx n) 0x0B
  let k := s.ri (chIdx n) 0x0C 8
  let off := s.ri (chIdx n) 0x0D 32
  if bits d 31 28 = 2 && bits d 27 26 = 2 then bfpToReal32 y k
  else
    let w := if bits d 31 28 = 2 && bits d 27 26 = 1 then 32 else 16
    let r := saturate w (bfpToInt y k + off)
    (ofSigned w r.1, r.2)

/-- A raw output comes into force at its destination (R213, R225). (DEDUCED, notes/assumptions/54.md) -/
def deliver (s : State) (n raw : Nat) : State :=
  let d := s.rn (chIdx n) 0x0B
  match bits d 31 28 with
  | 2 =>
    let a := bits d 25 15
    let st := s.station a
    s.setStation a { st with outputs := splice st.outputs (bits d 14 0) (leBytes (descWidth d) raw) }
  | 6 =>
    let o := bits d 3 0
    s.setAout o { s.aout o with source := toSigned 16 raw, waiting := false }
  | 7 =>
    let c := bits d 6 0
    s.setPwm c { s.pwm c with source := toSigned 16 raw }
  | _ => s

/-! Commits (R238 to R240). -/

/-- The sections that a commit target names. -/
def targetSections (s : State) (n target : Nat) : List Nat :=
  if target = 0 then List.range (s.rn (chIdx n) 6) else [target - 1]

/-- Active and shadow banks of one register pair change places. -/
def swapRegs (s : State) (index active shadow : Nat) : State :=
  let a := s.reg index active
  let b := s.reg index shadow
  let s := (s.setReg index active b).setReg index shadow a
  { s with taken := setAt s.taken (regKey index active) b }

/-- One commit swaps the banks of its target (R239), counts, and sets the states to 0 where it says so. -/
def applyCommit (s : State) (n : Nat) (c : Commit) : State :=
  let i := chIdx n
  let secs := targetSections s n c.target
  let s := secs.foldl (fun s k => swapRegs s i (0x30 + k) (0xC0 + k)) s
  let s := if c.target = 0 then swapRegs (swapRegs (swapRegs s i 0x0F 0xD0) i 0x10 0xD1) i 0x11 0xD2 else s
  let ch := s.chan n
  let ch := if c.zero then { ch with secs := secs.foldl (fun m k => setAt m k SecState.init) ch.secs } else ch
  (s.setChan n ch).bump i 0x20

/-- The commits due at the present boundary swap; the others stay armed. -/
def dueCommits (s : State) (n : Nat) : State :=
  let cs := (s.chan n).commits
  let now := cs.filter fun c => c.from_ ≤ s.clock.tick
  let s := s.setChan n { s.chan n with commits := cs.filter fun c => !(c.from_ ≤ s.clock.tick : Bool) }
  now.foldl (fun s c => applyCommit s n c) s

/-- Whether a subindex of channel n is a field of an armed commit's target (R240). -/
def inCommitTarget (s : State) (n sub : Nat) : Bool :=
  (s.chan n).commits.any fun c =>
    (targetSections s n c.target).any (fun k =>
      sub = 0x30 + k || sub = 0xC0 + k || (0x40 + 8 * k ≤ sub && sub ≤ 0x40 + 8 * k + 5)) ||
    (c.target = 0 && (sub = 0x0F || sub = 0x10 || sub = 0x11 || sub = 0xD0 || sub = 0xD1 || sub = 0xD2))

/-! The sample (R222, R230 to R232). -/

/-- Both inputs of a sample with their last good values: x with its flags, or none where a source has no good value yet. -/
structure XIn where
  x     : Option Bfp
  stale : Bool
  ovr   : Bool
  sat   : Bool
  lastA : Option Bfp
  lastB : Option Bfp
  deriving DecidableEq, Repr

/-- input(ch): a stale source is replaced by its last good value (R221, R232). -/
def chanInput (s : State) (n : Nat) (c : Chan) : XIn :=
  let dB := s.rn (chIdx n) 8
  let a := readSource s n (s.rn (chIdx n) 7)
  let b := readSource s n dB
  let useB := bits dB 31 28 ≠ 0
  let lastA := a.datum <|> c.lastA
  let lastB := if useB then b.datum <|> c.lastB else none
  let stale := a.datum.isNone || (useB && b.datum.isNone)
  let ovr := a.ovr || (useB && b.ovr)
  match lastA with
  | none => ⟨none, stale, ovr, false, lastA, lastB⟩
  | some va =>
    if !useB then ⟨some va, stale, ovr, a.sat, lastA, lastB⟩
    else
      match lastB with
      | none => ⟨none, stale, ovr, false, lastA, lastB⟩
      | some vb =>
        let acc := bfpAccumulate [bfpData va, bfpNeg (bfpData vb)]
        let r := bfpNorm acc.1 acc.2
        ⟨some r.1, stale, ovr, a.sat || b.sat || r.2, lastA, lastB⟩

/-- The output of a sample at boundary k comes into force at k+P (R225). -/
def putOutput (s : State) (n : Nat) (y : Bfp) (c : Chan) : State :=
  let r := convertOut s n y
  s.setChan n { c with toCome := some (s.clock.tick + s.rn (chIdx n) 4, y, r.1), outSat := r.2, y := y }

/-- evaluate(ch) of R222 on an input x. -/
def evaluate (s : State) (n : Nat) (c : Chan) (i : XIn) (x : Bfp) : State :=
  let ix := chIdx n
  let cs := cascade s n c (List.range (s.rn ix 6)) x false []
  let g := s.tkBfp ix 0x0F
  let u := bfpNorm (g.m * cs.1.m) (g.e + cs.1.e - 7)
  let hi := s.tkBfp ix 0x10
  let lo := s.tkBfp ix 0x11
  let limHi : Bool := bfpCmp u.1 hi > 0
  let limLo : Bool := bfpCmp u.1 lo < 0
  let y := if limHi then hi else if limLo then lo else u.1
  let step := cs.2.2.foldl (fun (acc : Map SecState × Bool × Bool) r =>
    let cand := renormStates r.2.2.1 r.2.2.2
    let fl := s.rn ix (0x40 + 8 * r.1 + 6)
    let cur := getAt SecState.init c.secs r.1
    if bit fl 0 && freezes (s.rn ix 0x12) limHi limLo (bit fl 1) (deltaSign cand.1 cur) then (acc.1, true, acc.2.2 || cand.2)
    else (setAt acc.1 r.1 cand.1, acc.2.1, acc.2.2 || cand.2)) (c.secs, false, false)
  let sat := i.sat || cs.2.1 || u.2 || step.2.2
  let outs := cs.2.2.foldl (fun (m : Map Bfp) r => setAt m r.1 r.2.1) []
  let c := { c with secs := step.1, outs := outs, x := x, u := u.1, limHi := limHi, limLo := limLo, frozen := step.2.1, stale := i.stale,
                    ovrIn := i.ovr, expSat := sat, lastA := i.lastA, lastB := i.lastB }
  let s := putOutput s n y c
  let s := s.bump64 ix 0x1D
  if sat then s.bump ix 0x1F else s

/-- Counts a stale sample; reaching the input fault limit makes the reaction due at the next sample boundary (R232). -/
def countStale (s : State) (n : Nat) (stale : Bool) : State :=
  let c := s.chan n
  if stale then
    let run := min 255 (c.staleRun + 1)
    let s := s.setChan n { c with staleRun := run, faultDue := c.faultDue || run = s.rn (chIdx n) 0x17 }
    s.bump (chIdx n) 0x1E
  else s.setChan n { c with staleRun := 0, faultDue := false }

/-- The flags of a sample boundary at which nothing is evaluated (R245). (DEDUCED, notes/assumptions/165.md) -/
def Chan.noFlags (c : Chan) : Chan :=
  { c with limHi := false, limLo := false, frozen := false, stale := false, ovrIn := false, expSat := false }

/-- A sample of a RUNNING channel; one whose source has given no good value yet is not evaluated, and its off value stays in
force (R232). (DEDUCED, notes/assumptions/52.md) -/
def runSample (s : State) (n : Nat) : State :=
  let c := s.chan n
  let i := chanInput s n c
  let s := match i.x with
    | some x => evaluate s n c i x
    | none => putOutput s n (s.tkBfp (chIdx n) 0x13) { c.noFlags with stale := true, ovrIn := i.ovr, lastA := i.lastA, lastB := i.lastB }
  countStale s n i.stale

/-- One ramp step towards the off value: the new output, whether the ramp is complete, and EXP_SAT of its normalisation (R231). -/
def rampStep (y off rate : Bfp) : Bfp × Bool × Bool :=
  let dir := bfpCmp off y
  if dir = 0 then (off, true, false)
  else
    let r : Bfp := if dir > 0 then rate else ⟨-rate.m, rate.e⟩
    let acc := bfpAccumulate [bfpData y, bfpData r]
    let y' := bfpNorm acc.1 acc.2
    let past : Bool := (dir > 0 && 0 ≤ bfpCmp y'.1 off) || (dir < 0 && bfpCmp y'.1 off ≤ 0)
    (if past then off else y'.1, past, y'.2)

/-- Whether channel n's masked Rein bits are set as known to CX (R230). -/
def chanRein (s : State) (n : Nat) : Bool := s.reinHit (s.rn (chIdx n) 0x15) (s.rn (chIdx n) 0x16)

/-- A channel begins RUNNING with its states 0 (R230). -/
def Chan.start (c : Chan) : Chan :=
  { c with st := chRunning, secs := [], staleRun := 0, faultDue := false, lastA := none, lastB := none, enableAt := false,
           latched := false, disableAt := false, rampDone := false, rein := false, overrun := false }

/-- A channel begins its stop ramp from its last y; `rein` says whether a Rein bit started it (R230, R245). -/
def Chan.toRamp (c : Chan) (rein : Bool) : Chan :=
  { c with st := chRamping, disableAt := false, faultDue := false, rein := rein, rampDone := false }

/-- The input fault reaction of a channel: HOLD, RAMP or CONTINUE (R232). RAMP of a channel without a good value completes at
once. -/
def faultReaction (s : State) (n : Nat) : State :=
  let c := s.chan n
  if c.st = chRunning && c.faultDue then
    match s.rn (chIdx n) 0x18 with
    | 0 => s.setChan n { c with st := chHolding, faultDue := false }
    | 1 =>
      if (chanInput s n c).x.isNone then s.setChan n { c with st := chOff, placed := false, faultDue := false, disableAt := false }
      else s.setChan n (c.toRamp false)
    | _ => s.setChan n { c with faultDue := false }
  else s

/-- A ramp sample: RAMPING and REARM_PENDING (R230, R231). -/
def rampSample (s : State) (n : Nat) : State :=
  let c := s.chan n
  let r := rampStep c.y (s.tkBfp (chIdx n) 0x13) (s.tkBfp (chIdx n) 0x14)
  let s := putOutput s n r.1 { c.noFlags with rampDone := r.2.1, expSat := r.2.2 }
  if r.2.2 then s.bump (chIdx n) 0x1F else s

/-- The sample boundary after the ramp's last step: OFF, or RUNNING with a latched enable, or that enable discarded (R230).
(DEDUCED, notes/assumptions/55.md) -/
def rampOver (s : State) (n : Nat) : State :=
  let c := s.chan n
  let latched : Bool := (c.st = chRearm && !c.disableAt) || (c.st = chRamping && c.enableAt)
  let off := { c with st := chOff, latched := false, enableAt := false, disableAt := false, rampDone := false, placed := false, rein := false }
  if !latched then s.setChan n off
  else if !chanRein s n && !(chanInput s n c).stale then (s.setNum (chIdx n) 0x1D 0).setChan n c.start
  else (s.setChan n off).bump (chIdx n) 0x22

/-- Latched enables and disables and set Rein bits change the state at the sample boundary (R230). -/
def chanTransitions (s : State) (n : Nat) : State :=
  let s := faultReaction s n
  let c := s.chan n
  let rein := chanRein s n
  if c.st = chOff || c.st = chFailed then
    if c.enableAt then
      if rein then (s.setChan n { c with enableAt := false, placed := false }).bump (chIdx n) 0x22
      else (s.setNum (chIdx n) 0x1D 0).setChan n c.start
    else s
  else if c.st = chRunning || c.st = chHolding then
    if c.disableAt || rein then s.setChan n (c.toRamp rein) else s.setChan n { c with enableAt := false }
  else if c.rampDone then rampOver s n
  else if c.st = chRamping && c.enableAt then
    s.setChan n { c with st := chRearm, enableAt := false, latched := true }
  else if c.st = chRearm && c.disableAt then
    s.setChan n { c with st := chRamping, disableAt := false, latched := false }
  else s

/-- The body of a sample by the state reached (R222, R229, R230). -/
def chanBody (s : State) (n : Nat) : State :=
  let c := s.chan n
  if c.st = chRunning then runSample s n
  else if c.st = chHolding then
    let i := chanInput s n c
    if i.stale then
      let s := countStale (s.setChan n { c.noFlags with stale := true, ovrIn := i.ovr }) n true
      s.setChan n { s.chan n with faultDue := false }
    else runSample (s.setChan n { c with st := chRunning, staleRun := 0 }) n
  else if c.st = chRamping || c.st = chRearm then rampSample s n
  else s

/-! Trace capture (R241, R242). -/

/-- The value of a probe's node after a sample (R241). -/
def probeNode (s : State) (n d : Nat) : Bfp :=
  let c := s.chan n
  let sec := getAt SecState.init c.secs (bits d 23 20)
  match bits d 19 16 with
  | 0 => c.x
  | 1 => getAt Bfp.zero c.outs (bits d 23 20)
  | 2 => (bfpStore ⟨sec.m1, sec.es⟩).getD Bfp.zero
  | 3 => (bfpStore ⟨sec.m2, sec.es⟩).getD Bfp.zero
  | 4 => c.u
  | 5 => c.y
  | 6 => c.lastA.getD Bfp.zero
  | _ => c.lastB.getD Bfp.zero

/-- The trace word of R241. -/
def traceWord (s : State) (n p : Nat) (v : Bfp) (trig : Bool) : Nat :=
  let c := s.chan n
  ofSigned 32 v.m * 2 ^ 32 + ofSigned 8 v.e * 2 ^ 24 + b2n trig * 2 ^ 23 + b2n (c.limHi || c.limLo) * 2 ^ 22 +
    b2n c.stale * 2 ^ 21 + b2n c.frozen * 2 ^ 20 + p * 2 ^ 16 + s.clock.tick % 2 ^ 16

/-- Words of a trace RAM (R241). -/
def traceDepth : Nat := 32768

/-- A trace is triggered now: in ONESHOT and RING the first word from here carries TRIG (R242). -/
def triggerTrace (s : State) (t : Nat) : State :=
  let x := s.trace t
  if x.st = 1 then
    (s.setTrace t { x with st := 2, left := traceDepth - s.rn (0xF400 + t) 6, markTrig := true }).setNum (0xF400 + t) 0x0A
      s.clock.tick
  else s

/-- Whether LEVEL or FLAG triggers on the trigger probe's new node (R242). -/
def levelTrigger (s : State) (t n p : Nat) (v : Bfp) : Bool :=
  let i := 0xF400 + t
  let x := s.trace t
  if p ≠ s.rn i 3 then false
  else
    match s.rn i 2 with
    | 1 =>
      let lv := s.rBfp i 4
      match getAt none x.prev p with
      | none => false
      | some q =>
        let up : Bool := bfpCmp q lv < 0 && 0 ≤ bfpCmp v lv
        let down : Bool := 0 < bfpCmp q lv && bfpCmp v lv ≤ 0
        match s.rn i 5 with
        | 0 => up
        | 1 => down
        | _ => up || down
    | 2 =>
      let c := s.chan n
      (c.limHi || c.limLo || c.stale) && !getAt false x.prevFlag p
    | _ => false

/-- Whether channel n is placed in cluster t. -/
def inCluster (s : State) (t n : Nat) : Bool := (s.chan n).placed && (s.chan n).unit / 8 = t

/-- ABSENT (R241, R243): an enabled probe's channel is, or at a capture was, outside the cluster. (DEDUCED,
notes/assumptions/166.md) -/
def traceAbsent (s : State) (t : Nat) : Bool :=
  (s.trace t).absent || ((s.trace t).st ≠ 0 && (List.range 16).any fun p =>
    let d := s.rn (0xF400 + t) (0x10 + p)
    bit d 31 && !inCluster s t (bits d 11 0))

/-- One probe of one trace at its channel's sample boundary (R241, R242): every sample may trigger, every nth is captured. -/
def captureProbe (s : State) (t n p : Nat) : State :=
  let i := 0xF400 + t
  let d := s.rn i (0x10 + p)
  if !(bit d 31 && bits d 11 0 = n) then s
  else
    let c := s.chan n
    if !inCluster s t n then s.setTrace t { s.trace t with absent := true }
    else
      let v := probeNode s n d
      let s := if (s.trace t).st = 1 && levelTrigger s t n p v then triggerTrace s t else s
      let x := s.trace t
      let k := getAt 0 x.decim p
      let x := { x with prev := setAt x.prev p (some v), prevFlag := setAt x.prevFlag p (c.limHi || c.limLo || c.stale),
                        decim := setAt x.decim p ((k + 1) % s.rn i 7) }
      if k ≠ 0 then s.setTrace t x
      else
        let w := traceWord s n p v x.markTrig
        if x.st = 1 then
          let keep := if s.rn i 1 = 1 then traceDepth else s.rn i 6
          s.setTrace t { x with words := (w :: x.words).take keep, markTrig := false }
        else if x.st = 2 then
          if s.rn i 1 = 1 then s.setTrace t { x with words := (w :: x.words).take traceDepth, markTrig := false }
          else if x.left = 0 then s.setTrace t { x with st := 3 }
          else
            s.setTrace t { x with words := w :: x.words, left := x.left - 1, markTrig := false,
                                  st := if x.left = 1 then 3 else 2 }
        else if x.st = 4 then s.setTrace t { x with out := x.out ++ [w] }
        else s.setTrace t x

/-- Every probe of every trace at a sample boundary of channel n. -/
def captureChannel (s : State) (n : Nat) : State :=
  forNums 8 s fun s t => if (s.trace t).st = 0 then s else forNums 16 s fun s p => captureProbe s t n p

/-- A sample boundary of channel n (R222 to R245): commits swap after the live writes of the pickup (R240), transitions take
effect, the channel is evaluated or handled by its state, and the traces capture. -/
def chanSample (s : State) (n : Nat) : State :=
  let s := dueCommits s n
  let s := s.setChan n { s.chan n with resumed := (s.chan n).resumeDue, resumeDue := false }
  captureChannel (chanBody (chanTransitions s n) n) n

/-- The state record of a section (R246). -/
def stateRecord (st : SecState) : List Byte :=
  leBytes 4 (ofSigned 32 st.m1) ++ leBytes 4 (ofSigned 32 st.m2) ++ leBytes 1 (ofSigned 8 st.es) ++ [0, 0, 0]

/-- The trace buffer in capture order, oldest first (R243). -/
def traceBuffer (x : Trace) : List Byte := x.words.reverse.flatMap (leBytes 8)

/-- Targets of the commits of channel n that wait in the action table or for their line-cycle boundary (R239, R240). -/
def scheduledTargets (s : State) (n : Nat) : List Nat :=
  let of := fun (elems : List Elem) =>
    (elems.filter fun e => e.index = chIdx n && e.sub = 0x19).map fun e => bits (leNat e.val.octets) 4 0
  (s.dict.atLc.flatMap fun w => of w.elems) ++
    ((s.actions.armed ++ s.actions.due.map (·.action)).flatMap fun a => match a.work with
      | .writes _ _ _ elems => of elems
      | _ => [])

/-- Targets of every armed commit of channel n (R240). (DEDUCED, notes/assumptions/57.md) -/
def armedTargets (s : State) (n : Nat) : List Nat := (s.chan n).commits.map (·.target) ++ scheduledTargets s n

/-- The channel status word (R245). -/
def chanStatus (s : State) (n : Nat) : Nat :=
  let c := s.chan n
  c.st * 2 ^ 28 + b2n c.limHi * 2 ^ 27 + b2n c.limLo * 2 ^ 26 + b2n c.frozen * 2 ^ 25 + b2n c.stale * 2 ^ 24 +
    b2n c.ovrIn * 2 ^ 23 + b2n c.expSat * 2 ^ 22 + b2n c.outSat * 2 ^ 21 + b2n (!(armedTargets s n).isEmpty) * 2 ^ 20 +
    b2n c.resumed * 2 ^ 19 + b2n c.rein * 2 ^ 18 + b2n c.overrun * 2 ^ 17 + c.staleRun * 2 ^ 8

/-- A datum as the recorder writes it (R453): mantissa and exponent. -/
def bfpBytes (d : Bfp) : List Byte := leBytes 4 (ofSigned 32 d.m) ++ leBytes 1 (ofSigned 8 d.e)

/-- The CHANNEL record of a sample whose y comes into force now (R453). -/
def recordChannel (s : State) (n : Nat) : State :=
  let c := s.chan n
  s.record 4 n s.clock.tick 0 (bfpBytes c.x ++ bfpBytes c.u ++ bfpBytes c.y ++ leBytes 4 (chanStatus s n))

/-- Outputs whose instant has come into force at the present boundary (R225). -/
def outputsInForce (s : State) : State :=
  s.chans.foldl (fun s p =>
    match p.2.toCome with
    | some (t, y, raw) =>
      if t ≤ s.clock.tick then
        deliver (recordChannel (s.setChan p.1 { s.chan p.1 with inForce := y, toCome := none }) p.1) p.1 raw
      else s
    | none => s) s

/-- The pickup at offset 0 of a base tick (R234, R235): stored live writes are taken up in the order in which they were stored. -/
def pickup (s : State) : State :=
  { s with taken := s.stored.foldl (fun m e => setAt m (regKey e.index e.sub) e.val) s.taken, stored := [] }

/-- Commits of channels that are OFF or FAILED and not placed swap at the pickup (R239). -/
def idleCommits (s : State) : State :=
  s.chans.foldl (fun s p => if p.2.commits.isEmpty || p.2.placed then s else dueCommits s p.1) s

/-- Whether channel n counts as enabled for the entries writable in OFF or FAILED only (R244). -/
def chanLocked (s : State) (n : Nat) : Bool :=
  !((s.chan n).st = chOff || (s.chan n).st = chFailed) || (s.chan n).enableAt

end Sys2Proof.Machine
end

