-- ==== Sys2Proof/Machine/Axis.lean ====
section
/-! DEFINITION. Motion axes and interpolation groups (R248 to R285): limits and units, profiles, stop ramps, electronic gearing,
groups, and the sample of an axis with its transitions. Positions are integers of 2^-32 counts; velocities and accelerations are
binary64 in counts and base ticks. -/

namespace Sys2Proof.Machine

/-! Axis state codes of R255. -/
def axDisabled : Nat := 0
def axStandstill : Nat := 1
def axMoving : Nat := 2
def axGrouped : Nat := 3
def axSyncing : Nat := 4
def axGeared : Nat := 5
def axStopping : Nat := 6
def axRearm : Nat := 7
def axDropout : Nat := 8
def axFault : Nat := 9
def axHoming : Nat := 0xA
def axFailed : Nat := 0xB

/-! Stop causes of R263. -/
def scCommand : Nat := 1
def scDisable : Nat := 2
def scLimit : Nat := 3
def scRein : Nat := 4
def scFault : Nat := 5
def scDropout : Nat := 6
def scCoast : Nat := 7

/-! Abort codes of R285 and R323. -/
def abNotEnabled : Nat := 0x5001
def abHaltActive : Nat := 0x5002
def abLimit : Nat := 0x5003
def abInGroup : Nat := 0x5004
def abGroupMoving : Nat := 0x5005
def abLeadUnavailable : Nat := 0x5006
def abRampTooShort : Nat := 0x5007
def abStationNotReady : Nat := 0x5008
def abNoProfiler : Nat := 0x5009
def abHomeConfig : Nat := 0x500A
def abNotModular : Nat := 0x2001

/-- Index of axis n. -/
def axIdx (n : Nat) : Nat := 0x5000 + n

/-- Station state OPERATIONAL of R167. -/
def stOperational : Nat := 4

def axisLocal (s : State) (n : Nat) : Bool := s.rn (axIdx n) 4 = 1

/-- The instance an axis names: station address or local axis. -/
def axisInst (s : State) (n : Nat) : Nat := s.rn (axIdx n) 5

/-- P of an axis (R252). -/
def axisPeriod (s : State) (n : Nat) : Nat := if axisLocal s n then s.rn (axIdx n) 9 else s.lcLen

/-- Base ticks from now to the target instant: 2P, or, on the return from coast, one period after the instant of the state that
was read (R198, R253, R278). -/
def axisAhead (s : State) (n : Nat) : Nat :=
  if (s.axis n).resumeDue then (s.axis n).target + axisPeriod s n - s.clock.tick else 2 * axisPeriod s n

/-- Base ticks a profile has run at the target instant of the sample, from its run at the axis's last target instant (R253).
(DEDUCED, notes/assumptions/59.md) -/
def axisRun (s : State) (n run : Nat) : Nat := run + (s.clock.tick + axisAhead s n) - (s.axis n).target

/-- The move limits of an axis (R258) and its stop limits (R262). -/
structure Limits where
  vmax : F64
  acc  : F64
  dec  : F64
  jerk : F64
  stopDec  : F64
  stopJerk : F64
  deriving DecidableEq, Repr

def axisLimits (s : State) (n : Nat) : Limits :=
  let r := s.rn (axIdx n)
  ⟨fix32 (r 0x10), fix32 (r 0x11), fix32 (r 0x12), fix48 (r 0x13), fix32 (r 0x14), fix48 (r 0x15)⟩

/-- Whether an axis is LINEAR (R250), and its soft limits. -/
def axisLinear (s : State) (n : Nat) : Bool := s.rn (axIdx n) 0x16 = 1
def softPos (s : State) (n : Nat) : Int := s.ri (axIdx n) 0x17 64
def softNeg (s : State) (n : Nat) : Int := s.ri (axIdx n) 0x18 64

def withinSoft (s : State) (n : Nat) (p : Int) : Bool := !axisLinear s n || (softNeg s n ≤ p && p ≤ softPos s n)

/-- An absolute target (R250): as written on a LINEAR axis, within 2^31 counts of the setpoint on an ENDLESS one. -/
def resolveTarget (s : State) (n : Nat) (p : Int) (t : Nat) : Int :=
  if axisLinear s n then toSigned 64 t else p + toSigned 64 (ofSigned 64 ((t : Int) - p))

/-- Whether a masked Rein bit of axis n is set as known to CX (R256). -/
def axisRein (s : State) (n : Nat) : Bool := s.reinHit (s.rn (axIdx n) 0x19) (s.rn (axIdx n) 0x1A)

/-- The actual position of a local axis with an encoder (R305). -/
def localActual (s : State) (a : Nat) : Option Int :=
  let i := 0x7580 + a
  let e := s.rn i 0x0E
  if e = 0xFF then none
  else some (Int.tdiv ((s.enc e).count * s.ri i 0x0F 32 * 2 ^ 32) (s.rn i 0x10) + s.ri i 0x18 64)

/-- The actual position that an axis reads, none where none is configured; and whether it is STALE or invalid (R30, R152, R282,
R305). -/
def axisActual (s : State) (n : Nat) : Option Int × Bool :=
  if axisLocal s n then (localActual s (axisInst s n), !s.axToCx)
  else
    let off := s.rn (axIdx n) 8
    if off = 0xFFFF then (none, false)
    else
      let st := s.station (axisInst s n)
      let w := if s.rn (axIdx n) 7 = 1 then 8 else 4
      (some (toSigned (8 * w) (leNat (slice st.inputs off w)) * 2 ^ 32), !st.hasInputs || st.stale)

/-! Counting and answering commands (R257). -/

/-- A command of axis n taken up and refused (OD 5000+n:1D). -/
def refuseOrder (s : State) (n : Nat) (o : AxisOrder) (code : Nat) : State :=
  let s := s.setNum (axIdx n) 0x1D (code * 2 ^ 16 + s.rn (axIdx n) 0x1E % 2 ^ 16)
  if o.direct then answerWrite s o.client o.txn o.daz [⟨axIdx n, 0x1C, .oct []⟩] code 0 else s

/-- A command of axis n taken up and carried out. -/
def acceptOrder (s : State) (n : Nat) (o : AxisOrder) (status : Nat) : State :=
  if o.direct then answerWrite s o.client o.txn o.daz [⟨axIdx n, 0x1C, .oct []⟩] abOk status else s

/-! The command record (R257). -/

/-- Whether every field that an opcode does not use is 0 and every coded field has a listed value (R257). -/
def axisFieldsBad (op : Nat) (c : AxisCmd) : Bool :=
  let f := c.flags.toNat
  let at_ := bit f 0
  let blend := bit f 1
  let lout := bit f 2
  let zero := fun (b : BitVec 64) => b = 0
  let lead0 : Bool := c.lead = 0
  let past0 : Bool := c.pastDue = 0
  let num0 : Bool := c.num = 0 && c.den = 0
  let dist0 : Bool := c.dist = 0
  let pastOk : Bool := if at_ then c.pastDue.toNat ≤ 2 else past0
  if op = 1 || op = 2 || op = 3 then f ≠ 0 || !lead0 || !past0 || !zero c.b || !num0 || !dist0
  else if op = 4 || op = 8 then f ≠ 0 || !lead0 || !past0 || !zero c.a || !zero c.b || !num0 || !dist0
  else if op = 5 then
    blend || lout || bits f 7 4 ≠ 0 || c.lead.toNat > 7 || !pastOk || (!at_ && (!zero c.a || !zero c.b)) || c.den = 0
  else if op = 6 then
    lout || bits f 7 4 ≠ 0 || !lead0 || !pastOk || (!at_ && !zero c.a) || !zero c.b || c.den = 0 || (!blend && !dist0)
  else if op = 7 then
    if lout then blend || bits f 7 4 ≠ 0 || !lead0 || !pastOk || (!at_ && !zero c.a) || !num0
    else f ≠ 0 || !lead0 || !past0 || !zero c.a || !zero c.b || !num0 || !dist0
  else true

/-- DIST of 0 where the opcode uses it (R257). -/
def axisDistZero (op : Nat) (c : AxisCmd) : Bool :=
  c.dist = 0 && (op = 5 || (op = 6 && bit c.flags.toNat 1) || (op = 7 && bit c.flags.toNat 2))

/-- Bytes of a command record. -/
def axisRecord (op : Nat) (c : AxisCmd) : List Byte :=
  [BitVec.ofNat 8 op, c.flags, c.lead, c.pastDue] ++ leBytes 8 c.a.toNat ++ leBytes 8 c.b.toNat ++ leBytes 4 c.num.toNat ++
    leBytes 4 c.den.toNat ++ leBytes 4 c.dist.toNat

/-- The opcode and fields of a command record. -/
def axisOfRecord (b : List Byte) : Nat × AxisCmd :=
  let w := fun off len => leNat (slice b off len)
  (w 0 1, ⟨BitVec.ofNat 8 (w 1 1), BitVec.ofNat 8 (w 2 1), BitVec.ofNat 8 (w 3 1), BitVec.ofNat 64 (w 4 8),
    BitVec.ofNat 64 (w 12 8), BitVec.ofNat 32 (w 20 4), BitVec.ofNat 32 (w 24 4), BitVec.ofNat 32 (w 28 4)⟩)

/-- Refusals by the state table (R256, R265, R281). (DEDUCED, notes/assumptions/60.md) -/
def axisStateAbort (s : State) (n op : Nat) : Nat :=
  let x := s.axis n
  let move : Bool := op = 1 || op = 2 || op = 3
  if x.st = axDisabled then abNotEnabled
  else if x.st = axGrouped then abInGroup
  else if op ≠ 4 && op ≠ 8 && axisRein s n then abHaltActive
  else if op = 4 then (if x.st = axDropout || x.st = axFault || x.st = axFailed then abLocked else abOk)
  else if op = 8 then
    if x.st = axFault then abOk
    else if x.st = axDropout then
      if (s.station (axisInst s n)).st = stOperational then abOk else abStationNotReady
    else abLocked
  else if move then
    if x.st = axStandstill || x.st = axMoving then abOk
    else if x.st = axStopping && x.cause = scCommand then abOk
    else if (x.st = axStopping || x.st = axRearm) && x.cause = scDisable then abNotEnabled
    else abLocked
  else if op = 5 then (if x.st = axStandstill || (x.st = axMoving && x.velHold) then abOk else abLocked)
  else if op = 6 then
    if x.st = axGeared then abOk else abLocked
  else if op = 7 then (if x.st = axGeared then abOk else abLocked)
  else abLocked

/-- The target that a MOVE_ABS or MOVE_REL gives at present (R250, R257). (DEDUCED, notes/assumptions/63.md) -/
def moveTarget (s : State) (n op : Nat) (c : AxisCmd) : Int :=
  let x := s.axis n
  if op = 1 then resolveTarget s n x.p c.a.toNat
  else
    let base := if x.st = axMoving then ((x.prof.bind (·.target)).getD x.p) else x.p
    base + toSigned 64 c.a.toNat

/-- LIMIT on write of a MOVE_ABS or MOVE_REL (R259). -/
def moveLimitAbort (s : State) (n op : Nat) (c : AxisCmd) : Bool :=
  (op = 1 || op = 2) && !withinSoft s n (moveTarget s n op c)

/-! Stop ramps (R262 to R264). -/

/-- The magnitude with which a stop step starts or goes on: the acceleration where it opposes the motion, else 0 (R195). -/
def opposing (v a : F64) : F64 :=
  let m := signed (-v.sign) a
  if m.sign < 0 then F64.zero else m

/-- One stop step of `dt` base ticks from (p, v, a), with a signed (R195, R262). -/
def stopMove (dec jerk : F64) (dt : Nat) (p : Int) (v a : F64) : Int × F64 × F64 :=
  let r := stopStep dec jerk (F64.ofInt dt) v (opposing v a)
  let d := r.1.mul (F64.ofInt dt)
  (p + toFix d, r.1, signed (-v.sign) r.2)

/-- The motion in progress ends (a stop, a dropout, a completed move). -/
def Axis.endMotion (x : Axis) : Axis :=
  { x with prof := none, velHold := false, gear := none, ramp := none, ratio := none, gearOut := none }

/-- A stop cause of the axis itself (R263): a higher code replaces STOP_CAUSE. -/
def Axis.addCause (x : Axis) (c : Nat) : Axis := { x with causes := c :: x.causes, cause := max x.cause c }

/-- An axis starts its stop ramp, or a further cause joins it (R263). -/
def Axis.stopWith (x : Axis) (c : Nat) : Axis :=
  if x.st = axStopping || x.st = axRearm then x.addCause c
  else { (x.endMotion).addCause c with st := axStopping }

/-- Whether a state takes stop causes (R256). -/
def stoppable (st : Nat) : Bool := !(st = axDisabled || st = axDropout || st = axFault || st = axFailed)

/-- DISABLED at once or after a ramp: the placement is released. Commands that wait are taken up in DISABLED (R256, R257). -/
def Axis.toDisabled (x : Axis) : Axis :=
  { x.endMotion with st := axDisabled, cause := 0, causes := [], v := F64.zero, a := F64.zero, placed := false,
                     disabledIn := false, enableAt := false, disableAt := false, dropAt := false, failAt := false, resetDue := false }

/-- The state after a complete ramp (R264). -/
def rampDone (s : State) (n : Nat) (x : Axis) : Axis :=
  let y := { x.endMotion with cause := 0, causes := [], v := F64.zero, a := F64.zero, disabledIn := false }
  if x.causes.contains scDropout then { y with st := axDropout }
  else if x.causes.contains scFault || x.causes.contains scLimit then { y with st := axFault }
  else if x.st = axStopping && x.disabledIn then x.toDisabled
  else if x.st = axRearm then
    if axisRein s n then { x.toDisabled with rearmDisc := true, discards := x.discards + 1 } else { y with st := axStandstill }
  else { y with st := axStandstill }

/-- A homing ended by a stop or a failure (R311, R313). -/
def abortHoming (s : State) (n result : Nat) : State :=
  let a := axisInst s n
  (s.setLoc a { s.loc a with homing := Homing.init }).setNum (0x5A00 + a) 0x0D result

/-- A stop cause arises on axis n; a HOMING axis reports ABORTED (R311). (DEDUCED, notes/assumptions/64.md) -/
def stopAxis (s : State) (n c : Nat) : State :=
  let x := s.axis n
  let s := if x.st = axHoming then abortHoming s n 3 else s
  s.setAxis n (x.stopWith c)

/-! Groups (R266 to R268, R280). -/

def grpIdx (g : Nat) : Nat := 0x5800 + g

/-- The members of a group record (R284). -/
def membersOf (rec : List Byte) : List Nat :=
  (List.range 16).map (fun i => leNat (slice rec (2 * i) 2)) |>.filter (· ≠ 0xFFFF)

def groupMembers (s : State) (g : Nat) : List Nat := membersOf (s.reg (grpIdx g) 3).octets

/-- The group whose member list names an axis (R266). -/
def groupOf (s : State) (n : Nat) : Option Nat :=
  s.regs.findSome? fun p =>
    if regKey (grpIdx 0) 0 ≤ p.1 && p.1 < regKey (grpIdx 256) 0 && p.1 = regKey (p.1 / 256) 3 && (membersOf p.2.octets).contains n then
      some (p.1 / 256 - grpIdx 0)
    else none

/-- The group starts its stop along the path with a cause (R268): its members take the same STOP_CAUSE. -/
def groupStop (s : State) (g c : Nat) : State :=
  let x := s.group g
  let s := s.setGroup g { x with st := 2, cause := max x.cause c }
  (groupMembers s g).foldl (fun s n =>
    let a := s.axis n
    if a.st = axGrouped then s.setAxis n { a with cause := max a.cause c } else s) s

/-- The path ends for every member that is still GROUPED: after a stop by each member's own causes, else at its target. -/
def groupEnd (s : State) (g : Nat) (atEnd : Bool) : State :=
  let x := s.group g
  let s := (groupMembers s g).foldl (fun s n =>
    let a := s.axis n
    if a.st ≠ axGrouped then s
    else if atEnd then s.setAxis n { a with st := axStandstill, v := F64.zero, a := F64.zero, atTarget := true, cause := 0 }
    else s.setAxis n (rampDone s n { a with st := axStopping })) s
  let dropped := (groupMembers s g).any fun n =>
    let a := s.axis n
    a.st = axDropout || a.st = axStopping && a.causes.contains scDropout
  s.setGroup g { x with st := if dropped then 3 else 0, cause := 0, prof := none, lamV := F64.zero, lamA := F64.zero }

/-- The setpoints of the members at the present λ (R267). -/
def groupSetpoints (s : State) (g : Nat) (exact : Bool) : State :=
  let x := s.group g
  ((groupMembers s g).zip (x.starts.zip x.dists)).foldl (fun s r =>
    let a := s.axis r.1
    if a.st ≠ axGrouped then s
    else
      let d := F64.ofScaled r.2.2 (-32)
      let p := if exact then r.2.1 + r.2.2 else r.2.1 + toFix (d.mul x.lam)
      s.setAxis r.1 { a with p := p, v := d.mul x.lamV, a := d.mul x.lamA }) s

/-- λ steps by one sample of member n along its profile or its stop ramp (R267, R268). (DEDUCED, notes/assumptions/65.md) -/
def groupAdvance (s : State) (g n : Nat) : State :=
  let x := s.group g
  if x.st = 2 then
    let r := stopMove x.stopDec x.stopJerk (axisPeriod s n) (toFix x.lam) x.lamV x.lamA
    let s := s.setGroup g { x with lam := F64.ofScaled r.1 (-32), lamV := r.2.1, lamA := r.2.2 }
    let s := groupSetpoints s g false
    if r.2.1.sign = 0 then groupEnd s g false else s
  else
    match x.prof with
    | none => s
    | some pr =>
      let run := axisRun s n pr.run
      if (curveTime pr.segs).le (F64.ofInt run) then
        let s := s.setGroup g { x with lam := F64.ofInt 1, lamV := F64.zero, lamA := F64.zero }
        groupEnd (groupSetpoints s g true) g true
      else
        let q := curveAt pr.segs (F64.ofInt run) F64.zero pr.v0 pr.a0
        let s := s.setGroup g { x with prof := some { pr with run := run }, lam := q.1, lamV := q.2.1, lamA := q.2.2 }
        groupSetpoints s g false

/-- The least of a list of limits. -/
def minF (l : List F64) : F64 :=
  match l with
  | [] => F64.zero
  | a :: t => t.foldl F64.min a

/-- Plans a group move with the members' distances (R267): limits of λ, the members that set V and A, λ from rest at 0 to rest
at 1. Members that do not move take no part in the limits. -/
def planGroup (s : State) (g : Nat) (dists : List Int) : State :=
  let ms := groupMembers s g
  let act := (ms.zip (dists.zip (List.range ms.length))).filter fun r => r.2.1 ≠ 0
  let per := fun (f : Limits → F64) => act.map fun r => ((f (axisLimits s r.1)).div (F64.ofScaled r.2.1 (-32)).abs, r.2.2)
  let first := fun (l : List (F64 × Nat)) => ((l.find? fun p => p.1 = minF (l.map (·.1))).map (·.2)).getD 0
  let V := per (·.vmax)
  let A := per (·.acc)
  let lim := fun (l : List (F64 × Nat)) => minF (l.map (·.1))
  let pl := planTo (lim V) (lim A) (lim (per (·.dec))) (lim (per (·.jerk))) F64.zero F64.zero (F64.ofInt 1)
  let x := s.group g
  let s := s.setGroup g
    { x with st := 1, cause := 0, pathLeft := false, vMember := first V, aMember := first A, starts := ms.map fun n => (s.axis n).p,
             dists := dists, prof := some ⟨0, F64.zero, F64.zero, pl.segs, 0, none, F64.zero, false⟩, lam := F64.zero,
             lamV := F64.zero, lamA := F64.zero, stopDec := lim (per (·.stopDec)), stopJerk := lim (per (·.stopJerk)),
             active := act.map (·.1) }
  ms.foldl (fun s n => s.setAxis n { s.axis n with st := axGrouped, atTarget := false, softLimit := false }) s

/-- The targets of a group move as distances from the present setpoints. -/
def groupDists (s : State) (g op : Nat) (targets : List Int) : List Int :=
  ((groupMembers s g).zip targets).map fun r =>
    if op = 1 then resolveTarget s r.1 (s.axis r.1).p (ofSigned 64 r.2) - (s.axis r.1).p else r.2

/-- Why a group command is refused at present (R267, R268, R285). -/
def groupAbort (s : State) (g op : Nat) (targets : List Int) : Nat :=
  let ms := groupMembers s g
  if op = 4 then
    if (s.group g).st = 1 || (s.group g).st = 2 then abOk else abLocked
  else if ms.any (fun n => axisRein s n) then abHaltActive
  else if (ms.zip (groupDists s g op targets)).any (fun r => !withinSoft s r.1 ((s.axis r.1).p + r.2)) then abLimit
  else if (s.group g).st ≠ 0 || ms.any (fun n => (s.axis n).st ≠ axStandstill) then abGroupMoving
  else abOk

/-- A group command taken up (R257, R267, R268). -/
def groupTakeUp (s : State) (g : Nat) (o : GroupOrder) : State :=
  let x := s.group g
  let s := s.setGroup g { x with taken := x.taken + 1 }
  let code := groupAbort s g o.op o.targets
  let answer := fun (s : State) (c : Nat) =>
    if o.direct then answerWrite s o.client o.txn o.daz [⟨grpIdx g, 4, .oct []⟩] c 0 else s
  if code ≠ abOk then answer (s.setNum (grpIdx g) 6 (code * 2 ^ 16 + (x.taken + 1) % 2 ^ 16)) code
  else if o.op = 4 then
    let s := groupStop s g scCommand
    let s := (groupMembers s g).foldl (fun s n =>
      let a := s.axis n
      if a.st = axGrouped then s.setAxis n (a.addCause scCommand) else s) s
    answer s abOk
  else
    let d := groupDists s g o.op o.targets
    answer (if d.all (· = 0) then s else planGroup s g d) abOk

/-- A member that drops out of a moving group leaves it by its own reaction (R279). -/
def leaveGroup (s : State) (n : Nat) : Axis :=
  let x := { s.axis n with dropAt := false }
  if s.rn (axIdx n) 0x1B = 0 then { x.addCause scDropout with st := axStopping }
  else { x.endMotion with st := axDropout, v := F64.zero, a := F64.zero, cause := 0, causes := [] }

/-- A dropped member of a moving group, and what the group does with the others, which keep their own causes (R279, R280).
(DEDUCED, notes/assumptions/126.md) -/
def groupDropout (s : State) (g n : Nat) : State :=
  let s := s.setAxis n (leaveGroup s n)
  match s.rn (grpIdx g) 5 with
  | 0 => groupStop s g scDropout
  | 1 =>
    let s := (groupMembers s g).foldl (fun s m =>
      let a := s.axis m
      if a.st = axGrouped then s.setAxis m { a with st := axStopping, cause := max a.cause scDropout } else s) s
    s.setGroup g { s.group g with st := 3, pathLeft := true, prof := none, lamV := F64.zero, lamA := F64.zero }
  | _ => s

/-- The causes of the GROUPED members at this boundary: dropouts, Rein bits, disables (R256, R268). -/
def groupCauses (s : State) (g : Nat) : State :=
  let ms := groupMembers s g
  let s := ms.foldl (fun s n => if (s.axis n).st = axGrouped && (s.axis n).dropAt then groupDropout s g n else s) s
  let s := ms.foldl (fun s n =>
    let a := s.axis n
    if a.st = axGrouped && axisRein s n && !a.causes.contains scRein then
      groupStop (s.setAxis n { a.addCause scRein with reinSeen := true }) g scRein
    else s) s
  ms.foldl (fun s n =>
    let a := s.axis n
    if a.st = axGrouped && a.disableAt then
      groupStop (s.setAxis n { a.addCause scDisable with disableAt := false, disabledIn := true }) g scDisable
    else s) s

/-- The sample of a group at boundary k, made with the first of its members' samples (R266 to R268). Commands to GROUPED members
are refused before the path may end (R256). -/
def groupSample (s : State) (g n : Nat) : State :=
  if (s.group g).stepTick = some s.clock.tick then s
  else
    let s := s.setGroup g { s.group g with stepTick := some s.clock.tick }
    let s := groupCauses s g
    let os := (s.group g).orders
    let s := s.setGroup g { s.group g with orders := [] }
    let s := (groupMembers s g).foldl (fun s m =>
      let a := s.axis m
      if a.st = axGrouped then
        let s := s.setAxis m { a with orders := [] }
        a.orders.foldl (fun s o => refuseOrder (s.bump (axIdx m) 0x1E) m o abInGroup) s
      else s) s
    let s := os.foldl (fun s o => groupTakeUp s g o) s
    if (s.group g).st = 1 || (s.group g).st = 2 then groupAdvance s g n else s

/-- After a RESET released a member, a group whose members are all released leaves DROPOUT (R281). -/
def groupRelease (s : State) (n : Nat) : State :=
  match groupOf s n with
  | none => s
  | some g =>
    if (s.group g).st = 3 && !(groupMembers s g).any (fun m => (s.axis m).st = axDropout || (s.axis m).st = axStopping) then
      s.setGroup g { s.group g with st := 0 }
    else s

/-! Profiles at work (R258 to R260). -/

/-- A profile's setpoint, velocity, acceleration and whether it has ended, at its present run. -/
def profAt (pr : Profile) : Int × F64 × F64 × Bool :=
  let t := F64.ofInt pr.run
  let total := curveTime pr.segs
  if total.le t then
    match pr.target with
    | some p => (p, F64.zero, F64.zero, true)
    | none =>
      let q := curveAt pr.segs total F64.zero pr.v0 pr.a0
      (pr.anchor + toFix (q.1.add (pr.vEnd.mul (t.sub total))), pr.vEnd, F64.zero, true)
  else
    let q := curveAt pr.segs t F64.zero pr.v0 pr.a0
    (pr.anchor + toFix q.1, q.2.1, q.2.2, false)

/-- The acceleration of an axis as a profile starts with it. -/
def startAcc (x : Axis) : F64 := x.a

/-- A point-to-point profile from the present state to a target (R258), or none where a LINEAR axis would leave its soft limits
(R259). -/
def planMove (s : State) (n : Nat) (target : Int) : Option Profile :=
  let x := s.axis n
  let l := axisLimits s n
  let pl := planTo l.vmax l.acc l.dec l.jerk x.v (startAcc x) (F64.ofScaled (target - x.p) (-32))
  if withinSoft s n target && pl.stops.all (fun d => withinSoft s n (x.p + toFix d)) then
    some ⟨x.p, x.v, startAcc x, pl.segs, 0, some target, F64.zero, false⟩
  else none

/-- A velocity profile to w, held to the limit V (R260). -/
def planVelocity (s : State) (n : Nat) (w : F64) : Profile :=
  let x := s.axis n
  let l := axisLimits s n
  let w := if l.vmax.lt w.abs then signed w.sign l.vmax else w
  ⟨x.p, x.v, startAcc x, planVel l.acc l.dec l.jerk x.v (startAcc x) w, 0, none, w, false⟩

/-- An axis takes up a profile: MOVING. -/
def startProfile (s : State) (n : Nat) (pr : Profile) : State :=
  let x := s.axis n
  s.setAxis n { x.endMotion with st := axMoving, prof := some pr, atTarget := false, softLimit := false, cause := 0, causes := [] }

/-- The limit test of a velocity move on a LINEAR axis (R260): the profile to the limit where it must begin now. -/
def limitReplan (s : State) (n : Nat) : State :=
  let x := s.axis n
  let per := axisPeriod s n
  match x.prof with
  | none => s
  | some pr =>
    if !axisLinear s n || pr.target.isSome || x.v.sign = 0 then s
    else
      let lim := if x.v.sign > 0 then softPos s n else softNeg s n
      let rest := F64.ofScaled (if x.v.sign > 0 then lim - x.p else x.p - lim) (-32)
      let l := axisLimits s n
      let need := (vdist l.jerk x.v.abs F64.zero l.dec).add (x.v.abs.mul (F64.ofInt (2 * per)))
      if rest.le need then
        let pl := planTo l.vmax l.acc l.dec l.jerk x.v (startAcc x) (F64.ofScaled (lim - x.p) (-32))
        s.setAxis n { x with prof := some ⟨x.p, x.v, startAcc x, pl.segs, 0, some lim, F64.zero, true⟩, velHold := false }
      else s

/-- A sample of a MOVING axis (R258, R260). -/
def movingSample (s : State) (n : Nat) : State :=
  let s := limitReplan s n
  let x := s.axis n
  match x.prof with
  | none => s.setAxis n { x with st := axStandstill, v := F64.zero, a := F64.zero }
  | some pr =>
    let pr := { pr with run := axisRun s n pr.run }
    let q := profAt pr
    if q.2.2.2 && pr.target.isSome then
      s.setAxis n { x.endMotion with p := q.1, v := F64.zero, a := F64.zero, st := axStandstill, atTarget := true,
                                     softLimit := pr.toLimit }
    else s.setAxis n { x with p := q.1, v := q.2.1, a := q.2.2.1, prof := some pr, velHold := q.2.2.2 }

/-- A sample of a STOPPING or REARM_PENDING axis (R262, R264). -/
def stopSample (s : State) (n : Nat) : State :=
  let x := s.axis n
  let l := axisLimits s n
  let r := stopMove l.stopDec l.stopJerk (axisPeriod s n) x.p x.v x.a
  let x := { x with p := r.1, v := r.2.1, a := r.2.2 }
  if r.2.1.sign = 0 then s.setAxis n (rampDone s n x) else s.setAxis n x

/-! Electronic gearing (R269 to R275). -/

/-- L_t of R269 for a target instant `k` base ticks ahead. -/
def leadTarget (s : State) (n k : Nat) : Nat := (s.lead n).ahead k

/-- The geared setpoint of R269. -/
def gearPos (g : Gear) (lt : Nat) : Int := g.pRef + Int.tdiv (g.num * diff64 lt g.lRef) g.den

/-- A Lead position moved by a signed distance in lu. -/
def moveLead (p : Nat) (d : Int) : Nat := ofSigned 64 ((p : Int) + d)

/-- B of a ramp in laps. -/
def laps (span : Nat) : F64 := F64.ofScaled span (-32)

/-- A ratio in counts per lap. -/
def ratioF (num : Int) (den : Nat) : F64 := (F64.ofInt num).div (F64.ofInt den)

/-- Powers of s, multiplied from left to right. -/
def powF (s : F64) : Nat → F64
  | 0 => F64.ofInt 1
  | 1 => s
  | k + 1 => (powF s k).mul s

/-- H0, Hs and He of R270, evaluated as written. -/
def quinticH0 (s : F64) : F64 :=
  (((F64.ofInt 10).mul (powF s 3)).sub ((F64.ofInt 15).mul (powF s 4))).add ((F64.ofInt 6).mul (powF s 5))
def quinticHs (s : F64) : F64 :=
  ((s.sub ((F64.ofInt 6).mul (powF s 3))).add ((F64.ofInt 8).mul (powF s 4))).sub ((F64.ofInt 3).mul (powF s 5))
def quinticHe (s : F64) : F64 :=
  (((F64.ofInt (-4)).mul (powF s 3)).add ((F64.ofInt 7).mul (powF s 4))).sub ((F64.ofInt 3).mul (powF s 5))

/-- The setpoint of a ramp at Lead coordinate s (R270, R272). -/
def rampPos (r : Ramp) (s : F64) : Int :=
  let b := (signed r.dir (F64.ofInt 1)).mul (laps r.span)
  let y := (F64.ofScaled (r.y - r.p0) (-32)).mul (quinticH0 s)
  let k := (b.mul r.k0).mul (quinticHs s)
  let e := (b.mul (ratioF r.num r.den)).mul (quinticHe s)
  r.p0 + toFix ((y.add k).add e)

/-- Lead travel from the start of a ramp in its direction. -/
def rampTravel (r : Ramp) (lt : Nat) : Int := r.dir * diff64 lt r.l0

/-- The direction ±1 of the BACKWARD flag (R257). -/
def cmdDir (c : AxisCmd) : Int := if bit c.flags.toNat 3 then -1 else 1

/-- Whether a Lead event at X is past due at take-up (R273). -/
def eventPastDue (x lt : Nat) (dir : Int) : Bool := dir * diff64 x lt < 0

/-- Laps that bring a past-due event to the first position not past due (R273, R119). -/
def eventLaps (x lt : Nat) (dir : Int) : Nat := ((-(dir * diff64 x lt) + 2 ^ 32 - 1) / 2 ^ 32).toNat

/-- The new setpoint of a geared or syncing axis, with velocity and acceleration from the previous one (R275). -/
def leadFollow (s : State) (n : Nat) (x : Axis) (pos : Int) : State :=
  let per := F64.ofInt (axisPeriod s n)
  let l := axisLimits s n
  let v := (F64.ofScaled (pos - x.p) (-32)).div per
  let dv := (v.sub x.v).abs
  let old := s.axis n
  if (l.stopDec.mul per).lt dv then
    stopSample ((s.setAxis n { old.stopWith scFault with gearOver := true }).bump (axIdx n) 0x24) n
  else if axisLinear s n && ((pos > softPos s n && pos > x.p) || (pos < softNeg s n && pos < x.p)) then
    stopSample (s.setAxis n (old.stopWith scLimit)) n
  else s.setAxis n { x with v := v, a := (v.sub x.v).div per, p := pos }

/-- A waiting or running ratio change at Lead position `lt` (R271): the axis with its gear brought up to date, and the setpoint. -/
def ratioStep (s : State) (n : Nat) (x : Axis) (g : Gear) (lt : Nat) : Axis × Int :=
  match x.ratio with
  | none => (x, gearPos g lt)
  | some c =>
    let t := c.dir * diff64 lt c.x
    if t < 0 then (x, gearPos g lt)
    else
      let posX := if c.begun then c.posX else gearPos g c.x
      if !c.blend then
        let dr := ((ratioF c.num c.den).sub (ratioF g.num g.den)).abs
        let vl := F64.ofScaled (s.lead g.lead).vel (-64)
        let l := axisLimits s n
        let step := (l.acc.mul (F64.ofInt (axisPeriod s n))).lt (dr.mul vl.abs)
        let g' : Gear := ⟨g.lead, c.num, c.den, posX, c.x⟩
        ({ x with gear := some g', ratio := none, gearStep := step }, gearPos g' lt)
      else if t ≥ c.span then
        let pr := posX + Int.tdiv (c.dir * (g.num * c.span * c.den + c.num * c.span * g.den)) (2 * g.den * c.den)
        let g' : Gear := ⟨g.lead, c.num, c.den, pr, moveLead c.x (c.dir * c.span)⟩
        ({ x with gear := some g', ratio := none }, gearPos g' lt)
      else
        let sx := (F64.ofInt t).div (F64.ofInt c.span)
        let b := laps c.span
        let r0 := ratioF g.num g.den
        let r1 := ratioF c.num c.den
        let first := (r0.mul b).mul sx
        let second := ((r1.sub r0).mul b).mul ((powF sx 3).sub ((powF sx 4).div f2))
        let d := (signed c.dir (F64.ofInt 1)).mul (first.add second)
        ({ x with ratio := some { c with begun := true, posX := posX } }, posX + toFix d)

/-- The ratio in force at Lead position `l`, in counts per lap, of an axis brought up to date there (R271). -/
def ratioAt (x : Axis) (g : Gear) (l : Nat) : F64 :=
  let r0 := ratioF g.num g.den
  match x.ratio with
  | some c =>
    let t := c.dir * diff64 l c.x
    if c.begun && t ≥ 0 then
      let sx := (F64.ofInt t).div (F64.ofInt c.span)
      r0.add (((ratioF c.num c.den).sub r0).mul (((F64.ofInt 3).mul (powF sx 2)).sub ((F64.ofInt 2).mul (powF sx 3))))
    else r0
  | none => r0

/-- The setpoint of a ramp while s < 0: a gear-in holds its start state, a gear-out the gearing at L0 (R270, R272). (DEDUCED,
notes/assumptions/67.md) -/
def rampHeld (s : State) (n : Nat) (r : Ramp) (t : Int) : Int :=
  if r.out then r.p0 + toFix ((signed r.dir r.k0).mul (F64.ofScaled t (-32)))
  else if r.v0.sign = 0 then r.p0
  else (s.axis n).p + toFix (r.v0.mul (F64.ofInt (axisPeriod s n)))

/-- A gear-in ramp whose Lead crosses L0, t of travel ago (R270): p0 is the setpoint there and k0 the slope. -/
def rampStart (s : State) (n : Nat) (r : Ramp) (t : Int) : Ramp :=
  if r.begun || !r.held || r.v0.sign = 0 then r
  else
    let vl := F64.ofScaled (s.lead r.lead).vel (-64)
    let k0 := if vl.sign = 0 then r.k0 else r.v0.div vl
    let p0 := rampHeld s n r t - toFix ((signed r.dir k0).mul (F64.ofScaled t (-32)))
    let y := p0 + toFix ((((signed r.dir (F64.ofInt 1)).mul (k0.add (ratioF r.num r.den))).mul (laps r.span)).div f2)
    { r with p0 := p0, k0 := k0, y := if r.rel then y else r.y }

/-- A sample of a SYNCING axis (R270, R272): a gear-in ends GEARED, a gear-out in STANDSTILL at Y. -/
def syncSample (s : State) (n : Nat) : State :=
  let x := s.axis n
  match x.ramp with
  | none => s.setAxis n { x with st := axStandstill }
  | some r =>
    let lt := leadTarget s r.lead (axisAhead s n)
    let t := rampTravel r lt
    let r := rampStart s n r t
    if t < 0 then leadFollow s n { x with ramp := some { r with begun := r.out, held := !r.out } } (rampHeld s n r t)
    else if t ≥ r.span then
      if r.out then
        let s := leadFollow s n { x.endMotion with st := axStandstill, atTarget := true } r.y
        let y := s.axis n
        if y.st = axStandstill then s.setAxis n { y with v := F64.zero, a := F64.zero } else s
      else
        let g : Gear := ⟨r.lead, r.num, r.den, r.y, moveLead r.l0 (r.dir * r.span)⟩
        leadFollow s n { x with st := axGeared, ramp := none, gear := some g } (gearPos g lt)
    else leadFollow s n { x with ramp := some { r with begun := true } } (rampPos r ((F64.ofInt t).div (F64.ofInt r.span)))

/-- A sample of a GEARED axis: a GEAR_OUT that waits for its Lead position starts when the Lead reaches it, from the setpoint and the
ratio in force there (R269, R271, R272). -/
def gearedSample (s : State) (n : Nat) : State :=
  let x := s.axis n
  match x.gear with
  | none => s.setAxis n { x with st := axStandstill }
  | some g =>
    let lt := leadTarget s g.lead (axisAhead s n)
    let follow :=
      let q := ratioStep s n x g lt
      leadFollow s n q.1 q.2
    match x.gearOut with
    | none => follow
    | some r =>
      if rampTravel r lt < 0 then follow
      else
        let q := ratioStep s n x g r.l0
        let r := { r with p0 := q.2, k0 := ratioAt q.1 (q.1.gear.getD g) r.l0, begun := true }
        syncSample (s.setAxis n { q.1 with st := axSyncing, ramp := some r, gearOut := none, gear := none, ratio := none }) n

/-- Shifts the Lead anchors of every axis on a Lead that a jump was added to (R269): the reference pair, the start of a ramp that
has begun and the X of a blend that has begun. -/
def shiftAnchors (s : State) (lead : Nat) (jump : Int) : State :=
  { s with axes := mapVals (fun _ (x : Axis) =>
      { x with
        gear := x.gear.map fun g => if g.lead = lead then { g with lRef := moveLead g.lRef jump } else g
        ramp := x.ramp.map fun r => if r.lead = lead && r.begun then { r with l0 := moveLead r.l0 jump } else r
        ratio := x.ratio.map fun c =>
          if c.begun && (x.gear.any fun g => g.lead = lead) then { c with x := moveLead c.x jump } else c }) s.axes }

/-- The jump of R269 and R194: the sample that carries JUMP less the position predicted from the previous sample. -/
def Lead.jumpLu (l : Lead) : Int := if l.jumped then diff64 l.pos64 l.pred else 0

/-- Every Lead that jumped in this base tick shifts the anchors on it. (DEDUCED, notes/assumptions/66.md) -/
def applyJumps (s : State) : State :=
  forNums 8 s fun s n => if (s.lead n).jumped then shiftAnchors s n (s.lead n).jumpLu else s

/-! Taking up commands (R256 to R273). -/

/-- Whether motion from the present setpoint in direction `d` points into a tripped limit (R310). -/
def intoLimit (s : State) (n : Nat) (d : Int) : Bool :=
  axisLocal s n &&
    (let l := s.loc (axisInst s n)
     (d > 0 && (getAt InLatch.init l.latches 0).latched) || (d < 0 && (getAt InLatch.init l.latches 1).latched))

/-- What a command's take-up answers: its abort code with LATE and NEXT_LAP, and the state. -/
structure TakeUp where
  code   : Nat
  status : Nat
  state  : State

def refused (s : State) (code : Nat) : TakeUp := ⟨code, 0, s⟩
def taken_ (s : State) (status : Nat) : TakeUp := ⟨abOk, status, s⟩

/-- MOVE_ABS and MOVE_REL (R257 to R259). -/
def takeMove (s : State) (n op : Nat) (c : AxisCmd) : TakeUp :=
  let t := moveTarget s n op c
  if intoLimit s n (t - (s.axis n).p).sign then refused s abLimit
  else
    match planMove s n t with
    | some pr => taken_ (startProfile s n pr) 0
    | none => refused s abLimit

/-- MOVE_VEL (R260). -/
def takeVel (s : State) (n : Nat) (c : AxisCmd) : TakeUp :=
  let w := toSigned 64 c.a.toNat
  if intoLimit s n w.sign then refused s abLimit else taken_ (startProfile s n (planVelocity s n (fix32 w))) 0

/-- Past-due handling of a Lead event (R273): refusal code, moved position, status bits and lateness. -/
def pastDueEvent (s : State) (lead x lt : Nat) (dir : Int) (attr : Nat) (mayFire : Bool) : Nat × Nat × Nat × Nat :=
  if attr = 2 && !cyclicLead s lead then (abNotModular, x, 0, 0)
  else if !eventPastDue x lt dir then (abOk, x, 0, 0)
  else if attr = 2 then (abOk, moveLead x (dir * eventLaps x lt dir * 2 ^ 32), statNextLap, 0)
  else if attr = 0 && mayFire then (abOk, lt, statLate, (-(dir * diff64 x lt)).toNat)
  else (abPastDue, x, 0, 0)

/-- Records an event fired late (OD 5000+n:25, LATE). (DEDUCED, notes/assumptions/29.md) -/
def noteLate (s : State) (n : Nat) (status late : Nat) : State :=
  let s := s.setAxis n { s.axis n with late := status = statLate }
  if status = statLate then s.setNum (axIdx n) 0x25 (late % 2 ^ 32) else s

/-- GEAR_IN (R270, R273). (DEDUCED, notes/assumptions/67.md) -/
def takeGearIn (s : State) (n : Nat) (c : AxisCmd) : TakeUp :=
  let x := s.axis n
  let ln := c.lead.toNat
  let d := cmdDir c
  let b := c.dist.toNat * 2 ^ 16
  let lt := leadTarget s ln (axisPeriod s n)
  let vl := F64.ofScaled (s.lead ln).vel (-64)
  let stands : Bool := x.v.sign = 0
  if leadGone s ln then refused s abLeadUnavailable
  else if !stands && vl.sign = 0 then refused s abDependency
  else
    let k0 := if stands then F64.zero else x.v.div vl
    let num := toSigned 32 c.num.toNat
    let den := c.den.toNat
    let r := ratioF num den
    let at_ := bit c.flags.toNat 0
    let go := fun (s : State) (l0 : Nat) (y : Int) (status : Nat) =>
      let x := s.axis n
      taken_ (s.setAxis n { x.endMotion with
        st := axSyncing, atTarget := false, syncLost := false,
        ramp := some ⟨ln, l0, d, b, x.p, k0, num, den, y, false, false, 0, if stands then F64.zero else x.v, !at_, at_⟩ }) status
    if at_ then
      let start := moveLead c.a.toNat (-(d * b))
      let e := pastDueEvent s ln start lt d c.pastDue.toNat false
      if e.1 ≠ abOk then refused s e.1
      else go (noteLate s n 0 0) e.2.1 (resolveTarget s n x.p c.b.toNat) e.2.2.1
    else
      let y := x.p + toFix ((((signed d (F64.ofInt 1)).mul (k0.add r)).mul (laps b)).div f2)
      go (noteLate s n 0 0) lt y 0

/-- RATIO (R271, R273). (DEDUCED, notes/assumptions/69.md) -/
def takeRatio (s : State) (n : Nat) (c : AxisCmd) : TakeUp :=
  let x := s.axis n
  match x.gear with
  | none => refused s abLocked
  | some g =>
    let d := cmdDir c
    let num := toSigned 32 c.num.toNat
    let den := c.den.toNat
    let b := c.dist.toNat * 2 ^ 16
    let blend := bit c.flags.toNat 1
    let lt := leadTarget s g.lead (axisPeriod s n)
    let vl := (F64.ofScaled (s.lead g.lead).vel (-64)).abs
    let dr := ((ratioF num den).sub (ratioF g.num g.den)).abs
    let least := ((((F64.ofInt 6).mul dr).mul (powF vl 3)).div (axisLimits s n).jerk).sqrt
    if x.ratio.any fun c => c.begun then refused s abLocked
    else if blend && (laps b).lt least then refused s abRampTooShort
    else
      let at_ := bit c.flags.toNat 0
      let e := if at_ then pastDueEvent s g.lead c.a.toNat lt d c.pastDue.toNat true else (abOk, lt, 0, 0)
      if e.1 ≠ abOk then refused s e.1
      else
        let s := noteLate s n e.2.2.1 e.2.2.2
        taken_ (s.setAxis n { s.axis n with ratio := some ⟨e.2.1, d, num, den, blend, b, false, 0, c.pastDue.toNat⟩ }) e.2.2.1

/-- GEAR_OUT (R272, R273). (DEDUCED, notes/assumptions/68.md) -/
def takeGearOut (s : State) (n : Nat) (c : AxisCmd) : TakeUp :=
  let x := s.axis n
  match x.gear with
  | none => refused s abLocked
  | some g =>
    if !bit c.flags.toNat 2 then
      let l := axisLimits s n
      let z := phaseZ l.jerk x.v (startAcc x)
      let stopAt := z.2.2.add (signed z.2.1.sign (vdist l.jerk z.2.1.abs F64.zero l.dec))
      match planMove s n (x.p + toFix stopAt) with
      | some pr => taken_ (startProfile s n pr) 0
      | none => refused s abLimit
    else
      let d := cmdDir c
      let lt := leadTarget s g.lead (axisPeriod s n)
      let e := if bit c.flags.toNat 0 then pastDueEvent s g.lead c.a.toNat lt d c.pastDue.toNat true else (abOk, lt, 0, 0)
      if e.1 ≠ abOk then refused s e.1
      else
        let s := noteLate s n e.2.2.1 e.2.2.2
        let y := resolveTarget s n x.p c.b.toNat
        let r : Ramp := ⟨g.lead, e.2.1, d, c.dist.toNat * 2 ^ 16, 0, F64.zero, 0, 1, y, true, false, c.pastDue.toNat, F64.zero, false, false⟩
        taken_ (s.setAxis n { s.axis n with gearOut := some r }) e.2.2.1

/-- An axis that a RESET releases stands at p (R256, R281). -/
def releaseAxis (s : State) (n : Nat) (p : Int) : State :=
  let x := s.axis n
  groupRelease (s.setAxis n { x with st := axStandstill, p := p, v := F64.zero, a := F64.zero, gearOver := false, cause := 0, causes := [],
                                     resetDue := false }) n

/-- RESET (R256, R281). A DROPOUT axis takes the actual position of the first good inputs, or holds where none is configured. -/
def takeReset (s : State) (n : Nat) : TakeUp :=
  let x := s.axis n
  if x.st ≠ axDropout then taken_ (releaseAxis s n x.p) 0
  else
    match axisActual s n with
    | (some q, false) => taken_ (releaseAxis s n q) 0
    | (some _, true) => taken_ (s.setAxis n { x with resetDue := true, gearOver := false }) 0
    | (none, _) => taken_ (releaseAxis s n x.p) 0

/-- STOP (R263): a COMMAND cause. -/
def takeStop (s : State) (n : Nat) : TakeUp := taken_ (stopAxis s n scCommand) 0

/-- The effect of a command that the state table permits. -/
def takeCommand (s : State) (n op : Nat) (c : AxisCmd) : TakeUp :=
  match op with
  | 1 => takeMove s n 1 c
  | 2 => takeMove s n 2 c
  | 3 => takeVel s n c
  | 4 => takeStop s n
  | 5 => takeGearIn s n c
  | 6 => takeRatio s n c
  | 7 => takeGearOut s n c
  | _ => takeReset s n

/-- A command record taken up at the sample boundary (R257). -/
def takeOrder (s : State) (n : Nat) (o : AxisOrder) : State :=
  let s := s.bump (axIdx n) 0x1E
  let code := axisStateAbort s n o.op
  if code ≠ abOk then refuseOrder s n o code
  else
    let t := takeCommand s n o.op o.cmd
    if t.code ≠ abOk then refuseOrder s n o t.code else acceptOrder t.state n o t.status

/-! The sample (R253, R256). -/

/-- The setpoint of a DISABLED axis follows an actual position that is not STALE (R255). -/
def disabledFollow (s : State) (n : Nat) : State :=
  let x := s.axis n
  let act := axisActual s n
  let stale := act.1.isSome && act.2
  let p := if x.st = axDisabled then (match act with
    | (some q, false) => q
    | _ => x.p) else x.p
  let actual := act.1.getD x.p
  s.setAxis n { x with p := p, staleAct := stale, actual := actual, actualVel := actual - x.actual,
                       resumed := x.resumeDue, resumeDue := false, overrun := false }

/-- An axis in DROPOUT that waits for its first good inputs is released with them (R281). -/
def axisReleaseStep (s : State) (n : Nat) : State :=
  match axisActual s n with
  | (some q, false) => if (s.axis n).resetDue && (s.axis n).st = axDropout then releaseAxis s n q else s
  | _ => s

/-- An axis left without a unit enters FAILED and holds its last setpoint (R254, R256). -/
def axisFaultStep (s : State) (n : Nat) : State :=
  let x := s.axis n
  if x.failAt then
    s.setAxis n { x.endMotion with st := axFailed, failAt := false, enableAt := false, v := F64.zero, a := F64.zero, cause := 0, causes := [] }
  else s

/-- The dropout reaction of an axis (R279). During a stop ramp the ramp runs on and ends in DROPOUT (R265). -/
def axisDropoutStep (s : State) (n : Nat) : State :=
  let x := s.axis n
  if !x.dropAt || x.st = axGrouped then s
  else
    let s := s.setAxis n { x with dropAt := false, resetDue := false }
    if !stoppable x.st then s
    else if s.rn (axIdx n) 0x1B = 0 || x.st = axStopping || x.st = axRearm then stopAxis s n scDropout
    else
      let x := s.axis n
      s.setAxis n { x.endMotion with st := axDropout, v := F64.zero, a := F64.zero }

/-- A masked Rein bit stops the axis (R263); a standing axis, or a ramp, takes the cause when the bit becomes set. -/
def axisReinStep (s : State) (n : Nat) : State :=
  let x := s.axis n
  let hit := axisRein s n
  let fresh := hit && !x.reinSeen
  let s := s.setAxis n { x with reinSeen := hit }
  if !hit || x.st = axGrouped || !stoppable x.st then s
  else if x.st = axStandstill || x.st = axStopping || x.st = axRearm then
    if fresh then stopAxis s n scRein else s
  else stopAxis s n scRein

/-- Latched disables and enables (R256, R263 to R265). (DEDUCED, notes/assumptions/163.md) -/
def axisEnableStep (s : State) (n : Nat) : State :=
  let x := s.axis n
  if x.st = axGrouped then s
  else if x.disableAt then
    let x := { x with disableAt := false }
    if x.st = axDisabled then s.setAxis n x
    else if x.st = axRearm then s.setAxis n { x with st := axStopping, disabledIn := true }
    else if x.st = axStopping then s.setAxis n { x.addCause scDisable with disabledIn := true }
    else if x.st = axStandstill || x.st = axFault || x.st = axDropout || x.st = axFailed then s.setAxis n x.toDisabled
    else
      let s := stopAxis (s.setAxis n x) n scDisable
      s.setAxis n { s.axis n with disabledIn := true }
  else if x.enableAt then
    let x := { x with enableAt := false }
    if x.st = axDisabled then
      if axisRein s n then s.setAxis n { x with rearmDisc := true, placed := false }
      else s.setAxis n { x with st := axStandstill, v := F64.zero, a := F64.zero, rearmDisc := false, atTarget := false,
                                softLimit := false, overrun := false }
    else if x.st = axStopping && x.disabledIn then s.setAxis n { x with st := axRearm }
    else s.setAxis n x
  else s

/-- A tripped limit stops an axis that moves towards it, outside HOMING (R310). -/
def axisLimitStep (s : State) (n : Nat) : State :=
  let x := s.axis n
  if x.st = axHoming || !stoppable x.st || x.st = axStopping || x.st = axRearm then s
  else if intoLimit s n x.v.sign then
    match groupOf s n with
    | some g =>
      if x.st = axGrouped then groupStop (s.setAxis n (x.addCause scLimit)) g scLimit else stopAxis s n scLimit
    | none => stopAxis s n scLimit
  else s

/-- Orders are taken up in the order in which they were stored (R253). -/
def axisCommandStep (s : State) (n : Nat) : State :=
  let os := (s.axis n).orders
  os.foldl (fun s o => takeOrder s n o) (s.setAxis n { s.axis n with orders := [] })

/-! Homing phases at a sample boundary (R311 to R314). -/

/-- The velocity change of a homing phase to w: search acceleration both ways, the axis's jerk. -/
def homingVel (s : State) (n a : Nat) (w : F64) : State :=
  let x := s.axis n
  let acc := fix32 (s.rn (0x5A00 + a) 5)
  let j := (axisLimits s n).jerk
  s.setAxis n { x with prof := some ⟨x.p, x.v, x.a, planVel acc acc j x.v x.a w, 0, none, w, false⟩ }

def homeVS (s : State) (a : Nat) : F64 := fix32 (s.rn (0x5A00 + a) 3)
def homeVC (s : State) (a : Nat) : F64 := fix32 (s.rn (0x5A00 + a) 4)

/-- Stores the homing record. -/
def setHoming (s : State) (a : Nat) (h : Homing) : State := s.setLoc a { s.loc a with homing := h }

/-- Which input is the search-bound limit, or the target limit of LIMIT: 0 positive, 1 negative. -/
def boundInput (dir : Int) : Nat := if dir > 0 then 0 else 1

/-- The phase changes that inputs and distance ask for, before the setpoint of the sample. (DEDUCED, notes/assumptions/77.md) -/
def homingStep (s : State) (n : Nat) : State :=
  let a := axisInst s n
  let h := (s.loc a).homing
  let m := s.rn (0x5A00 + a) 1
  let x := s.axis n
  let maxd : Int := s.rn (0x5A00 + a) 6 * 2 ^ 32
  if h.fail ≠ 0 then stopAxis (abortHoming (s.setAxis n { x with st := axMoving }) n h.fail) n scLimit
  else if h.phase = 9 || h.phase = 7 then s
  else if h.edge.isSome && h.phase ≠ 6 then
    if m = 5 then
      let act := (localActual s a).getD x.p
      let s := s.setAxis n { x with p := act, v := F64.zero, a := F64.zero, prof := none }
      setHoming s a { h with phase := 9 }
    else if m = 6 then setHoming s a { h with phase := 9 }
    else homingVel (setHoming s a { h with phase := 6 }) n a F64.zero
  else if h.phase ≠ 6 && (x.p - h.start).natAbs > maxd then homingVel (setHoming s a { h with phase := 7 }) n a F64.zero
  else if h.phase = 1 && h.reverse then
    homingVel (setHoming s a { h with reverse := false, boundMet := true, cur := -h.cur }) n a
      (signed (-h.cur) (homeVS s a))
  else if h.phase = 1 && h.found then
    homingVel (setHoming s a { h with phase := 3, found := false }) n a (signed (-h.cur) (homeVC s a))
  else if h.phase = 3 && h.rearmed then
    homingVel (setHoming s a { h with phase := 5, rearmed := false, homeSeen := false }) n a (signed h.cur (homeVC s a))
  else s

/-- A sample of a HOMING axis: its profile runs on; a stop phase at rest ends the phase. -/
def homingSample (s : State) (n : Nat) : State :=
  let s := homingStep s n
  let a := axisInst s n
  let x := s.axis n
  if x.st ≠ axHoming then stopSample s n
  else
    match x.prof with
    | none => s
    | some pr =>
      let pr := { pr with run := axisRun s n pr.run }
      let q := profAt pr
      let h := (s.loc a).homing
      let s := s.setAxis n { x with p := q.1, v := q.2.1, a := q.2.2.1, prof := some pr }
      if q.2.2.2 && h.phase = 6 then
        setHoming (s.setAxis n { s.axis n with prof := none, v := F64.zero, a := F64.zero }) a { h with phase := 9 }
      else if q.2.2.2 && h.phase = 7 then
        let s := (setHoming s a Homing.init).setNum (0x5A00 + a) 0x0D 6
        s.setAxis n { (s.axis n).endMotion with st := axStandstill, v := F64.zero, a := F64.zero }
      else s

/-- The setpoint of the sample by the state reached. -/
def axisEvaluate (s : State) (n : Nat) : State :=
  let st := (s.axis n).st
  if st = axMoving then movingSample s n
  else if st = axStopping || st = axRearm then stopSample s n
  else if st = axGeared then gearedSample s n
  else if st = axSyncing then syncSample s n
  else if st = axHoming then homingSample s n
  else s

/-- An axis whose last sample is more than a period ago, and which has no profile, starts the next one at target instant k+P.
(DEDUCED, notes/assumptions/70.md) -/
def axisResume (s : State) (n : Nat) : State :=
  let x := s.axis n
  if x.target ≤ s.clock.tick && x.prof.isNone && x.st ≠ axGrouped then
    s.setAxis n { x with target := s.clock.tick + axisPeriod s n }
  else s

/-- Whether coast carries axis n, so that CX does not evaluate it (R194, R277, R300). (DEDUCED, notes/assumptions/49.md) -/
def axisCoasts (s : State) (n : Nat) : Bool :=
  if axisLocal s n then (s.loc (axisInst s n % 32)).coasting else s.coast.active

/-- Whether axis n has a sample boundary in the present tick (R86, R252). -/
def axisBoundary (s : State) (n : Nat) : Bool :=
  s.clock.tick % axisPeriod s n = if axisLocal s n then (s.axis n).phase else s.lcPhase

/-- What the boundary of axis n brings before group events and commands, once in a tick (R256): dropout, unit fault, Rein state, disable or
enable, limits. -/
def axisEvents (s : State) (n : Nat) : State :=
  if (s.axis n).evented = some s.clock.tick then s
  else
    let s := disabledFollow (axisResume s n) n
    let s := s.setAxis n { s.axis n with evented := some s.clock.tick }
    let s := axisFaultStep (axisDropoutStep (axisReleaseStep s n) n) n
    axisLimitStep (axisEnableStep (axisReinStep s n) n) n

/-- The events of every member of a group come before the group's own (R256). -/
def memberEvents (s : State) (g : Nat) : State :=
  (groupMembers s g).foldl (fun s m => if axisBoundary s m && !axisCoasts s m then axisEvents s m else s) s

/-- The sample of axis n at boundary k, whose setpoint comes into force at k+P (R253, R256). (DESIGN CHOICE,
notes/assumptions/73.md) -/
def axisSample (s : State) (n : Nat) : State :=
  let s := axisEvents s n
  let wasGrouped : Bool := (s.axis n).st = axGrouped
  let s := match groupOf s n with
    | some g => groupSample (memberEvents s g) g n
    | none => s
  let s := axisCommandStep s n
  let s := if wasGrouped && (s.axis n).st ≠ axStopping then s else axisEvaluate s n
  let x := s.axis n
  s.setAxis n { x with toCome := some (s.clock.tick + axisPeriod s n, x.p), target := s.clock.tick + 2 * axisPeriod s n }

/-- The integer part of a setpoint, its fraction dropped toward zero (R250). (DEDUCED, notes/assumptions/58.md) -/
def wholeCounts (p : Int) : Int := Int.tdiv p (2 ^ 32)

/-- LEAD_DEGRADED: the Lead followed is EXTRAPOLATING, STOPPING or LOST (R269). -/
def leadDegraded (s : State) (x : Axis) : Bool :=
  match x.gear with
  | some g => let st := (s.lead g.lead).st; st = ldExtra || st = ldStopping || st = ldLost
  | none => false

/-- The axis status word. -/
def axisStatus (s : State) (n : Nat) : Nat :=
  let x := s.axis n
  x.st * 2 ^ 28 + x.cause * 2 ^ 25 + b2n (x.v.sign < 0) * 2 ^ 24 + b2n x.atTarget * 2 ^ 23 + b2n x.softLimit * 2 ^ 22 +
    b2n x.late * 2 ^ 21 + b2n x.gearStep * 2 ^ 20 + b2n (x.ratio.any (·.begun)) * 2 ^ 19 + b2n (leadDegraded s x) * 2 ^ 18 +
    b2n x.resumed * 2 ^ 17 + b2n x.staleAct * 2 ^ 16 + b2n x.syncLost * 2 ^ 15 + b2n x.gearOver * 2 ^ 14 +
    b2n x.overrun * 2 ^ 13 + b2n x.rearmDisc * 2 ^ 12

/-- The AXIS record of a sample whose setpoint comes into force now (R453). -/
def recordAxis (s : State) (n : Nat) : State :=
  let x := s.axis n
  s.record 5 n s.clock.tick 0 (leBytes 8 (ofSigned 64 x.p) ++ leBytes 8 (ofSigned 64 (x.v.toIntScaled 32)) ++
    leBytes 8 (ofSigned 64 (x.a.toIntScaled 32)) ++ leBytes 8 (ofSigned 64 x.actual) ++ leBytes 4 (axisStatus s n))

/-- Setpoints whose instant has come into force at the present boundary (R253): a STATION axis writes its station's outputs, a
LOCAL axis hands its local axis the next segment. A DISABLED axis sends the setpoint it follows. -/
def setpointsInForce (s : State) : State :=
  s.axes.foldl (fun s r =>
    match r.2.toCome with
    | some (t, p) =>
      if t ≤ s.clock.tick then
        let n := r.1
        let s := recordAxis (s.setAxis n { s.axis n with toCome := none, sp := some p }) n
        if axisLocal s n then
          let a := axisInst s n % 32
          s.setLoc a { s.loc a with incoming := some p }
        else
          let st := s.station (axisInst s n)
          let w := if s.rn (axIdx n) 7 = 1 then 8 else 4
          let out := splice st.outputs (s.rn (axIdx n) 6) (leBytes w (ofSigned (8 * w) (wholeCounts p)))
          s.setStation (axisInst s n) { st with outputs := out }
      else s
    | none => s) s

/-- The group status word. -/
def groupStatus (s : State) (g : Nat) : Nat :=
  let x := s.group g
  x.st * 2 ^ 28 + x.cause * 2 ^ 25 + b2n x.pathLeft * 2 ^ 24 + x.vMember * 2 ^ 20 + x.aMember * 2 ^ 16

/-! Coast records and the return from coast (R276, R278). -/

/-- MODE, LEAD, NUM and DEN of the coast record for the present state (R276); STOPPING keeps those before the stop. -/
def coastMode (s : State) (n : Nat) : Nat × Nat × Int × Nat :=
  let x := s.axis n
  let old := s.coastRec n
  if x.st = axMoving || x.st = axGrouped || x.st = axHoming then (1, 0, 0, 1)
  else if x.st = axStopping || x.st = axRearm then (old.mode, old.lead, old.num, old.den)
  else if x.st = axGeared then
    match x.gear, x.ratio with
    | some g, some c => if c.begun then (2, g.lead, c.num, c.den) else (2, g.lead, g.num, g.den)
    | some g, none => (2, g.lead, g.num, g.den)
    | none, _ => (0, 0, 0, 1)
  else if x.st = axSyncing then
    match x.ramp with
    | some r => if r.out then (1, 0, 0, 1) else (2, r.lead, r.num, r.den)
    | none => (0, 0, 0, 1)
  else (0, 0, 0, 1)

/-- The record that CX commits for axis n, with its line-cycle count as TAG (R193). -/
def coastRecordOf (s : State) (n : Nat) : CoastRec :=
  let old := s.coastRec n
  let m := coastMode s n
  { old with valid := (s.axis n).st ≠ axDisabled, station := axisInst s n, offset := s.rn (axIdx n) 6,
             format := s.rn (axIdx n) 7, mode := m.1, lead := m.2.1, num := m.2.2.1, den := m.2.2.2,
             stopDec := s.rn (axIdx n) 0x14, stopJerk := s.rn (axIdx n) 0x15, tag := s.rn 0x2000 5 % 2 ^ 32 }

/-- A Q32.32 position of a coast record as a position of the axis. -/
def fromQ32 (p q : Int) : Int := p + toSigned 64 (ofSigned 64 (q - p))

/-- A Lead event that fell due during the coast is handled as past due on the return (R193, R119). -/
def resumeEvent (s : State) (n : Nat) : State :=
  let x := s.axis n
  match x.gear with
  | none => s
  | some g =>
    let lt := leadTarget s g.lead (x.target - s.clock.tick)
    let s := match x.ratio with
      | some c =>
        if c.begun then s.setAxis n { x with ratio := none, gear := some { g with num := c.num, den := c.den } }
        else
          let e := pastDueEvent s g.lead c.x lt c.dir c.attr true
          if e.1 ≠ abOk then
            (s.setAxis n { x with ratio := none }).setNum (axIdx n) 0x1D (e.1 * 2 ^ 16 + s.rn (axIdx n) 0x1E % 2 ^ 16)
          else noteLate (s.setAxis n { x with ratio := some { c with x := e.2.1 } }) n e.2.2.1 e.2.2.2
      | none => s
    let x := s.axis n
    match x.gearOut with
    | some r =>
      let e := pastDueEvent s g.lead r.l0 lt r.dir r.attr true
      if e.1 ≠ abOk then
        (s.setAxis n { x with gearOut := none }).setNum (axIdx n) 0x1D (e.1 * 2 ^ 16 + s.rn (axIdx n) 0x1E % 2 ^ 16)
      else noteLate (s.setAxis n { x with gearOut := some { r with l0 := e.2.1 } }) n e.2.2.1 e.2.2.2
    | none => s

/-- An axis resumes from what CX read of its record, which is its state at instant `at_` (R278). -/
def resumeState (s : State) (n : Nat) (r : CoastRec) (at_ : Nat) : State :=
  let x := s.axis n
  let acc := if r.stopping then signed (-r.vel.sign) r.acc else F64.zero
  let p := if r.s.isEmpty then x.p else fromQ32 x.p r.pos
  let x := if x.st = axDisabled then x else { x with p := p, v := r.vel, a := acc, resumeDue := true, target := at_ }
  let coast := fun (s : State) => stopAxis s n scCoast
  let s := s.setAxis n x
  if x.st = axDisabled || x.st = axFault || x.st = axDropout || x.st = axFailed then s
  else if x.st = axHoming then coast s
  else if r.stopping || r.stoppedBy then
    let s := match groupOf s n with
      | some g => if x.st = axGrouped then s.setGroup g { s.group g with pathLeft := true, st := 0, prof := none } else s
      | none => s
    coast (if x.st = axGrouped then s.setAxis n { x with st := axMoving } else s)
  else if x.st = axGeared then
    match x.gear with
    | some g => resumeEvent (s.setAxis n { x with gear := some { g with pRef := fromQ32 p r.posRef, lRef := r.leadRef } }) n
    | none => s
  else if x.st = axSyncing && r.mode = 2 then
    s.setAxis n { x with st := axGeared, ramp := none, syncLost := true,
                         gear := some ⟨r.lead, r.num, r.den, fromQ32 p r.posRef, r.leadRef⟩ }
  else if x.st = axMoving then
    match x.prof with
    | some pr =>
      match pr.target with
      | some t =>
        match planMove s n t with
        | some q => startProfile s n { q with toLimit := pr.toLimit }
        | none => coast s
      | none => startProfile s n (planVelocity s n pr.vEnd)
    | none => s
  else if x.st = axGrouped || x.st = axSyncing then
    let s := match groupOf s n with
      | some g => if x.st = axGrouped then s.setGroup g { s.group g with pathLeft := true, st := 0, prof := none } else s
      | none => s
    coast (s.setAxis n { x with st := axMoving })
  else s

/-- The resumed axis with the setpoint of the train, or of the segment, that starts at `at_`, where no sample of its own is still
to come for it (R198). -/
def resumeAxis (s : State) (n : Nat) (r : CoastRec) (at_ : Nat) (supply : Bool) : State :=
  let s := resumeState s n r at_
  if (s.axis n).st = axDisabled || !supply then s
  else
    let s := axisEvaluate s n
    let x := s.axis n
    s.setAxis n { x with toCome := some (at_, x.p), target := at_ + axisPeriod s n }

/-- Whether axis n counts as enabled for the entries writable in DISABLED only (R282). -/
def axisLocked (s : State) (n : Nat) : Bool := (s.axis n).st ≠ axDisabled || (s.axis n).enableAt

end Sys2Proof.Machine
end

