-- ==== Sys2Proof/Machine/CoastStep.lean ====
section
/-! DEFINITION. The extrapolation of a coast record (R194, R195), shared by the path engines (line cycle Lc) and by AX for local
axes (period P, R300). -/

namespace Sys2Proof.Machine

/-- The setpoints s1, s0 and s2 of R194; a missing one equals the oldest there is. -/
def CoastRec.points (r : CoastRec) : Option (Int × Int × Int) :=
  match r.s with
  | [] => none
  | [a] => some (a, a, a)
  | [a, b] => some (a, b, b)
  | a :: b :: c :: _ => some (a, b, c)

/-- A setpoint from CX, its stopping bit and the Lead position at its boundary enter the record's history. -/
def CoastRec.note (r : CoastRec) (p : Int) (stopBit : Bool) (leadAt : Nat) : CoastRec :=
  { r with s := (p :: r.s).take 3, stopBit := stopBit, leadAt := leadAt }

/-- A velocity between two Q32.32 setpoints `lc` base ticks apart (R195): the exact int64 difference in binary64 × 2^−32, over
the period. -/
def q32Vel (a b : Int) (lc : Nat) : F64 :=
  (F64.ofScaled (toSigned 64 (ofSigned 64 (a - b))) (-32)).div (F64.ofInt lc)

/-- Entry of a record into coast (R194). `acc` holds the last acceleration with its sign until a stop ramp runs. -/
def CoastRec.enter (r : CoastRec) (lc : Nat) : CoastRec :=
  match r.points with
  | none => { r with stopping := false, stoppedBy := false }
  | some (s1, s0, s2) =>
    let v := q32Vel s1 s0 lc
    let last := (v.sub (q32Vel s0 s2 lc)).div (F64.ofInt lc)
    { r with pos := s1, vel := v, posRef := s1, leadRef := r.leadAt, stopping := r.stopBit, stoppedBy := r.stopBit,
             acc := if r.stopBit then opposing v last else last }

/-- stop_step(r) of R195. -/
def CoastRec.stopStep (r : CoastRec) (lc : Nat) : CoastRec :=
  let q := Machine.stopStep (fix32 r.stopDec) (fix48 r.stopJerk) (F64.ofInt lc) r.vel r.acc
  let pos := r.pos + toFix (q.1.mul (F64.ofInt lc))
  if q.1.sign = 0 then { r with pos := pos, vel := F64.zero, acc := F64.zero, stopping := false, mode := 0 }
  else { r with pos := pos, vel := q.1, acc := q.2 }

/-- A stop begins in coast: acc is the last acceleration's magnitude where it opposes the motion (R195, R196, R197). A record at
HOLD has nothing to stop. -/
def CoastRec.beginStop (r : CoastRec) : CoastRec :=
  if r.stopping || r.mode = 0 then r
  else { r with stopping := true, stoppedBy := true, acc := opposing r.vel r.acc }

/-- A jump of the record's Lead shifts lead_ref (R194). -/
def CoastRec.jump (r : CoastRec) (lead : Nat) (d : Int) : CoastRec :=
  if r.lead = lead then { r with leadRef := moveLead r.leadRef d } else r

/-- One step of a record at a line-cycle boundary in coast; the flag says that a geared axis left gearing (R194). -/
def CoastRec.step (r : CoastRec) (lc leadPos : Nat) : CoastRec × Bool :=
  if r.points.isNone then (r, false)
  else if r.stopping then (r.stopStep lc, false)
  else
    match r.mode with
    | 0 => ({ r with vel := F64.zero, acc := F64.zero }, false)
    | 1 => ({ r with pos := r.pos + toFix (r.vel.mul (F64.ofInt lc)), acc := F64.zero }, false)
    | _ =>
      let new := r.posRef + Int.tdiv (r.num * diff64 leadPos r.leadRef) r.den
      let v := q32Vel new r.pos lc
      if ((fix32 r.stopDec).mul (F64.ofInt lc)).lt (v.sub r.vel).abs then ((r.beginStop).stopStep lc, true)
      else ({ r with pos := new, vel := v, acc := (v.sub r.vel).div (F64.ofInt lc) }, false)

end Sys2Proof.Machine
end

