-- ==== Sys2Proof/Machine/Local.lean ====
section
/-! DEFINITION. The AX die's local axes, PWM channels, encoders, capture lines, limit inputs and homing (R286 to R323). PWM clocks
are counted from tick 0, 2,500 to a base tick. -/

namespace Sys2Proof.Machine

/-- Base ticks of history that AX keeps (R295). -/
def histTicks : Nat := 16384

/-- The PWM clock at `offset` of the present base tick. -/
def pwmClock (s : State) (offset : Nat) : Nat := s.clock.tick * 2500 + offset

/-! Claims and drivers of PWM channels (R286, R290, R294). -/

def locIdx (a : Nat) : Nat := 0x7580 + a
def homIdx (a : Nat) : Nat := 0x5A00 + a
def pwmIdx (c : Nat) : Nat := 0x7400 + c
def encIdx (e : Nat) : Nat := 0x7500 + e
def capIdx (c : Nat) : Nat := 0x7520 + c

/-- Whether a local axis in mode `m` with outputs A and B claims a PWM channel: STEP and DIR channels, or both channels of pairs
PA and PB (R294). -/
def claims (m outA outB c : Nat) : Bool :=
  (m = 1 && (c = outA || c = outB)) || (m = 2 && (c / 2 = outA || c / 2 = outB))

/-- The local axis that claims a channel. -/
def pwmClaim (s : State) (c : Nat) : Option Nat :=
  (List.range 32).find? fun a => s.rn (locIdx a) 1 ≠ 0 && claims (s.rn (locIdx a) 1) (s.rn (locIdx a) 2) (s.rn (locIdx a) 3) c

/-- Whether a control channel is enabled. -/
def chanEnabled (s : State) (n : Nat) : Bool := !((s.chan n).st = chOff || (s.chan n).st = chFailed)

/-- Whether a destination descriptor names a PWM channel. -/
def destIsPwm (d c : Nat) : Bool := bits d 31 28 = 7 && bits d 6 0 = c

/-- The enabled control channel whose destination names a PWM channel (R290). -/
def pwmDriver (s : State) (c : Nat) : Option Nat :=
  (s.chans.find? fun p => chanEnabled s p.1 && destIsPwm (s.rn (chIdx p.1) 0x0B) c).map (·.1)

/-- Whether a channel is driven, so that its entries 01 to 08 and 09 are locked (R290, R315). -/
def pwmDriven (s : State) (c : Nat) : Bool := (pwmClaim s c).isSome || (pwmDriver s c).isSome

/-- The mode that OD 7400+ch:01 reports. -/
def pwmMode (s : State) (c : Nat) : Nat := if (pwmClaim s c).isSome then 4 else s.rn (pwmIdx c) 1

/-- Whether a period is one of R287. -/
def periodValid (tp : Nat) : Bool :=
  (tp ≤ 2500 && [1, 2, 4, 5, 10, 20, 25, 50, 100, 125].any fun m => tp * m = 2500) ||
    (tp > 2500 && tp % 2500 = 0 && tp / 2500 ≤ 16)

/-! The waveform of one period (R288, R289). -/

/-- On-time Ci of the i-th period since OFF. -/
def onTime (bridge dither : Bool) (tp : Nat) (d : Int) (i : Nat) : Nat :=
  let c := if bridge then ((tp * 16 : Nat) * (d + 32768)).toNat / 2 ^ 16 else ((tp * 16 : Nat) * max d 0).toNat / 2 ^ 15
  let f := c % 16
  let ci := c / 16
  if dither then ci + (f * (i % 16 + 1)) / 16 - (f * (i % 16)) / 16 else ci

/-- Start of the high interval of an even or single output in its period (R288). -/
def onStart (centre : Bool) (tp ci : Nat) : Nat := if centre then (tp - ci) / 2 else 0

/-- The high intervals in [0, Tp) of an output that is high for `len` clocks from `start` on, once in a period, round into the next one
(R289): the dead time delays its rise; a high interval shorter than the minimum pulse is removed, a low one filled. -/
def pulseOf (tp dt mp start len : Nat) : List (Nat × Nat) :=
  let from_ := if len < tp then start + dt else start
  let n := if len < tp then len - dt else len
  if n = 0 || n < mp then []
  else if tp ≤ n || tp - n < mp then [(0, tp)]
  else
    let a := from_ % tp
    if a + n ≤ tp then [(a, a + n)] else [(0, a + n - tp), (a, tp)]

/-! Local axes: position, steps, references (R295 to R300). -/

/-- The motion axis that names local axis a: the enabled one, else the first that names it (R248). -/
def axisOfLocal (s : State) (a : Nat) : Option Nat :=
  let names := fun (n : Nat) => axisLocal s n && axisInst s n = a
  match (s.axes.find? fun p => names p.1 && p.2.st ≠ axDisabled).map (·.1) with
  | some n => some n
  | none => (List.range 2048).find? names

/-- Whether the motion axis naming a local axis is DISABLED (or none names it). -/
def localFree (s : State) (a : Nat) : Bool :=
  (List.range 2048).all fun n => !(axisLocal s n && axisInst s n = a) || !axisLocked s n

/-- P of a local axis. -/
def localPeriod (s : State) (a : Nat) : Nat :=
  match axisOfLocal s a with
  | some n => s.rn (axIdx n) 9
  | none => 160

/-- x at a base tick on the present segment (R295), in Q32.32. -/
def segX (l : LocalAxis) (per tick : Nat) : Int :=
  let k := tick - l.segTick
  if k ≥ per then l.sNew else l.sPrev + (l.sNew - l.sPrev) * k / per

/-- x and the encoder count `ago` ns before the present boundary (R295, R309). -/
def pastX (s : State) (a ago : Nat) : Int × Int :=
  let l := s.loc a
  let k := (ago + 6249) / 6250
  let t0 := s.clock.tick - k
  let at_ := fun (t : Nat) => ((l.hist.find? fun h => h.1 = t).map (·.2)).getD (l.x, 0)
  let p := at_ t0
  let q := if k = 0 then p else at_ (t0 + 1)
  (p.1 + (q.1 - p.1) * ((k * 6250 - ago : Nat) : Int) / 6250, p.2)

/-- Emission of step pulses for one base tick (R296). -/
structure StepRun where
  emitted : Int
  from_   : Nat
  neg     : Bool
  out     : List Sent

/-- Steps of one base tick from clock `t0`, in which x runs from x0 to x1 (Q32.32): a step where the integer part changes, at the
earliest permitted instant, high for W clocks; a DIR change first. -/
def stepLoop (stepCh dirCh w setup : Nat) (invert : Bool) (x0 x1 : Int) (t0 : Nat) : Nat → StepRun → StepRun
  | 0, r => r
  | k + 1, r =>
    let target := x1 / 2 ^ 32
    if r.emitted = target then r
    else
      let neg : Bool := target < r.emitted
      let m : Int := if neg then r.emitted * 2 ^ 32 else (r.emitted + 1) * 2 ^ 32
      let c : Nat :=
        if neg then (if x0 < m then 0 else ((x0 - m) * 2500 / (x0 - x1) + 1).toNat)
        else (if x0 ≥ m then 0 else (((m - x0) * 2500 + (x1 - x0) - 1) / (x1 - x0)).toNat)
      let at0 := max (t0 + c) r.from_
      let pin := fun (kind ch clk : Nat) (lv : Bool) => Sent.pin kind ch lv (clk / 2500) (clk % 2500)
      if neg ≠ r.neg then
        if at0 < t0 + 2500 then
          stepLoop stepCh dirCh w setup invert x0 x1 t0 k
            { r with from_ := at0 + setup, neg := neg, out := pin pinDir dirCh at0 (neg != invert) :: r.out }
        else r
      else if at0 < t0 + 2500 then
        stepLoop stepCh dirCh w setup invert x0 x1 t0 k
          { r with emitted := if neg then r.emitted - 1 else r.emitted + 1, from_ := at0 + 2 * w,
                   out := pin pinStep stepCh (at0 + w) false :: pin pinStep stepCh at0 true :: r.out }
      else r

/-- The phase references of R297 and R298 for integer position m. -/
def microstep (s : State) (tab : Nat) (m : Int) : Int × Int :=
  let e := (s.reg (0x7600 + tab) 1).octets
  let t := fun (i : Nat) => toSigned 16 (leNat (slice e (2 * i) 2))
  let q := (m / 256 % 4).toNat
  let i := (m % 256).toNat
  let fv := t i
  let gv := if i = 0 then s.ri (0x7600 + tab) 2 16 else t (256 - i)
  match q with
  | 0 => (fv, gv)
  | 1 => (gv, -fv)
  | 2 => (-fv, -gv)
  | _ => (-gv, fv)

/-- The amplitude in use (R298, R312). -/
def localAmp (s : State) (a : Nat) : Nat :=
  let l := s.loc a
  if l.homing.phase = 1 && s.rn (homIdx a) 1 = 5 then s.rn (homIdx a) 9
  else if l.holding then s.rn (locIdx a) 9 else s.rn (locIdx a) 8

/-- References of a MICROSTEP axis from x at the present boundary (R298). -/
def localRefs (s : State) (a : Nat) : State :=
  if s.rn (locIdx a) 1 ≠ 2 then s
  else
    let l := s.loc a
    let x := if s.rn (locIdx a) 4 = 1 then -l.x else l.x
    let r := microstep s (s.rn (locIdx a) 7) (x / 2 ^ 32)
    let amp : Int := localAmp s a
    s.setLoc a { l with refA := r.1 * amp / 2 ^ 15, refB := r.2 * amp / 2 ^ 15 }

/-- x advances to the present boundary on its old segment, with the steps of the tick that has ended (R295, R296). -/
def localAdvance (s : State) (a : Nat) : State :=
  let l := s.loc a
  let i := locIdx a
  let x1 := segX l (localPeriod s a) s.clock.tick
  let moved : Bool := x1 ≠ l.x
  let l' := { l with x := x1, lastMove := if moved then s.clock.tick else l.lastMove, holding := l.holding && !moved }
  if s.rn i 1 = 1 then
    let r := stepLoop (s.rn i 2) (s.rn i 3) (s.rn i 5) (s.rn i 6) (s.rn i 4 = 1) l.x x1 ((s.clock.tick - 1) * 2500) 640
      ⟨l.emitted, l.stepFrom, l.dirNeg, []⟩
    let s := { s with sent := r.out ++ s.sent }
    s.setLoc a { l' with emitted := r.emitted, stepFrom := r.from_, dirNeg := r.neg,
                         lag := (x1 / 2 ^ 32 - r.emitted).natAbs }
  else s.setLoc a { l' with emitted := x1 / 2 ^ 32, lag := 0 }

/-- Whether the inputs of a local axis bar its coast motion: it moves towards a tripped limit (R310). -/
def coastIntoLimit (l : LocalAxis) : Bool :=
  (l.coast.vel.sign > 0 && (getAt InLatch.init l.latches 0).latched) ||
    (l.coast.vel.sign < 0 && (getAt InLatch.init l.latches 1).latched)

/-- One period of a local axis formed by its coast record (R295, R300). -/
def localCoastStep (s : State) (a : Nat) (l : LocalAxis) (cr : CoastRec) : State :=
  let per := localPeriod s a
  let pins := match axisOfLocal s a with
    | some n => (s.rn (axIdx n) 0x19 &&& s.rein.pinsAx &&& 3) ≠ 0
    | none => false
  let limit : Bool := l.coasting && (s.clock.tick - l.coastAt) * 6250 ≥ s.rn 0x3070 1 * 1000000
  let cr := if (l.coasting && (pins || limit)) || coastIntoLimit { l with coast := cr } then cr.beginStop else cr
  let cr := (cr.step per (s.lead cr.lead).pos64).1
  s.setLoc a { l with coast := { cr with s := (cr.pos :: cr.s).take 3 }, sPrev := l.sNew, sNew := cr.pos,
                      segTick := s.clock.tick, incoming := none }

/-- The segment of a local axis at the present boundary: the setpoint that comes into force, or one formed by the coast rule where
none arrives for an enabled axis (R295, R300). -/
def localSegment (s : State) (a : Nat) : State :=
  let l := s.loc a
  let per := localPeriod s a
  match axisOfLocal s a with
  | none => s
  | some n =>
    let x := s.axis n
    let enabled : Bool := x.st ≠ axDisabled
    if l.coasting then
      if s.clock.tick ≥ l.segTick + per then localCoastStep s a l l.coast else s.setLoc a { l with incoming := none }
    else
      match l.incoming, s.cxToAx with
      | some p, true =>
        let stop : Bool := x.st = axStopping || x.st = axRearm
        s.setLoc a { l with sPrev := l.sNew, sNew := p, segTick := s.clock.tick, incoming := none,
                            coast := l.coast.note p stop (s.lead l.coast.lead).pos64 }
      | _, _ =>
        if enabled && s.clock.tick ≥ l.segTick + per then
          (localCoastStep s a l (l.coast.enter per)).bump (locIdx a) 0x1C
        else s.setLoc a { l with incoming := none }

/-- The coast of the local axes starts and ends with what CX announces or AX declares (R300). -/
def localCoastEntry (s : State) : State :=
  forNums 32 s fun s a =>
    let l := s.loc a
    if s.rn (locIdx a) 1 = 0 || l.coasting then s
    else
      match axisOfLocal s a with
      | some n =>
        if (s.axis n).st = axDisabled then s
        else s.setLoc a { l with coasting := true, coastAt := s.clock.tick,
                                 coast := l.coast.enter (localPeriod s a) }
      | none => s

/-- CX resumes each local axis from what AX reports (R278, R300). -/
def localCoastExit (s : State) : State :=
  forNums 32 s fun s a =>
    let l := s.loc a
    if !l.coasting then s
    else
      let s := s.setLoc a { l with coasting := false }
      match axisOfLocal s a with
      | some n => resumeAxis s n l.coast (l.segTick + localPeriod s a) (l.segTick ≠ s.clock.tick)
      | none => s

/-- The boundary of one local axis: advance, new segment, history, references. -/
def localTick (s : State) (a : Nat) : State :=
  if s.rn (locIdx a) 1 = 0 then s
  else
    let s := localSegment (localAdvance s a) a
    let l := s.loc a
    let e := s.rn (locIdx a) 0x0E
    let cnt := if e = 0xFF then 0 else (s.enc e).count
    let ms : Bool := s.rn (locIdx a) 1 = 2
    let on : Bool := (axisOfLocal s a).any fun n => (s.axis n).st ≠ axDisabled
    let s := s.setLoc a { l with hist := ((s.clock.tick, l.x, cnt) :: l.hist).take histTicks, openLoop := ms && on && !s.cxToAx }
    localRefs s a

/-- Whether a time in ms that began at a base tick ends before the present tick does. -/
def msPassed (s : State) (from_ ms : Nat) : Bool := ms * 1000000 < (s.clock.tick + 1 - from_) * 6250

/-- The hold delay has passed since x last changed (R298). -/
def holdDelay (s : State) (a : Nat) : State :=
  let l := s.loc a
  if s.rn (locIdx a) 1 = 2 && l.sNew = l.x && msPassed s l.lastMove (s.rn (locIdx a) 0x0A) then s.setLoc a { l with holding := true }
  else s

/-- The deviation of a HARD_STOP homing at the present boundary (R312). -/
def noteDeviation (s : State) (a : Nat) : State :=
  let l := s.loc a
  if s.rn (homIdx a) 1 ≠ 5 || l.homing.phase ≠ 1 then s
  else
    let far := (l.x - (localActual s a).getD l.x).natAbs ≥ s.rn (homIdx a) 0x0A * 2 ^ 32
    let since := if !far then none else if l.homing.devSince.isSome then l.homing.devSince else some s.clock.tick
    s.setLoc a { l with homing := { l.homing with devSince := since } }

/-! PWM (R286 to R293). -/

/-- Periods that start in base tick t (R287). -/
def periodStarts (tp t : Nat) : Nat := if tp ≤ 2500 then 2500 / max 1 tp else if t % (tp / 2500) = 0 then 1 else 0

/-- The duty that a channel's source gives, none where it is invalid or missing (R290, R292, R300). -/
def pwmDuty (s : State) (c : Nat) : Option Int :=
  match pwmClaim s c with
  | some a =>
    if s.rn (locIdx a) 1 = 2 then
      if (s.loc a).openLoop then
        let ref := if c / 2 = s.rn (locIdx a) 2 then (s.loc a).refA else (s.loc a).refB
        some (ref * s.rn (locIdx a) 0x0D / 2 ^ 15)
      else some (if (pwmDriver s c).isSome then (s.pwm c).source else 0)
    else some 0
  | none =>
    if !s.cxToAx then none
    else some (if (pwmDriver s c).isSome then (s.pwm c).source else s.ri (pwmIdx c) 9 16)

/-- The period starts of one channel in the present base tick, and the end of a pulse (R288 to R292). (DEDUCED,
notes/assumptions/74.md) -/
def pwmTick (s : State) (c : Nat) : State :=
  let i := pwmIdx c
  let x := s.pwm c
  let mode := pwmMode s c
  let msAxis := (pwmClaim s c).any fun a => s.rn (locIdx a) 1 = 2
  let bridge : Bool := mode = 2 || (mode = 4 && msAxis)
  let evenBridge : Bool := c % 2 = 1 && (pwmMode s (c - 1) = 2 || (mode = 4 && msAxis))
  if !s.axUp || (mode = 0 && !evenBridge) then s.setPwm c { Pwm.init with source := x.source }
  else if mode = 3 then
    let x := { x with periods := x.periods + periodStarts (s.rn i 2) s.clock.tick }
    let s := s.setPwm c x
    if x.high && x.pulseTo ≤ pwmClock s 0 then
      (s.setPwm c { x with high := false }).emit (.pin pinPwm c false (x.pulseTo / 2500) (x.pulseTo % 2500))
    else s
  else if evenBridge then s
  else if mode = 1 || bridge then
    let tp := s.rn i 2
    let k := periodStarts tp s.clock.tick
    if k = 0 then s
    else
      let d := pwmDuty s c
      let off : Bool := d.isNone && s.rn i 8 = 1
      let duty := d.getD x.duty
      let ci := onTime bridge (s.rn i 7 = 1) tp duty (x.periods + k - 1)
      let centre : Bool := s.rn i 4 = 1
      let dt := if bridge then s.rn i 5 else 0
      let at_ := onStart centre tp ci
      let even := pulseOf tp dt (s.rn i 6) at_ ci
      let s := s.setPwm c { x with duty := duty, periods := x.periods + k, wave := if off then [] else even, lossOff := off }
      if bridge then
        let o := s.pwm (c + 1)
        let odd := pulseOf tp dt (s.rn (pwmIdx (c + 1)) 6) (at_ + ci) (tp - ci)
        s.setPwm (c + 1) { o with duty := duty, periods := x.periods + k, wave := if off then [] else odd, lossOff := off }
      else s
  else s.setPwm c { x with periods := x.periods + periodStarts (s.rn i 2) s.clock.tick }

/-- A fired pulse at a PWM clock: high for W clocks; a pulse that fires while the output is high extends it (R291). -/
def firePulse (s : State) (c clk : Nat) : State :=
  if pwmMode s c ≠ 3 then s
  else
    let x := s.pwm c
    let s' := s.setPwm c { x with high := true, pulseTo := max x.pulseTo (clk + s.rn (pwmIdx c) 0x0A) }
    if x.high && clk < x.pulseTo then s' else s'.emit (.pin pinPwm c true (clk / 2500) (clk % 2500))

/-- An offset in ns rounded up to PWM clocks (R114, R291). -/
def nsToPwm (ns : Nat) : Nat := (ns * 2 + 4) / 5

/-! Encoders (R301 to R305). -/

/-- HOMED is lost on every axis that homes on an encoder (R302). -/
def clearHomed (s : State) (e : Nat) : State :=
  forNums 32 s fun s a =>
    let m := s.rn (homIdx a) 1
    if s.rn (locIdx a) 0x0E = e && (s.rn (homIdx a) 8 = 1 || m = 3 || m = 4 || m = 5) then
      s.setLoc a { s.loc a with homed := false }
    else s

/-- The step of a quadrature pair: position of (A, B) in the cycle 00, 10, 11, 01. -/
def quadPhase (a b : Bool) : Nat :=
  match a, b with
  | false, false => 0
  | true, false => 1
  | true, true => 2
  | false, true => 3

/-- An accepted edge (R301, R302). -/
def encoderEdge (s : State) (e : Nat) (a b : Bool) (offset : Nat) : State :=
  let x := s.enc e
  if s.rn (encIdx e) 1 ≠ 1 || x.lineFault then s.setEnc e { x with a := a, b := b }
  else
    let k := (quadPhase a b + 4 - quadPhase x.a x.b) % 4
    let x' := { x with a := a, b := b }
    if k = 2 then clearHomed ((s.setEnc e { x' with quadErr := true, faultTick := true }).bump (encIdx e) 0x11) e
    else if k = 0 then s.setEnc e x'
    else
      let up : Bool := (k = 1) != (s.rn (encIdx e) 3 = 1)
      s.setEnc e { x' with count := toSigned 64 (ofSigned 64 (x.count + (if up then 1 else -1))), lastEdge := pwmClock s offset }

/-- The home edge position: x, or the actual position from a count where the reference is ENCODER (R314). -/
def homeRef (s : State) (a : Nat) (x count : Int) : Int :=
  if s.rn (homIdx a) 8 = 1 then
    Int.tdiv (count * s.ri (locIdx a) 0x0F 32 * 2 ^ 32) (s.rn (locIdx a) 0x10) + s.ri (locIdx a) 0x18 64
  else x

/-- x at `offset` PWM clocks into the present base tick. -/
def xAtClock (s : State) (a offset : Nat) : Int :=
  let l := s.loc a
  let per := localPeriod s a
  let x1 := segX l per (s.clock.tick + 1)
  l.x + (x1 - l.x) * offset / 2500

/-- Reports an event to the homing of a local axis while it runs. -/
def homingNote (s : State) (a : Nat) (f : Homing → Homing) : State :=
  let l := s.loc a
  if l.homing.phase = 0 || l.homing.phase = 9 then s else s.setLoc a { l with homing := f l.homing }

/-- The home edge is found at r, once. -/
def Homing.setEdge (h : Homing) (r : Int) : Homing := if h.edge.isSome then h else { h with edge := some r }

/-- An index event (R302, R303), which is the home edge of INDEX, and of HOME_INDEX after the home latch (R312). (DEDUCED,
notes/assumptions/75.md) -/
def encoderIndex (s : State) (e offset : Nat) : State :=
  let x := s.enc e
  let i := encIdx e
  if s.rn i 1 ≠ 1 || (s.rn i 8 = 1 && !(x.a && x.b)) then s
  else
    let cpr : Int := s.rn i 7
    let bad : Bool := cpr ≠ 0 && x.lastIndex.any fun q => ((x.count - q).natAbs : Int) ≠ cpr
    let s := (s.setEnc e
      { x with
        indexSeen := true, lastIndex := some x.count, indexAt := pwmClock s offset,
        indexErr := x.indexErr || bad }).setNum i 9 (ofSigned 64 x.count)
    let s := if bad then s.bump i 0x11 else s
    forNums 32 s fun s a =>
      if s.rn (locIdx a) 0x0E ≠ e then s
      else
        homingNote s a fun h =>
          let m := s.rn (homIdx a) 1
          if (m = 3 && h.phase = 1) || (m = 4 && h.phase = 5 && h.homeSeen) then
            h.setEdge (homeRef s a (xAtClock s a offset) x.count)
          else h

/-- LINE_FAULT becomes present (R302). -/
def encoderLineFault (s : State) (e : Nat) : State :=
  if s.rn (encIdx e) 1 = 0 then s
  else clearHomed (s.setEnc e { s.enc e with lineFault := true, faultTick := true }) e

/-- LINE_FAULT follows its condition (R302). -/
def encoderLineClear (s : State) (e : Nat) : State := s.setEnc e { s.enc e with lineFault := false }

/-- GRAY to binary over n bits. -/
def grayDecode : Nat → Nat → Nat
  | 0, _ => 0
  | n + 1, w =>
    let hi := grayDecode n (w / 2)
    hi * 2 + (if (hi % 2 = 1) != (w % 2 = 1) then 1 else 0)

/-- An SSI transfer (R304). -/
def ssiTransfer (s : State) (e : Nat) (word : Nat) (idleHigh monoLow parity : Bool) : State :=
  let x := s.enc e
  let i := encIdx e
  let ck := s.rn i 0x10
  let n := s.rn i 0x0B
  if s.rn i 1 ≠ 2 || x.lineFault then s
  else if (bit ck 0 && !idleHigh) || (bit ck 1 && !monoLow) || (bit ck 2 && !parity) then
    (s.setEnc e { x with ssiErr := true, faultTick := true }).bump i 0x11
  else
    let w := word % 2 ^ n
    let w := if s.rn i 0x0C = 1 then grayDecode n w else w
    let count := match x.ssiWord with
      | none => (w : Int)
      | some q => x.count + toSigned n (w + 2 ^ n - q)
    let changed : Bool := x.ssiWord ≠ some w
    let start := (s.clock.tick - s.clock.tick % max 1 (s.rn i 0x0D)) * 2500 + s.rn i 0x0E * 2 / 5
    s.setEnc e { x with ssiWord := some w, count := toSigned 64 (ofSigned 64 count),
                        lastEdge := if changed then start else x.lastEdge }

/-- The encoder status word (R322). -/
def encStatus (s : State) (e : Nat) : Nat :=
  let x := s.enc e
  b2n x.indexSeen * 16 + b2n x.ssiErr * 8 + b2n x.indexErr * 4 + b2n x.quadErr * 2 + b2n x.lineFault

/-- OD 7500+e:06: each latched bit whose bit is 1 is cleared. -/
def encClear (s : State) (e v : Nat) : State :=
  let x := s.enc e
  s.setEnc e { x with indexSeen := x.indexSeen && !bit v 4, ssiErr := x.ssiErr && !bit v 3, indexErr := x.indexErr && !bit v 2,
                      quadErr := x.quadErr && !bit v 1 }

/-- An encoder at a base-tick boundary: its count is latched, its history kept, its fault of the tick ends. -/
def encTick (s : State) (e : Nat) : State :=
  if s.rn (encIdx e) 1 = 0 then s
  else
    let x := s.enc e
    s.setEnc e { x with atTick := x.count, faultTick := false, hist := ((s.clock.tick, x.count, x.lastEdge) :: x.hist).take histTicks }

/-- SSI_TIMING: a transfer of n bits, with parity, at 400 MHz / 2h must end before the next one starts r base ticks later (R304). -/
def ssiTooLong (h n r : Nat) (parity : Bool) : Bool := (n + b2n parity + 1) * 2 * h ≥ r * 2500

/-! Capture (R306 to R308). -/

/-- A time base's value at `off` units of 2^-32 ns of the tick time base past the present boundary. -/
def tbStamp (s : State) (n off : Nat) : Nat :=
  let tt := s.tickTb
  let t := s.tb n
  let ahead : Int := (tt.val / tickUnits * tickUnits + off : Nat) - (tt.val : Int)
  ((t.val : Int) + ahead * t.inc / tt.inc).toNat

/-- An offset of 0.625 ns steps in 2^-32 ns. -/
def capUnits (offset : Nat) : Nat := offset * 5 * 2 ^ 32 / 8

/-- A qualified edge on a capture line (R306). -/
def captureEvent (s : State) (c : Nat) (rising : Bool) (offset : Nat) : State :=
  let i := capIdx c
  let sel := s.rn i 1
  if sel = 3 || (sel = 0 && !rising) || (sel = 1 && rising) then s
  else
    let x := s.cap c
    let e := s.rn i 5
    let cnt := if e = 0xFF then 0 else (s.enc e).count
    let ev : CapEvent := ⟨s.clock.tick, offset, rising, tbStamp s (s.rn i 3) (capUnits offset), cnt, x.seq⟩
    (s.setCap c { x with waiting := x.waiting ++ [ev], seq := x.seq + 1 }).bump i 0x0B

/-- Whether a Lead stamp lies inside a line's window (R307). MODULAR counts only on a CYCLIC Lead. (DESIGN CHOICE,
notes/assumptions/128.md) -/
def insideWindow (w : List Byte) (cyclic : Bool) (stamp : Nat) : Bool :=
  let f := leNat (slice w 16 1)
  bit f 0 && inWindow (bit f 1 && cyclic) (leNat (slice w 0 8)) (leNat (slice w 8 8)) stamp

/-- One record formed one base tick after its event: dropped where the FIFO is full; the armed re-reference is applied (R306 to
R308). -/
def formRecord (s : State) (c : Nat) (ev : CapEvent) : State :=
  let i := capIdx c
  let ln := s.rn i 4
  let l := s.lead ln
  let stamp := if ln = 0xFF then 0 else leadStamp l ev.tick ev.offset / 2 ^ 32
  let x := s.cap c
  let rr := ln ≠ 0xFF && x.reref.isSome
  let s := match x.reref with
    | some v => if ln = 0xFF then s else rereference s ln (ofSigned 64 ((l.pos64 : Int) + diff64 v stamp))
    | none => s
  let inside := ln ≠ 0xFF && insideWindow (s.reg i 6).octets (cyclicLead s ln) stamp
  let flags := 1 + b2n ev.rising * 2 + b2n (ln ≠ 0xFF && l.st = ldValid) * 4 + b2n inside * 8 + b2n rr * 16
  let bytes := leBytes 12 (toTbtime ev.stamp) ++ leBytes 8 stamp ++ leBytes 8 (ofSigned 64 ev.count) ++ leBytes 1 flags ++
    leBytes 1 ev.seq ++ [0, 0]
  let s := s.record 0x0A c ev.tick ev.offset bytes
  if x.fifo.length ≥ 16 then (s.setCap c { x with reref := if rr then none else x.reref }).bump i 9
  else s.setCap c { x with fifo := x.fifo ++ [bytes], reref := if rr then none else x.reref }

/-- Records of the events of the last base tick. (DEDUCED, notes/assumptions/76.md) -/
def capTick (s : State) (c : Nat) : State :=
  let x := s.cap c
  let due := x.waiting.filter fun e => e.tick < s.clock.tick
  due.foldl (fun s e => formRecord s c e)
    (s.setCap c { x with waiting := x.waiting.filter fun e => !(e.tick < s.clock.tick : Bool) })

/-- A read of OD 7520+c:07: the oldest record, removed; 32 bytes with VALID clear from an empty FIFO (R306). -/
def popRecord (s : State) (c : Nat) : List Byte × State :=
  let x := s.cap c
  match x.fifo with
  | [] => (List.replicate 32 0, s)
  | r :: t => (r, s.setCap c { x with fifo := t })

/-! Limit and home inputs (R309). -/

/-- Whether an active edge stamped `ago` ns before the present boundary is qualified within this tick: a CAP source must have lasted for the
qualification time (R309). -/
def inputQualified (s : State) (a which ago : Nat) : Bool :=
  let src := s.rn (locIdx a) (0x11 + which) % 256
  src ≠ 0xFF && (0x10 ≤ src || s.rn (locIdx a) 0x14 * 1000 < ago + 6250)

/-- A qualified active edge of an input, stamped `ago` ns before the present boundary (R309), and what homing makes of the latch
(R312, R313). -/
def limitEdge (s : State) (a which ago : Nat) : State :=
  if !inputQualified s a which ago then s
  else
    let l := s.loc a
    if (getAt InLatch.init l.latches which).latched then s.bump (locIdx a) (0x19 + which)
    else
      let p := pastX s a ago
      let s := s.setLoc a { l with latches := setAt l.latches which ⟨true, p.1, p.2⟩ }
      let m := s.rn (homIdx a) 1
      homingNote s a fun h =>
        if which = 2 then
          if (m = 2 || m = 4) && h.phase = 1 then { h with found := true }
          else if m = 2 && h.phase = 5 then h.setEdge (homeRef s a p.1 p.2)
          else if m = 4 && h.phase = 5 then { h with homeSeen := true }
          else h
        else if m = 5 || m = 6 then h
        else if which ≠ boundInput h.dir then { h with fail := 4 }
        else if m = 1 then (if h.phase = 1 then { h with found := true } else h)
        else if h.boundMet || h.reverse then { h with fail := 5 }
        else if h.phase = 1 then { h with reverse := true }
        else h

/-- An input inactive for the re-arm time returns to ARMED; its release edge lies `ago` ns back (R309, R312). -/
def limitRearm (s : State) (a which ago : Nat) : State :=
  let l := s.loc a
  if !(getAt InLatch.init l.latches which).latched || ago + 6250 ≤ s.rn (locIdx a) 0x15 * 1000 then s
  else
    let p := pastX s a ago
    let s := s.setLoc a { l with latches := setAt l.latches which InLatch.init }
    let m := s.rn (homIdx a) 1
    homingNote s a fun h =>
      if h.phase ≠ 3 then h
      else if m = 1 && which = boundInput h.dir then h.setEdge (homeRef s a p.1 p.2)
      else if (m = 2 || m = 4) && which = 2 then { h with rearmed := true }
      else h

/-! Homing (R311 to R314). -/

/-- HOME_CONFIG: the method lacks what it needs (R311). (DEDUCED, notes/assumptions/170.md) -/
def homeConfigBad (s : State) (a : Nat) : Bool :=
  let none_ := fun (sub : Nat) => s.rn (locIdx a) sub % 256 = 0xFF
  let m := s.rn (homIdx a) 1
  let noEnc : Bool := s.rn (locIdx a) 0x0E = 0xFF
  (m = 1 && none_ (if s.rn (homIdx a) 2 = 0 then 0x11 else 0x12)) || ((m = 2 || m = 4) && none_ 0x13) ||
    ((m = 3 || m = 5 || s.rn (homIdx a) 8 = 1) && noEnc)

/-- Why a start of homing is refused (R311). -/
def homingAbort (s : State) (a : Nat) : Nat :=
  match axisOfLocal s a with
  | none => abLocked
  | some n =>
    if (s.axis n).st ≠ axStandstill then abLocked
    else if axisRein s n then abHaltActive
    else if homeConfigBad s a then abHomeConfig
    else abOk

/-- Homing starts (R311, R312). -/
def homingStart (s : State) (a : Nat) : State :=
  match axisOfLocal s a with
  | none => s
  | some n =>
    let l := s.loc a
    let m := s.rn (homIdx a) 1
    let d : Int := if s.rn (homIdx a) 2 = 0 then 1 else -1
    let x := s.axis n
    let latched := fun (w : Nat) => (getAt InLatch.init l.latches w).latched
    let leave := ((m = 2 || m = 4) && latched 2) || (m = 1 && latched (boundInput d))
    let h : Homing := { Homing.init with phase := if leave then 3 else 1, dir := d, cur := d, start := x.p,
                                         edge := if m = 6 then some (homeRef s a l.x (s.enc (s.rn (locIdx a) 0x0E)).count) else none }
    let s := (s.setLoc a { l with homed := false, homing := h }).setNum (homIdx a) 0x0D 1
    let s := s.setAxis n { x.endMotion with st := axHoming, atTarget := false }
    if m = 6 then s
    else homingVel s n a (if leave then signed (-d) (homeVC s a) else signed d (if m = 3 || m = 5 then homeVC s a else homeVS s a))

/-- The deviation of a HARD_STOP homing has lasted for the dwell time: the actual position is the home edge (R312). -/
def hardStop (s : State) (a : Nat) : State :=
  if s.rn (homIdx a) 1 = 5 then
    homingNote s a fun h =>
      if h.phase = 1 && h.devSince.any (fun t => msPassed s t (s.rn (homIdx a) 0x0B)) then h.setEdge ((localActual s a).getD (s.loc a).x)
      else h
  else s

/-- Homing succeeds at the axis's next sample boundary: Δ = H − r is added to x, the setpoints, the profile state and the actual offset
(R314). -/
def homingDone (s : State) (a : Nat) : State :=
  let l := s.loc a
  match l.homing.phase, l.homing.edge, axisOfLocal s a with
  | 9, some r, some n =>
    if !axisBoundary s n then s else
    let d := s.ri (homIdx a) 7 64 - r
    let i := locIdx a
    let s := s.setLoc a { l with x := l.x + d, sPrev := l.sPrev + d, sNew := l.sNew + d, incoming := l.incoming.map (· + d),
                                 emitted := l.emitted + ((l.x + d) / 2 ^ 32 - l.x / 2 ^ 32), homed := true,
                                 homing := Homing.init, hist := l.hist.map (fun h => (h.1, h.2.1 + d, h.2.2)),
                                 coast := { l.coast with pos := l.coast.pos + d, s := l.coast.s.map (· + d) } }
    let s := s.setNum i 0x18 (ofSigned 64 (s.ri i 0x18 64 + d))
    let s := ((s.setNum (homIdx a) 0x0D 2).setNum (homIdx a) 0x0E (ofSigned 64 r)).setNum (homIdx a) 0x0F (ofSigned 64 d)
    let x := s.axis n
    s.setAxis n { x.endMotion with st := axStandstill, p := x.p + d, v := F64.zero, a := F64.zero,
                                   sp := x.sp.map (· + d), toCome := x.toCome.map fun q => (q.1, q.2 + d) }
  | _, _, _ => s

/-- The local-axis status word (R321). -/
def localStatus (s : State) (a : Nat) : Nat :=
  let l := s.loc a
  let latched := fun (w : Nat) => b2n (getAt InLatch.init l.latches w).latched
  b2n l.homed * 2 ^ 31 + latched 0 * 2 ^ 30 + latched 1 * 2 ^ 29 + latched 2 * 2 ^ 28 + b2n (l.lag > 0) * 2 ^ 27 +
    b2n l.holding * 2 ^ 26 + b2n l.coasting * 2 ^ 25 + b2n l.openLoop * 2 ^ 24 + min 255 l.lag * 2 ^ 16

/-- AX at a base-tick boundary: encoders, local axes, capture records, PWM periods. -/
def localTicks (s : State) : State :=
  if !s.axUp then forNums 96 s pwmTick
  else forNums 96 (forNums 16 (forNums 32 (forNums 16 s encTick) fun s a => noteDeviation (localTick s a) a) capTick) pwmTick

end Sys2Proof.Machine
end

