-- ==== Sys2Proof/Machine/Analogue.lean ====
section
/-! DEFINITION. Converters, conversion triggers, analogue inputs and outputs (R405 to R427). Instants are ADC clocks of 12.5 ns,
500 to a base tick, counted from tick 0. -/

namespace Sys2Proof.Machine

def convIdx (a : Nat) : Nat := 0x6020 + a
def ainIdx (i : Nat) : Nat := 0x6100 + i
def trigIdx (t : Nat) : Nat := 0x6200 + t
def aoutIdx (o : Nat) : Nat := 0x6300 + o

/-- The ADC clock at `offset` of the present base tick. -/
def adcClock (s : State) (offset : Nat) : Nat := s.clock.tick * 500 + offset

/-- 100 ns, 250 ns, 500 ns and 1 µs in ADC clocks. -/
def trackClocks : Nat := 8
def convClocks : Nat := 20
def ovrClocks : Nat := 40
def rangeClocks : Nat := 80

/-! Trigger kinds of R408. -/
def tkOff : Nat := 0
def tkTick : Nat := 1
def tkTb : Nat := 2
def tkLead : Nat := 3
def tkPwm : Nat := 4
def tkSoftware : Nat := 5

/-! Queues (R411). -/

/-- Inserts a request by H, then by trigger number; an equal request goes behind. -/
def insertReq (r : Req) : List Req → List Req
  | [] => [r]
  | q :: t => if r.h < q.h || (r.h = q.h && r.trig < q.trig) then r :: q :: t else q :: insertReq r t

/-- A request enters a converter's queue, or is dropped and counted (R411). A FAILED converter discards it uncounted. A request that enters
ends a running reference check, which is counted as aborted and leaves its input to be selected again (R407, R423). -/
def enterReq (s : State) (a : Nat) (r : Req) : State :=
  let c := s.conv a
  let ends : Bool := c.checking && (if r.urgent then c.urgent.isNone else c.normal.length < 4)
  let s := if ends then s.bump (convIdx a) 5 else s
  let c := if ends then { c with checking := false, selT := max c.selT c.clock } else c
  if c.failed then s
  else if r.urgent then
    if c.urgent.isSome || (c.running.any fun q => q.urgent) then s.bump (convIdx a) 4
    else s.setConv a { c with urgent := some r }
  else if c.normal.length ≥ 4 then s.bump (convIdx a) 3
  else s.setConv a { c with normal := insertReq r c.normal }

/-! The sequencer (R412). -/

/-- What one ADC clock of the sequencer counts: aborts, drops, delayed starts. -/
structure SeqRun where
  conv    : Conv
  aborts  : Nat
  drops   : Nat
  delayed : Nat

/-- An urgent request that falls due aborts a running NORMAL conversion, which restarts first (R412). -/
def seqAbort (t : Nat) (r : SeqRun) : SeqRun :=
  let c := r.conv
  match c.running, c.urgent with
  | some q, some u =>
    if t ≥ u.h && !q.urgent then
      let list := { q with restarted := true } :: c.normal
      { r with conv := { c with running := none, normal := list.take 4 }, aborts := r.aborts + 1,
               drops := r.drops + (list.length - 4) }
    else r
  | _, _ => r

/-- The head of the queues at clock t (R412). -/
def seqHead (t : Nat) (c : Conv) : Option Req :=
  match c.urgent, c.normal with
  | some u, n :: _ => if u.h ≤ t + trackClocks then some u else some n
  | some u, [] => some u
  | none, n :: _ => some n
  | none, [] => none

/-- Selection and start (R412). -/
def seqStart (t : Nat) (r : SeqRun) : SeqRun :=
  let c := r.conv
  match seqHead t c with
  | none => r
  | some h =>
    let free : Bool := c.running.all fun q => t ≥ q.start
    let c := if h.input ≠ c.sel && free then { c with sel := h.input, selT := t } else c
    if c.running.isNone && t ≥ h.h && h.input = c.sel && t ≥ c.selT + trackClocks then
      let c := { c with running := some { h with start := t } }
      let c := if h.urgent then { c with urgent := none } else { c with normal := c.normal.drop 1 }
      { r with conv := c, delayed := r.delayed + b2n (t > h.h) }
    else { r with conv := c }

/-- The sequencer from its clock up to clock `t`; it waits at the end of a conversion for the latch. -/
def seqTo : Nat → Nat → SeqRun → SeqRun
  | 0, _, r => r
  | k + 1, t, r =>
    let c := r.conv
    if c.clock ≥ t then r
    else if c.running.any fun q => c.clock + 1 ≥ q.start + convClocks then r
    else
      let r := { r with conv := { c with clock := c.clock + 1 } }
      seqTo k t (seqStart (c.clock + 1) (seqAbort (c.clock + 1) r))

/-- Runs a converter's sequencer to an ADC clock; with nothing queued and nothing running it only passes the time. (DEDUCED,
notes/assumptions/90.md) -/
def seqRun (s : State) (a t : Nat) : State :=
  let c := s.conv a
  if c.running.isNone && c.urgent.isNone && c.normal.isEmpty then s.setConv a { c with clock := max c.clock t }
  else
    let r := seqTo (t - c.clock) t ⟨c, 0, 0, 0⟩
    let i := convIdx a
    (((s.setConv a r.conv).countBy i 5 32 r.aborts).countBy i 3 32 r.drops).countBy i 6 32 r.delayed

/-! Triggers (R408, R409). -/

/-- The request that trigger t makes for converter a with hold instant `h`. -/
def requestOf (s : State) (t a h : Nat) : Req :=
  let i := trigIdx t
  ⟨t, bits (s.rn i 9) (2 * a + 1) (2 * a), h, s.rn i 0x0A = 1, false, 0⟩

/-- A trigger event at ADC clock `clk`: dropped and counted while a request of the last event has not reached its H, else its
requests enter the queues (R409). -/
def fireTrigger (s : State) (t clk : Nat) : State :=
  let i := trigIdx t
  let x := s.trig t
  if !s.axUp then s
  else if x.lastH > clk then s.bump i 0x0E
  else
    let h := clk + s.rn i 7
    let s := (s.setTrig t { x with lastH := h }).bump i 0x0D
    forNums 32 s fun s a => if bit (s.rn i 8) a then enterReq (seqRun s a clk) a (requestOf s t a h) else s

/-- The action that arms a trigger of kind TB or LEAD: kind, direction, past-due attribute, repeat. The first target of a TB trigger is
the first one that the pipeline of R115 reaches (R425). -/
def triggerAction (s : State) (t k : Nat) : Option (ActionKind × Bool × Nat × Bool) :=
  let i := trigIdx t
  let n := s.rn i 2 % 8
  if k = tkTb then some (.tb n (nextTarget (predictTb s n 2) (s.rn i 3) (s.rn i 4)), false, 0, false)
  else if k = tkLead then
    let o := s.rn i 6
    some (.lead n (s.rn i 5), bit o 0, bits o 2 1, bit o 3)
  else none

/-- Whether a trigger's period and offset lie in the ranges of its kind (R408, R425). -/
def triggerRangesOk (s : State) (t k : Nat) : Bool :=
  let i := trigIdx t
  let p := s.rn i 3
  let o := s.rn i 4
  if k = tkTick then 1 ≤ p && p ≤ 65535 && o < p
  else if k = tkTb then 6250 ≤ p && p ≤ 1000000000000 && o < p
  else if k = tkPwm then 1 ≤ p && p ≤ 256 && o < p && s.rn i 2 % 128 < 96
  else true

/-- Whether a converter in the mask has the selection 3 (R425). -/
def selectionBad (mask inputs : Nat) : Bool :=
  (List.range 32).any fun a => bit mask a && bits inputs (2 * a + 1) (2 * a) = 3

/-- Why a kind write is refused (R408, R425). -/
def triggerAbort (s : State) (t k : Nat) : Nat :=
  if k = tkOff then abOk
  else if selectionBad (s.rn (trigIdx t) 8) (s.rn (trigIdx t) 9) then abBadValue
  else if !triggerRangesOk s t k then abDependency
  else
    match triggerAction s t k with
    | some (ak, back, attr, rep) => actionAbort s ak back attr rep
    | none => abOk

/-- Whether an action is trigger t's own; a SOFTWARE fire that a write scheduled is not (R408). -/
def Work.isTrigger (w : Work) (t : Nat) : Bool := w = .trigger t none

/-- Removes a trigger's action, armed or due. -/
def disarmTrigger (s : State) (t : Nat) : State :=
  { s with actions := { s.actions with armed := s.actions.armed.filter (fun a => !a.work.isTrigger t),
                                       due := s.actions.due.filter fun d => !d.action.work.isTrigger t } }

/-- Arms a trigger from the first boundary that the pipeline of R115 reaches (R425). -/
def armTrigger (s : State) (t k : Nat) : State :=
  let s := disarmTrigger s t
  if k = tkOff then s.setTrig t { s.trig t with st := 0 }
  else
    let s := s.setTrig t { s.trig t with st := 1, fromTick := s.clock.tick + 2 }
    match triggerAction s t k with
    | some (ak, back, attr, rep) => armAction s ak back attr rep (.trigger t none)
    | none => s

/-- An offset in ns rounded up to ADC clocks (R114). -/
def nsToAdc (ns : Nat) : Nat := (ns * 2 + 24) / 25

/-- A fired action of a trigger (R408): a TB trigger whose target was past due arms its next one (the comparison re-armed every other), a
ONCE Lead trigger becomes SPENT. -/
def triggerByAction (s : State) (t tick off : Nat) : State :=
  let i := trigIdx t
  let k := s.rn i 1
  let s := if k = tkLead && !bit (s.rn i 6) 3 then s.setTrig t { s.trig t with st := 2 }
    else if k = tkTb && !s.actions.armed.any fun a => a.work.isTrigger t then
      match triggerAction s t k with
      | some (ak, back, attr, rep) => armAction s ak back attr rep (.trigger t none)
      | none => s
    else s
  if k = tkOff then s else fireTrigger s t (tick * 500 + nsToAdc off)

/-- Whether an ADC clock is the one to which a PWM trigger's event rounds up: a PERIOD or CENTRE event of its channel whose
number since the channel left OFF has the trigger's phase (R293, R408). Instants are counted in half PWM clocks, ten to an ADC
clock. (DEDUCED, notes/assumptions/143.md) -/
def pwmEventAt (s : State) (t clk : Nat) : Bool :=
  let i := trigIdx t
  let c := s.rn i 2 % 128
  let p := pwmIdx c
  let tp := max 1 (s.rn p 2)
  let first := 2 * s.rn p 3 + if bit (s.rn i 2) 8 then tp else 0
  let lastStart := ((s.clock.tick + 1) * 2500 - 1) / tp
  (List.range 10).any fun k =>
    let e := clk * 10 - k
    let back := lastStart - (e - first) / (2 * tp)
    first ≤ e && (e - first) % (2 * tp) = 0 && back < (s.pwm c).periods &&
      ((s.pwm c).periods - 1 - back) % max 1 (s.rn i 3) = s.rn i 4

/-- An event of a TICK or PWM trigger at an ADC clock offset of the present tick, once (R408). -/
def triggerEvent (s : State) (t offset : Nat) : State :=
  let i := trigIdx t
  let k := s.rn i 1
  let x := s.trig t
  let clk := adcClock s (if k = tkTick then 0 else offset)
  let event : Bool := (k = tkTick && s.clock.tick % max 1 (s.rn i 3) = s.rn i 4) ||
    (k = tkPwm && pwmMode s (s.rn i 2 % 128) ≠ 0 && offset < 500 && pwmEventAt s t clk)
  if x.st = 1 && x.fromTick ≤ s.clock.tick && x.lastEvent < clk && event then
    fireTrigger (s.setTrig t { x with lastEvent := clk }) t clk
  else s

/-! Results (R406, R413 to R416). -/

/-- The code of a voltage in nV, and OVR (R406). -/
def codeOf (range : Nat) (nv : Int) : Int × Bool :=
  let lsb : Int := if range = 0 then 312500 else 78125
  let c := (2 * nv + lsb) / (2 * lsb)
  if c > 32767 then (32767, true) else if c < -32768 then (-32768, true) else (c, false)

/-- The tag of R414. -/
def tagOf (invalid : Bool) (range : Nat) (urgent restarted delayed neighbour recovering ovr : Bool) : Nat :=
  b2n invalid * 128 + range * 64 + b2n urgent * 32 + b2n restarted * 16 + b2n delayed * 8 + b2n neighbour * 4 +
    b2n recovering * 2 + b2n ovr

/-- The result record of R413. -/
def recordOf (start trig seq tag : Nat) (code : Int) : Nat :=
  start / 500 % 2 ^ 16 * 2 ^ 48 + start % 500 * 2 ^ 39 + trig * 2 ^ 32 + seq % 256 * 2 ^ 24 + tag * 2 ^ 16 + ofSigned 16 code

/-- An OVR conversion of input i starts the NEIGHBOUR count of every converter of its cluster (R415). -/
def markNeighbours (s : State) (a i start : Nat) : State :=
  forNums 8 s fun s k =>
    let b := a / 8 * 8 + k
    s.setConv b { s.conv b with ovrStart := start, ovrInput := i, neighbour := 2 }

/-- A record enters an input and is released to CX over the compute–analogue link (R413). -/
def storeRecord (s : State) (i rec_ : Nat) : State :=
  let x := s.ain i
  s.setAin i { x with rec_ := rec_, atCx := if s.linkGood .axCx then rec_ else x.atCx }

/-- Result of the running conversion of converter a, measured at `nv` nV (R406, R413 to R416). -/
def latchConv (s : State) (a : Nat) (nv : Int) : State :=
  let c := s.conv a
  match c.running with
  | none => s
  | some r =>
    let i := 3 * a + r.input
    let x := s.ain i
    let range := if x.rangeAt.any fun g => r.start < g then x.rangeOld else x.range
    let v := codeOf range nv
    let nb : Bool := c.neighbour > 0 && r.start > c.ovrStart
    let neighbour : Bool := nb && c.ovrInput ≠ i
    let recovering : Bool := (x.ovrAt.any fun o => r.start - o < ovrClocks) || x.prevOvr ||
      (x.rangeAt.any fun g => r.start ≥ g && r.start - g < rangeClocks)
    let delayed : Bool := r.start > r.h
    let rec_ := recordOf r.start r.trig (x.seq + 1) (tagOf false range r.urgent r.restarted delayed neighbour recovering v.2) v.1
    let s := s.setConv a { c with running := none, clock := r.start + convClocks - 1, neighbour := c.neighbour - b2n nb }
    let s := s.setAin i { x with seq := x.seq + 1, prevOvr := v.2, ovrAt := if v.2 then some r.start else x.ovrAt }
    let s := s.bump64 (convIdx a) 2
    let s := if v.2 then (markNeighbours s a i r.start).bump (ainIdx i) 5 else s
    let s := if v.2 then s.bump 0x6000 5 else s
    let s := s.record 6 i (r.start / 500) (r.start % 500) (leBytes 8 rec_)
    if s.rn (ainIdx i) 4 = 1 && (recovering || neighbour) then s.bump (ainIdx i) 6 else storeRecord s i rec_

/-- A converter becomes FAILED: its requests are discarded and its inputs hold INVALID (R407). -/
def failConverter (s : State) (a : Nat) : State :=
  let s := s.setConv a { s.conv a with failed := true, running := none, normal := [], urgent := none, checking := false }
  let s := s.setNum 0x6000 6 (s.rn 0x6000 6 ||| 2 ^ a)
  forNums 3 s fun s k => storeRecord s (3 * a + k) 0x800000

/-- Whether the check interval of OD 6000:07 has passed since a converter's last finished check or interval without one (R407). -/
def checkDue (s : State) (a : Nat) : Bool := s.elapsed (s.conv a).checkedAt (s.rn 0x6000 7 * secUnits)

/-- A finished check (R407): its deviation, its failures, and the third failure in a row. -/
def checkRead (s : State) (a : Nat) (d : Int) : State :=
  let c := { s.conv a with checking := false, noGap := 0, starved := false, checkedAt := s.now }
  let s := s.setNum (convIdx a) 7 (ofSigned 16 d)
  if d.natAbs > 64 then
    let s := (s.setConv a { c with bad := c.bad + 1 }).bump (convIdx a) 8
    if c.bad + 1 ≥ 3 then failConverter s a else s
  else s.setConv a { c with bad := 0 }

/-- A reference check (R407): it begins only while the converter is idle with empty queues; it is read while it runs; an interval that
has passed without a gap counts towards REF_STARVED. -/
def referenceCheck (s : State) (a : Nat) (r : CheckResult) : State :=
  let c := s.conv a
  let idle : Bool := c.running.isNone && c.urgent.isNone && c.normal.isEmpty
  if c.failed then s
  else
    match r with
    | .started => if idle then s.setConv a { c with checking := true } else s
    | .noGap =>
      if checkDue s a then
        s.setConv a { c with noGap := c.noGap + 1, starved := c.starved || 10 ≤ c.noGap + 1, checkedAt := s.now }
      else s
    | .reading d => if c.checking && idle then checkRead s a d else s

/-- The converter status word (R423). -/
def convStatus (s : State) (a : Nat) : Nat :=
  let c := s.conv a
  (if c.failed then 3 else if c.checking then 2 else if c.running.isSome then 1 else 0) + c.sel * 4 + b2n c.starved * 16

/-- A sum over the converters or triggers of one counter (R422). -/
def sumReg (s : State) (base count sub : Nat) : Nat := (List.range count).foldl (fun n k => n + s.rn (base + k) sub) 0

/-- A binary32 pattern of a rational num / den, to nearest even; 0 below 2^−126. -/
def real32Of (num : Int) (den : Nat) : Nat :=
  if num = 0 || den = 0 then 0
  else
    let m := num.natAbs
    let sgn := if num < 0 then 2 ^ 31 else 0
    let e0 : Int := (Nat.log2 m : Int) - Nat.log2 den - 25
    let q : Int := if e0 ≥ 0 then m / (den * 2 ^ e0.toNat) else m * 2 ^ (-e0).toNat / den
    let exact : Bool := if e0 ≥ 0 then m % (den * 2 ^ e0.toNat) = 0 else m * 2 ^ (-e0).toNat % den = 0
    let q2 := q * 2 + (if exact then 0 else 1)
    let l : Nat := Nat.log2 q2.toNat + 1
    let r := l - 24
    let f := rneDiv q2 (2 ^ r)
    let fe : Int × Int := if f = 2 ^ 24 then (2 ^ 23, e0 - 1 + r + 1) else (f, e0 - 1 + r)
    if fe.2 + 23 < -126 then 0 else sgn + (fe.2 + 23 + 127).toNat * 2 ^ 23 + (fe.1 - 2 ^ 23).toNat

/-- OD 6100+i:03, CODE × LSB of the record's RANGE in V (R424). -/
def ainVoltage (s : State) (i : Nat) : Nat :=
  let r := (s.ain i).rec_
  let c := toSigned 16 r
  if bit r 22 then real32Of (c * 78125) 1000000000 else real32Of (c * 312500) 1000000000

/-- A range write waiting for the base-tick boundary (R406). -/
def rangeWritten (s : State) (i : Nat) : State := s.setAin i { s.ain i with rangePend := true }

/-- Inputs at a base-tick boundary: a range write applies. -/
def ainTick (s : State) (i : Nat) : State :=
  let x := s.ain i
  if x.rangePend then s.setAin i { x with range := s.rn (ainIdx i) 1, rangePend := false, rangeAt := some (adcClock s 0), rangeOld := x.range }
  else s

/-! Analogue outputs (R417 to R421). -/

/-- The enabled control channel whose destination names an output (R418). -/
def aoutChan (s : State) (o : Nat) : Option Nat :=
  (s.chans.find? fun p => chanEnabled s p.1 && bits (s.rn (chIdx p.1) 0x0B) 31 28 = 6 && bits (s.rn (chIdx p.1) 0x0B) 3 0 = o).map
    (·.1)

def safeCode (s : State) (o : Nat) : Int := s.ri (aoutIdx o) 3 16

/-- The code of an output whose source is valid: the source's, the safe code until a first one after a mode change, or OD
6300+o:04 (R418). -/
def aoutSource (s : State) (o : Nat) (program : Bool) : Int :=
  let x := s.aout o
  if (aoutChan s o).isSome || program then (if x.waiting then safeCode s o else x.source) else s.ri (aoutIdx o) 4 16

/-- A pin of the output's mask demands stop, as AX counts it (R420). -/
def aoutStopped (s : State) (o : Nat) : Bool := (s.rn (aoutIdx o) 6 &&& s.rein.pinsAx &&& 3) ≠ 0

/-- The code in force of one output, by override, loss rule and source (R418 to R421). `program` says whether the program owns
it. (DEDUCED, notes/assumptions/91.md) -/
def aoutLoad (s : State) (o : Nat) (program : Bool) : State :=
  let x := s.aout o
  if s.rn (aoutIdx o) 1 = 0 || !s.axUp || !s.serves 6 then s
  else
    let valid := s.cxToAx
    let x := if valid then { x with holding := false, safe := false, last := aoutSource s o program }
      else { x with holding := true, holdFrom := if x.holding then x.holdFrom else s.clock.tick }
    let stop := aoutStopped s o
    s.setAout o { x with stopOver := stop, code := if stop || x.safe then safeCode s o else x.last }

/-- A counted change of the stop pins puts the safe code in force on the masked outputs at once (R420). -/
def aoutPins (s : State) : State :=
  forNums 16 s fun s o =>
    if s.rn (aoutIdx o) 1 ≠ 0 && aoutStopped s o then
      s.setAout o { s.aout o with stopOver := true, code := safeCode s o }
    else s

/-- The loss timeout of an output that holds (R419). -/
def aoutLoss (s : State) (o : Nat) : State :=
  let x := s.aout o
  if x.holding && s.rn (aoutIdx o) 5 ≠ 0 && msPassed s x.holdFrom (s.rn (aoutIdx o) 5) then s.setAout o { x with safe := true, code := safeCode s o } else s

/-- A mode write: the safe code follows the mode, and the output carries it until a first code (R417, R418). -/
def aoutMode (s : State) (o v : Nat) : State :=
  let s := s.setNum (aoutIdx o) 1 v
  let s := if v = 1 then s.setNum (aoutIdx o) 3 0 else if v = 2 then s.setNum (aoutIdx o) 3 0x8000 else s
  s.setAout o { AOut.init with code := if v = 0 then 0 else safeCode s o, last := if v = 0 then 0 else safeCode s o }

/-- Onset of an output fault (R421): OPEN in CURRENT mode, SHORT in VOLTAGE mode, OVERTEMP in either. -/
def aoutFault (s : State) (o : Nat) (f : AoutFaultKind) : State :=
  let x := s.aout o
  let m := s.rn (aoutIdx o) 1
  match f with
  | .openLoop => if m = 2 && !x.openF then (s.setAout o { x with openF := true }).bump (aoutIdx o) 8 else s
  | .short => if m = 1 && !x.shortF then (s.setAout o { x with shortF := true }).bump (aoutIdx o) 8 else s
  | .overtemp => if m ≠ 0 && !x.overtemp then (s.setAout o { x with overtemp := true }).bump (aoutIdx o) 8 else s

/-- The condition of an output fault ends (R421). -/
def aoutFaultEnd (s : State) (o : Nat) (f : AoutFaultKind) : State :=
  let x := s.aout o
  match f with
  | .openLoop => s.setAout o { x with openF := false }
  | .short => s.setAout o { x with shortF := false }
  | .overtemp => s.setAout o { x with overtemp := false }

/-- What an output carries at its pin: none is the output-off state (R417, R421). -/
def aoutPin (s : State) (o : Nat) : Option Int :=
  if s.rn (aoutIdx o) 1 = 0 || (s.aout o).overtemp || !s.axUp || !s.serves 6 then none else some (s.aout o).code

/-- The status byte of OD 6300+o:07. -/
def aoutStatus (s : State) (o : Nat) : Nat :=
  let x := s.aout o
  b2n x.openF + b2n x.shortF * 2 + b2n x.overtemp * 4 + b2n x.holding * 8 + b2n x.safe * 16 + b2n x.stopOver * 32

end Sys2Proof.Machine
end

