-- ==== Sys2Proof/Machine/Field.lean ====
section
/-! DEFINITION. Isolated field I/O (R428 to R452): debounced inputs and their frames, output sources, edge actions, protection and
retry, L+ supplies, declared states. -/

namespace Sys2Proof.Machine

/-! Output states of R439. -/
def osOff : Nat := 0
def osOn : Nat := 1
def osRetry : Nat := 2
def osLocked : Nat := 3
def osNoSupply : Nat := 4

def abFieldUnavailable : Nat := 0x7404

def diIdx (i : Nat) : Nat := 0x7100 + i
def doIdx (o : Nat) : Nat := 0x7300 + o
def lpIdx (q : Nat) : Nat := 0x7200 + q

/-- AX has declared FX failed (R32, R434, R445). -/
def fxFailed (s : State) : Bool := s.dieState 5 = 5

/-- The FX state of OD 7000:01. -/
def fxState (s : State) : Nat := if s.dieState 5 = 5 then 2 else if s.dieState 5 = 1 then 0 else 1

/-! Inputs. -/

/-- The nominal input delay of 400 ns in steps of 20 ns (R430). -/
def inputDelay : Nat := 20

/-- The logical level of an input: invert applies after the debounce (R431). -/
def logical (s : State) (i : Nat) (level : Bool) : Bool := level != (s.rn (diIdx i) 2 = 1)

/-- Whether a run of samples that began at `stamp`, in steps of 20 ns, has lasted the debounce time of input i before the present tick
ends; a new group type restarts the debounce (R430, R431). -/
def debounced (s : State) (i stamp : Nat) : Bool :=
  getAt 0 s.field.typeFrom (i / 8) * 6250 ≤ stamp * 20 && (stamp + 50 * s.rn (diIdx i) 1) * 20 ≤ (s.clock.tick + 1) * 6250

/-- A level that lasted the debounce time is accepted (R431). The stamp is the first sample of the run, less the nominal input delay. -/
def diAccept (s : State) (i : Nat) (level : Bool) (stamp : Nat) : State :=
  let x := s.din i
  if x.fx = level || !debounced s i stamp then s
  else
    let s := (s.setDin i { x with fx := level }).bump (diIdx i) 6
    { s with field := { s.field with edges := s.field.edges ++ [⟨i, logical s i level, stamp - inputDelay⟩] } }

/-- A field frame as its receiver sees it: a link of its own (R30, R32), and an error counted where its check fails (R445). -/
def fieldFrame (s : State) (l : Link) (good : Bool) : State :=
  let x := { s.link (linkNum l) with seen := true }
  if good then s.setLink (linkNum l) { x with good := true, invalid := false }
  else (s.setLink (linkNum l) { x with invalid := true, errors := x.errors + 1, crc := x.crc + 1 }).bump 0x7000 4

/-- The uplink frame of boundary j reaches AX (R432), or fails its check and leaves the tick's inputs STALE (R434). (DEDUCED,
notes/assumptions/92.md) -/
def uplinkFrame (s : State) (good : Bool) : State :=
  let s := fieldFrame s .fxAx good
  if !good || fxFailed s then { s with field := { s.field with stale := true } }
  else
    let lv := (List.range 64).map fun i => (i, logical s i (s.din i).fx)
    { s with field := { s.field with arrived := some (lv, s.field.edges), edges := [], stale := false } }

/-- The input status word (R448). -/
def diStatus (s : State) (i : Nat) : Nat :=
  let x := s.din i
  b2n x.rising * 16 + b2n x.stampLost * 8 + b2n x.wireBreak * 4 + b2n (!x.valid || fxFailed s) * 2 + b2n x.cur

/-- The edges of a frame: the first 8 carry their stamps, the others the instant of the boundary (R432). Each is recorded (R453). -/
def applyEdges (s : State) (bound : Nat) : List DiEdge → Nat → State
  | [], _ => s
  | e :: t, n =>
    let x := s.din e.input
    let lost : Bool := n ≥ 8
    let stamp := if lost then bound else e.stamp
    let s := s.setDin e.input { x with stamp := stamp, rising := e.level, stampLost := lost }
    let s := s.record 0x0C e.input (stamp * 20 / 6250) (stamp * 20 % 6250)
      (leBytes 12 (toTbtime (stamp * 20 * 2 ^ 32)) ++ leBytes 1 (diStatus s e.input))
    applyEdges (if lost then s.bump 0x7000 6 else s) bound t (n + 1)

/-- Field inputs at a base-tick boundary: the levels of the last frame become the input states of the tick (R432). -/
def fieldInputs (s : State) : State :=
  match s.field.arrived with
  | none => s
  | some (lv, es) =>
    let s := { s with field := { s.field with arrived := none } }
    let s := lv.foldl (fun s p => s.setDin p.1 { s.din p.1 with cur := p.2, valid := true }) s
    applyEdges s ((s.clock.tick - 1) * 6250 / 20) es 0

/-- WIRE_BREAK (R433). -/
def wireBreak (s : State) (i : Nat) : State :=
  let x := s.din i
  if s.rn (diIdx i) 7 = 1 && !x.wireBreak then (s.setDin i { x with wireBreak := true }).bump (diIdx i) 8 else s

def wireBreakEnd (s : State) (i : Nat) : State := s.setDin i { s.din i with wireBreak := false }

/-- AX treats every DI-sourced limit or home input as LATCHED while FX is FAILED (R434). -/
def latchDiInputs (s : State) : State :=
  forNums 32 s fun s a => forNums 3 s fun s w =>
    let src := s.rn (locIdx a) (0x11 + w) % 256
    let l := s.loc a
    if 0x10 ≤ src && src ≤ 0x4F && !(getAt InLatch.init l.latches w).latched then
      s.setLoc a { l with latches := setAt l.latches w ⟨true, l.x, 0⟩ }
    else s

/-! Outputs: drive and protection (R439 to R443). -/

/-- The declared level of an output; HOLD keeps the level last driven (R442). -/
def declaredLevel (s : State) (o : Nat) : Bool :=
  match s.rn (doIdx o) 1 with
  | 0 => false
  | 1 => true
  | _ => (s.dout o).drive

/-- A masked pin demands stop as FX knows it (R442). -/
def doStopped (s : State) (o : Nat) : Bool := (s.rn (doIdx o) 5 &&& s.field.pins &&& 3) ≠ 0

/-- The drive level of an output before protection (R443, ranks 1 and 3 to 6). Until the field function reports READY every output is
off; a function that fails afterwards with AX leaves FX to its declared states (R43, R442). -/
def driveLevel (s : State) (o : Nat) : Bool :=
  let x := s.dout o
  if s.field.watchdog || (s.ready 7).state = 1 then false
  else if s.field.linkLost || s.field.declared then declaredLevel s o
  else if x.stopOver then declaredLevel s o
  else if x.expired then declaredLevel s o
  else x.commanded

/-- The switch of an output by its drive level at an offset of a tick (R439): a turn-on starts an inrush window. -/
def switchOutAt (s : State) (o tick offset : Nat) : State :=
  let x := s.dout o
  let d := driveLevel s o
  let st := if x.st = osOff && d then osOn else if x.st = osOn && !d then osOff else x.st
  let s' := s.setDout o { x with drive := d, st := st, onClk := if st = osOn && x.st ≠ osOn then s.clock.timClk else x.onClk }
  if st ≠ x.st then s'.emit (.pin pinField o (st = osOn) tick offset) else s'

/-- The same at the present boundary. -/
def switchOut (s : State) (o : Nat) : State := switchOutAt s o s.clock.tick 0

/-- Every output by its drive level. -/
def switchAll (s : State) : State := forNums 32 s switchOut

/-- Inside the inrush window of 10 ms from the turn-on (R435). -/
def inrush (s : State) (o : Nat) : Bool := (s.dout o).st = osOn && s.clock.timClk - (s.dout o).onClk < wallNs 10000000

/-- An output leaves RETRY_WAIT, LOCKED or NO_SUPPLY for ON or OFF by its drive level. -/
def releaseOut (s : State) (o : Nat) : State := switchOut (s.setDout o { s.dout o with st := osOff }) o

/-- The time in ns that an output has been ON at least as a fault shows (R435, R439): 200 µs of current limit, 2 ms of overload
outside the inrush window. (DEDUCED, notes/assumptions/144.md) -/
def faultTime : OutFaultKind → Nat
  | .short => 200000
  | .overload => 12000000
  | .thermal => 0

/-- A fault of an output that is ON; OVERLOAD only outside the inrush window (R439, R440). -/
def outputFault (s : State) (o : Nat) (f : OutFaultKind) : State :=
  let x := s.dout o
  let code := match f with
    | .short => 1
    | .overload => 2
    | .thermal => 3
  if x.st ≠ osOn || !s.elapsed x.onClk (wallNs (faultTime f)) then s
  else
    let limit := s.rn (doIdx o) 7
    let n := x.consec + 1
    let st := if n ≤ limit || limit = 255 then osRetry else osLocked
    ((s.setDout o { x with st := st, consec := n, lastFault := code, faultClk := s.clock.timClk }).bump (doIdx o) 0x0B).emit (.pin pinField o false s.clock.tick 0)

/-- The retry delay has passed (R439, R440). -/
def outputRetry (s : State) (o : Nat) : State :=
  if (s.dout o).st ≠ osRetry || !s.elapsed (s.dout o).faultClk (wallNs (s.rn (doIdx o) 6 * 1000000)) then s
  else
    let s := releaseOut s o
    if (s.dout o).st = osOn then s.bump (doIdx o) 0x0C else s

/-- ON for 1 s without a fault (R440). -/
def faultCountClear (s : State) (o : Nat) : State :=
  if (s.dout o).st = osOn && s.elapsed (s.dout o).onClk (wallSec 1) then s.setDout o { s.dout o with consec := 0 } else s

/-- A reset of a LOCKED output waits for the next base-tick boundary (R439). -/
def outputReset (s : State) (o : Nat) : State :=
  if (s.dout o).st = osLocked then s.setDout o { s.dout o with resetDue := true } else s

/-- OPEN_LOAD of an output that is ON, and its end (R444). -/
def openLoad (s : State) (o : Nat) : State :=
  if (s.dout o).st = osOn && s.elapsed (s.dout o).onClk (wallNs 100000000) then s.setDout o { s.dout o with openLoad := true }
  else s

def openLoadEnd (s : State) (o : Nat) : State := s.setDout o { s.dout o with openLoad := false }

/-- The loss timeout of an output that is HOLDING (R442). -/
def doLoss (s : State) (o : Nat) : State :=
  let x := s.dout o
  if x.holding && s.rn (doIdx o) 4 ≠ 0 && x.holdTick + 160 * s.rn (doIdx o) 4 ≤ s.clock.tick then switchOut (s.setDout o { x with expired := true }) o else s

/-! Supplies (R441). -/

/-- A measurement of LPLUSq: thresholds, their onsets, and what MISSING does to the group. -/
def lplusSample (s : State) (q mv : Nat) : State :=
  let x := s.supply q
  let s := s.setNum (lpIdx q) 1 mv
  let okFrom := if mv > 10000 then (if x.okFrom.isSome then x.okFrom else some s.clock.timClk) else none
  let missing : Bool := if mv < 9000 then true
    else if x.missing then !(okFrom.any fun t => s.clock.timClk - t ≥ wallNs 10000000) else false
  let low : Bool := if mv < 18000 then true else if mv > 18500 then false else x.low
  let high : Bool := if mv > 32000 then true else if mv < 31000 then false else x.high
  let onsets := b2n (missing && !x.missing) + b2n (low && !x.low) + b2n (high && !x.high)
  let s := (s.setSupply q ⟨missing, low, high, okFrom, if missing then none else x.lastOn⟩).countBy (lpIdx q) 4 32 onsets
  forNums 8 s fun s k =>
    let o := 8 * q + k
    let y := s.dout o
    if missing && y.st ≠ osNoSupply then
      (s.setDout o { y with st := osNoSupply }).emit (.pin pinField o false s.clock.tick 0)
    else if !missing && y.st = osNoSupply && !driveLevel s o then s.setDout o { y with st := osOff }
    else s

/-- The next output of the group turns on after MISSING has cleared, in channel order, 1 ms after the one before it (R441). -/
def lplusRestart (s : State) (q : Nat) : State :=
  let x := s.supply q
  if x.missing || x.lastOn.any (fun t => !s.elapsed t (wallNs 1000000)) then s
  else
    match (List.range 8).find? fun k => (s.dout (8 * q + k)).st = osNoSupply with
    | some k => releaseOut (s.setSupply q { x with lastOn := some s.clock.timClk }) (8 * q + k)
    | none => s

/-- The supply status byte (R449). -/
def supplyStatus (s : State) (q : Nat) : Nat :=
  let x := s.supply q
  b2n x.missing + b2n x.low * 2 + b2n x.high * 4

/-! Sources and frames (R436 to R438, R442). -/

/-- The value of an output's level source; `owned` says whether the program owns the output (R436). -/
def levelValue (s : State) (o : Nat) (owned : Bool) : Bool := if owned then (s.dout o).progLevel else s.rn (doIdx o) 2 = 1

/-- Edge actions due in the next base tick, in the order of R123. -/
def dueEdges (s : State) : List DoEdge :=
  s.actions.due.filterMap fun d =>
    match d.action.work with
    | .fieldEdge o lv _ => if d.tick = s.clock.tick + 1 then some ⟨o, lv, d.tick, d.offset, false⟩ else none
    | _ => none

/-- Whether a due action is an edge of a field output that the frame of this tick takes. -/
def takenEdge (s : State) (d : Due) : Bool :=
  match d.action.work with
  | .fieldEdge _ _ _ => d.tick = s.clock.tick + 1
  | _ => false

/-- The downlink frame of tick j (R432, R438): level values in force at boundary j, up to 8 edge actions for tick j+1, the repeat of
the previous frame's actions, stop pins and DECLARE. A frame that fails its check leaves its actions to the repeat. -/
def downlinkFrame (s : State) (good : Bool) (owned : Nat → Bool) : State :=
  let now := s.field.carried ++ dueEdges s
  let first := now.take 8
  let more := (now.drop 8).map fun e => { e with late := true, offset := 0, tick := s.clock.tick + 2 }
  let s := (s.actions.due.filter (takenEdge s)).foldl (fun s d => answerWork s d.action.work abOk (predictTb s 0 1 + d.offset * 2 ^ 32) d.action.status) s
  let s := { s with actions := { s.actions with due := s.actions.due.filter fun d => !takenEdge s d } }
  let s := fieldFrame { s with field := { s.field with goodRun := if good then s.field.goodRun + 1 else 0 } } .axFx good
  let f := s.field
  if !good then
    { s with field := { f with carried := more, repeats := first.map fun e => { e with late := true, offset := 0, tick := s.clock.tick + 2 } } }
  else
    let lv := if s.cxToAx then some ((List.range 32).map fun o => levelValue s o (owned o)) else none
    let s := if f.sendDecl && !f.declared then s.bump 0x7000 7 else s
    let s := { s with field := { f with carried := more, repeats := [], actions := f.actions ++ f.repeats ++ first, levels := lv,
                                        pins := s.rein.pinsAx, declared := f.declared || f.sendDecl } }
    let s := forNums 32 s fun s o =>
      let x := s.dout o
      let x := if lv.isNone then { x with holding := true, holdTick := if x.holding then x.holdTick else s.clock.tick }
        else { x with holding := false, expired := false }
      s.setDout o (if doStopped s o then { x with stopOver := true } else x)
    switchAll s

/-- The instant of an edge in ns, rounded up to 20 ns (R114, R436). -/
def DoEdge.instant (e : DoEdge) : Nat := (e.tick * 6250 + e.offset + 19) / 20 * 20

/-- One edge action reaches its output at its instant (R114, R115, R437, R438). -/
def applyDoEdge (s : State) (e : DoEdge) : State :=
  let x := s.dout e.output
  let s := s.setDout e.output { x with commanded := e.level, lateEdge := e.late }
  let s := if e.late then (s.bump (doIdx e.output) 0x0D).bump 0x7000 5 else s
  switchOutAt s e.output (e.instant / 6250) (e.instant % 6250)

/-- Edge actions by their 20 ns step; at one step those of the earlier due instant come first, so that the later one stands, and at
equal instants the one accepted earlier (R123). -/
def sortEdges (l : List DoEdge) : List DoEdge :=
  l.foldr (fun e acc => (acc.takeWhile fun q => q.tick * 6250 + q.offset < e.tick * 6250 + e.offset) ++
    e :: acc.dropWhile fun q => q.tick * 6250 + q.offset < e.tick * 6250 + e.offset) []

/-- FX at a base-tick boundary: resets of LOCKED outputs, ends of stop overrides, level values that have changed, then the edge
actions of the tick (R437 to R439, R442). -/
def fieldOutputs (s : State) : State :=
  let s := forNums 32 s fun s o =>
    let x := s.dout o
    let s := if x.resetDue then releaseOut (s.setDout o { x with resetDue := false, consec := 0 }) o else s
    let x := s.dout o
    s.setDout o (if x.stopOver && !doStopped s o then { x with stopOver := false } else x)
  let s := match s.field.levels with
    | none => s
    | some lv => (lv.zip (List.range 32)).foldl (fun (s : State) (p : Bool × Nat) =>
        let x := s.dout p.2
        let s' := s.setDout p.2 { x with lastVal := p.1, first := false,
                                         commanded := if p.1 ≠ x.lastVal || x.first then p.1 else x.commanded }
        s') { s with field := { s.field with levels := none } }
  let es := s.field.actions
  let s := { s with field := { s.field with actions := [] } }
  let s := switchAll s
  (sortEdges es).foldl applyDoEdge s

/-- A first value follows a change of owner or a return from a declared state (R437). -/
def freshLevels (s : State) : State :=
  { s with douts := mapVals (fun _ (x : DigOut) => { x with first := true }) s.douts }

/-- FX declares the field link failed after 3 base ticks without a good downlink frame (R442). -/
def linkLoss (s : State) : State :=
  if s.field.linkLost || (s.link (linkNum .axFx)).noGood < 3 then s
  else switchAll ({ s with field := { s.field with linkLost := true } }.bump 0x7000 7)

/-- FX leaves the declared states after 16 good frames (R442). -/
def linkRecover (s : State) : State :=
  if !s.field.linkLost || s.field.goodRun < 16 then s
  else switchAll (freshLevels { s with field := { s.field with linkLost := false } })

/-- The watchdog of FX switches every output off (R43, R443). -/
def fxWatchdogTrip (s : State) : State := switchAll { s with field := { s.field with watchdog := true } }

/-- A group type that was written takes effect at the next base-tick boundary, from which the debounce of its inputs restarts (R430). -/
def fieldTypes (s : State) : State :=
  if s.field.typesDue then
    forNums 8 { s with field := { s.field with typesDue := false } } fun s g =>
      let v := s.rn (0x7008 + g) 1
      let f := s.field
      if getAt 0 f.types g = v then s
      else { s with field := { f with types := setAt f.types g v, typeFrom := setAt f.typeFrom g s.clock.tick } }
  else s

/-- Field I/O at a base-tick boundary. -/
def fieldTick (s : State) : State := fieldOutputs (fieldInputs (fieldTypes s))

/-- The output status word (R451). READBACK follows the switch. -/
def doStatus (s : State) (o : Nat) : Nat :=
  let x := s.dout o
  let on : Bool := x.st = osOn
  let decl : Bool := s.field.linkLost || s.field.declared || x.expired
  x.st * 2 ^ 28 + b2n x.commanded * 2 ^ 27 + b2n on * 2 ^ 26 + b2n on * 2 ^ 25 + b2n (inrush s o) * 2 ^ 24 + x.lastFault * 2 ^ 22 +
    b2n x.openLoad * 2 ^ 21 + b2n x.holding * 2 ^ 20 + b2n decl * 2 ^ 19 + b2n x.stopOver * 2 ^ 18 + b2n x.lateEdge * 2 ^ 17 +
    min 255 x.consec * 2 ^ 8

/-- Whether OD 7300+o:01 and 05 to 07 are locked (R450). -/
def doLocked (s : State) (o : Nat) : Bool :=
  !((s.dout o).st = osOff || (s.dout o).st = osNoSupply || (s.dout o).st = osLocked)

/-- Bits of the inputs' logical levels and of the driven outputs (OD 7000:02 and 03). -/
def inputBits (s : State) : Nat := (List.range 64).foldl (fun n i => n + b2n (s.din i).cur * 2 ^ i) 0
def driveBits (s : State) : Nat := (List.range 32).foldl (fun n o => n + b2n ((s.dout o).st = osOn) * 2 ^ o) 0

end Sys2Proof.Machine
end

