-- ==== Sys2Proof/Machine/Recorder.lean ====
section
/-! DEFINITION. Recording (R453 to R486): records and their assembly, shedding, chunks with the delta stage, the two SSDs, and the
stream FIFOs. -/

namespace Sys2Proof.Machine

def abStreamTaken : Nat := 0x9001
def abSsdState : Nat := 0x9002
def abFifoSpace : Nat := 0x9003

def fifoIdx (f : Nat) : Nat := 0x9100 + f
def ssdIdx (d : Nat) : Nat := 0x9200 + d

/-! Stream FIFOs (R457 to R463). -/

/-- A program's and a trace's word without VALID and LOSS, which the FIFO owns (R457). -/
def wordPayload (w : Nat) : Nat := w % 2 ^ 64 + bits w 67 65 * 2 ^ 65 + bits w 71 69 * 2 ^ 69

/-- Words of the open packet in a bank, counted from its SOP; none where the last packet is complete. -/
def openWords (bank : List Nat) : Nat :=
  bank.foldl (fun n w => if bit w 65 then (if bit w 66 then 0 else 1) else if bit w 66 then 0 else if n = 0 then 0 else n + 1) 0

/-- Whether the fill bank is to be released (R461). -/
def swapDue (x : Fifo) (size cut : Nat) : Bool :=
  !x.fill.isEmpty &&
    (size ≤ x.fill.length || (x.fill.any fun w => bit w 66) || (cut ≠ 0 && cut ≤ openWords x.fill) || x.released || x.flush)

/-- The swap of one FAB clock (R461). -/
def swapBanks (s : State) (f : Nat) : State :=
  let x := s.fifo f
  if x.drain.isEmpty && swapDue x (s.rn (fifoIdx f) 3) (s.rn (fifoIdx f) 4) then
    (s.setFifo f { x with drain := x.fill, fill := [], released := x.inPacket, flush := false }).bump (fifoIdx f) 0x0A
  else s

/-- A producer's word (R460): dropped while the fill bank is full, with the rest of its packet; the first word accepted after a drop
carries LOSS. The flag says that the word was accepted. -/
def streamWrite (s : State) (f w : Nat) : State × Bool :=
  let x := s.fifo f
  let i := fifoIdx f
  let eop := bit w 66
  let inside := x.inPacket || bit w 65
  let x' := { x with inPacket := inside && !eop }
  if x.dropping then
    (swapBanks ((s.setFifo f { x' with dropping := !eop, lossDue := true }).bump i 7) f, false)
  else if s.rn i 3 ≤ x.fill.length then
    let s := (s.setFifo f { x' with dropping := inside && !eop, lossDue := true }).bump i 7
    (swapBanks (if inside then s.bump i 8 else s) f, false)
  else
    let w' := wordPayload w + 2 ^ 64 + b2n x.lossDue * 2 ^ 68
    (swapBanks (s.setFifo f { x' with fill := x.fill ++ [w'], lossDue := false,
                                      fillAt := if x.fill.isEmpty then s.clock.tick else x.fillAt }) f, true)

/-- The oldest word of the fill bank has waited for the flush timeout, in base ticks (R461). -/
def streamFlush (s : State) (f : Nat) : State :=
  let x := s.fifo f
  if x.fill.isEmpty || s.clock.tick < x.fillAt + s.rn (fifoIdx f) 5 then s else swapBanks (s.setFifo f { x with flush := true }) f

/-- A word as it is recorded and read: tag in byte 0, then DATA (R457). -/
def wordBytes (w : Nat) : List Byte := leBytes 1 (w / 2 ^ 64) ++ leBytes 8 w

/-- A dictionary read of OD 9100+f:09 (R462). -/
def streamRead (s : State) (f : Nat) : List Byte × State :=
  let x := s.fifo f
  if x.drain.isEmpty then (List.replicate 9 0, s)
  else ((x.drain.take 512).flatMap wordBytes, swapBanks (s.setFifo f { x with drain := x.drain.drop 512 }) f)

/-- The trace that names a FIFO and streams into it (R242, R458). -/
def traceOfFifo (s : State) (f : Nat) : Option Nat :=
  (List.range 8).find? fun t => s.rn (0xF400 + t) 1 = 2 && s.rn (0xF400 + t) 0x0C = f && (s.trace t).st = 4

/-- Words that traces captured for streaming go to their FIFOs; those not accepted are counted (R242, R460). -/
def streamTraces (s : State) : State :=
  forNums 8 s fun s t =>
    let x := s.trace t
    if x.out.isEmpty then s
    else
      let s := s.setTrace t { x with out := [] }
      x.out.foldl (fun s w =>
        let r := streamWrite s (s.rn (0xF400 + t) 0x0C) w
        if r.2 then r.1 else r.1.bump (0xF400 + t) 0x0D) s

/-- Words that a consumer moves in one base tick: one per FAB clock of 800 MHz (R458). -/
def fabPerTick : Nat := 5000

/-- At most `n` words leave a FIFO's drain bank, which is swapped once it is empty. -/
def drainWords (s : State) (f n : Nat) : List Nat × State :=
  let x := s.fifo f
  (x.drain.take n, swapBanks (s.setFifo f { x with drain := x.drain.drop n }) f)

/-- The recorder drains its FIFOs once per base tick (R463): a bank, and what its swap releases within the tick. (DEDUCED,
notes/assumptions/145.md) -/
def drainFifos (s : State) : State :=
  s.fifos.foldl (fun s p =>
    if s.rn (fifoIdx p.1) 2 = 0 && !(s.fifo p.1).drain.isEmpty then
      let a := drainWords s p.1 fabPerTick
      let b := drainWords a.2 p.1 (fabPerTick - a.1.length)
      b.2.record 0x0F p.1 b.2.clock.tick 0 ((a.1 ++ b.1).flatMap wordBytes)
    else s) s

/-- Bytes of both banks of every FIFO, for FIFO_SPACE (R459); `f` with size `b`. -/
def fifoSpace (s : State) (f b : Nat) : Nat :=
  (List.range 256).foldl (fun n k => n + 2 * (if k = f then b else s.rn (fifoIdx k) 3)) 0

/-! SSD states of R476. -/
def sdAbsent : Nat := 0
def sdProbing : Nat := 1
def sdForeign : Nat := 2
def sdFormatting : Nat := 3
def sdActive : Nat := 4
def sdRemoving : Nat := 5
def sdReleased : Nat := 6
def sdFailed : Nat := 7

def ssdActive (s : State) (d : Nat) : Bool := (s.ssd d).st = sdActive

def anyActive (s : State) : Bool := ssdActive s 0 || ssdActive s 1

/-- A change of SSD state, with its MARK (R476). -/
def setSsdState (s : State) (d st : Nat) : State :=
  let x := s.ssd d
  (s.setSsd d { x with st := st }).mark 5 (leBytes 1 d ++ leBytes 1 st ++ leBytes 8 x.volume)

/-! Records (R454, R456). -/

def hasLen (cls : Nat) : Bool := cls = 2 || cls = 3 || cls = 0x0E || cls = 0x0F || cls = 0x3F

/-- KEY, LEN where the class has one, and the value. -/
def recBytes (r : RecItem) : List Byte :=
  leBytes 4 (r.cls * 2 ^ 26 + r.inst) ++ (if hasLen r.cls then leBytes 2 r.val.length else []) ++ r.val

/-- Order of R456 within a tick. -/
def recBefore (a b : RecItem) : Bool :=
  a.cls < b.cls || (a.cls = b.cls && (a.inst < b.inst || (a.inst = b.inst && a.off < b.off)))

/-- Insertion behind equal records. -/
def insertRec (r : RecItem) : List RecItem → List RecItem
  | [] => [r]
  | q :: t => if recBefore r q then r :: q :: t else q :: insertRec r t

def sortRecs (l : List RecItem) : List RecItem := l.foldl (fun acc r => insertRec r acc) []

/-- The delta stage of R464. -/
def deltaStage : List RecItem → List RecItem → List RecItem
  | _, [] => []
  | seen, r :: t =>
    let q := seen.find? fun q => q.cls = r.cls && q.inst = r.inst
    let v := match q with
      | some q => if q.val.length = r.val.length then List.zipWith (· ^^^ ·) r.val q.val else r.val
      | none => r.val
    { r with val := v } :: deltaStage (r :: seen) t

/-- The TICK record of the present boundary (R453). -/
def tickRecord (s : State) : List Byte :=
  leBytes 8 s.clock.tick ++ leBytes 12 (toTbtime s.tickTb.val) ++
    leBytes 4 ((List.range 8).foldl (fun n k => n + (s.lead k).st * 2 ^ (4 * k)) 0) ++
    (List.range 8).flatMap fun k => leBytes 8 (s.lead k).pos64

/-- Whether a class is decimated (R453). -/
def decimable (c : Nat) : Bool := (2 ≤ c && c ≤ 6) || c = 9

/-- Whether the recorder takes a record: TICK and MARK always, the others by mask, shedding and decimation. Counts the record of a
decimated class. -/
def takeRecord (s : State) (r : RecItem) : Bool × State :=
  if r.cls = 1 || r.cls = 0x3F then (true, s)
  else if !bit (s.rn 0x9000 3) r.cls || s.rcd.shed.contains r.cls then (false, s)
  else if decimable r.cls then
    let key := r.cls * 2 ^ 26 + r.inst
    let n := max 1 (s.rn 0x9008 r.cls)
    let k := getAt 0 s.rcd.decim key
    (k % n = 0, { s with rcd := { s.rcd with decim := setAt s.rcd.decim key ((k + 1) % n) } })
  else (true, s)

/-- A write of a decimation starts the count of every item of the class again (R453). -/
def restartDecimation (s : State) (c : Nat) : State :=
  { s with rcd := { s.rcd with decim := s.rcd.decim.filter fun p => p.1 / 2 ^ 26 ≠ c } }

/-! The buffer (R466 to R468). -/

def bufferSize : Nat := 2 ^ 31

/-- Bytes a chunk occupies in the buffer. -/
def Chunk.bytes (c : Chunk) : Nat := 64 + c.stored.length

/-- (DEDUCED, notes/assumptions/93.md) -/
def bufferUsed (s : State) : Nat := s.rcd.chunks.foldl (fun n c => n + c.bytes) s.rcd.rawLen

/-- Fill per mille (OD 9000:09). -/
def bufferFill (s : State) : Nat := bufferUsed s * 1000 / bufferSize

/-- Entries of a one-second window of bytes. (DESIGN CHOICE, notes/assumptions/96.md) -/
def meter (now : Nat) (l : List (Nat × Nat)) (n : Nat) : List (Nat × Nat) :=
  (now, n) :: l.filter fun p => now - p.1 < wallSec 1

def meterSum (now : Nat) (l : List (Nat × Nat)) : Nat := l.foldl (fun n p => if now - p.1 < wallSec 1 then n + p.2 else n) 0

/-- The next class to shed: the first in the order that is still taken (R467). -/
def nextShed (s : State) : Option Nat :=
  ((s.reg 0x9000 0x0C).octets.map (·.toNat)).find? fun c => c ≠ 0xFF && !s.rcd.shed.contains c

/-- One more class is shed, with its MARK (R467). -/
def shedOne (s : State) : State :=
  match nextShed s with
  | none => s
  | some c => ({ s with rcd := { s.rcd with shed := c :: s.rcd.shed } }.mark 2 (leBytes 1 c)).bump 0x9000 0x0F

/-- The most recently shed class is restored (R467). -/
def unshedOne (s : State) : State :=
  match s.rcd.shed with
  | [] => s
  | c :: t => { s with rcd := { s.rcd with shed := t } }.mark 3 (leBytes 1 c)

/-- The water marks as the fill crosses them, while an SSD is ACTIVE (R467); without one nothing is shed (R468). (DEDUCED,
notes/assumptions/146.md) -/
def waterMarks (s : State) : State :=
  if !anyActive s then
    let s := s.rcd.shed.foldl (fun s _ => unshedOne s) s
    { s with rcd := { s.rcd with above := false, below := false } }
  else
    let f := bufferFill s
    let hi : Bool := f ≥ s.rn 0x9000 0x0A
    let lo : Bool := f < s.rn 0x9000 0x0B
    let s1 := if hi && !s.rcd.above then shedOne s else if lo && !s.rcd.below then unshedOne s else s
    { s1 with rcd := { s1.rcd with
        above := hi, below := lo,
        waterAt := if (hi && !s.rcd.above) || (lo && !s.rcd.below) then s.clock.tick else s.rcd.waterAt } }

/-- Base ticks in 100 ms. -/
def shedTicks : Nat := 16000

/-- 100 ms after the last step, with the fill still at or above the high mark, or below the low mark (R467). -/
def shedTimer (s : State) : State :=
  if !anyActive s || s.clock.tick < s.rcd.waterAt + shedTicks then s
  else
    let s := { s with rcd := { s.rcd with waterAt := s.clock.tick } }
    if s.rcd.above && bufferFill s ≥ s.rn 0x9000 0x0A then shedOne s
    else if s.rcd.below && bufferFill s < s.rn 0x9000 0x0B then unshedOne s
    else s

/-- The state of OD 9000:02. -/
def recorderState (s : State) : Nat :=
  if s.rcd.sealed then 4
  else if s.rn 0x9000 1 = 0 || s.rcd.stopped || !s.serves 9 then 0
  else if !anyActive s then 2
  else if !s.rcd.shed.isEmpty then 3
  else 1

/-! Chunks (R464, R465, R471). -/

/-- Effort cap of a governor step (R528). -/
def effortCap (step : Nat) : Nat := if step = 0 then 3 else if step ≤ 2 then 1 else 0

def effortInForce (s : State) : Nat := min (s.rn 0x9000 7) (effortCap s.gov.step)

/-- The chunk header of R471. -/
def chunkHeader (c : Chunk) : List Byte :=
  let h := [0x4C, 0x48, 0x43, 0x4B] ++ leBytes 1 (b2n (c.effort ≠ 0)) ++ leBytes 1 c.effort ++ [1, 0] ++ leBytes 8 c.seq ++
    leBytes 8 c.first ++ leBytes 8 c.last ++ leBytes 4 c.raw.length ++ leBytes 4 c.stored.length ++
    leBytes 4 (crc32 c.raw).toNat ++ List.replicate 16 0
  h ++ leBytes 4 (crc32 (h ++ c.stored)).toNat

/-- Chunks on every ACTIVE SSD leave the buffer (R473). -/
def freeChunks (s : State) : State :=
  if !anyActive s then s
  else
    let done := fun (c : Chunk) => (!ssdActive s 0 || c.on0) && (!ssdActive s 1 || c.on1)
    { s with rcd := { s.rcd with chunks := s.rcd.chunks.filter fun c => !done c } }

/-- A GAP mark (R472), counted. -/
def markGap (s : State) (first last cause : Nat) : State :=
  (s.mark 1 (leBytes 8 first ++ leBytes 8 last ++ leBytes 1 cause)).bump 0x9000 0x0E

/-- The oldest chunks that must go so that a closed chunk has room (R468). -/
def crowded (room : Nat) : List Chunk → List Chunk
  | [] => []
  | c :: t => if (c :: t).foldl (fun n c => n + c.bytes) 0 ≤ room then [] else c :: crowded room t

/-- Without an ACTIVE SSD the oldest chunks go where a closed chunk has no room; one GAP covers their ticks (R468). -/
def makeRoom (s : State) (need : Nat) : State :=
  if anyActive s then s
  else
    let gone := crowded (bufferSize - need) s.rcd.chunks
    match gone.head?, gone.getLast? with
    | some c, some d => markGap { s with rcd := { s.rcd with chunks := s.rcd.chunks.drop gone.length } } c.first d.last 3
    | _, _ => s

/-- The open chunk is closed at an effort (R464, R465, R481). -/
def closeChunk (s : State) (effort : Nat) : State :=
  let r := s.rcd
  if r.recs.isEmpty then s
  else
    let raw := r.recs.flatMap recBytes
    let pre := (deltaStage [] r.recs).flatMap recBytes
    let c : Chunk := ⟨r.nextSeq, r.firstTick, r.lastTick, effort, raw, if effort = 0 then pre else Config.compress effort pre,
      false, false⟩
    let s := { s with rcd := { s.rcd with recs := [], rawLen := 0, nextSeq := r.nextSeq + 1 } }
    let s := makeRoom s c.bytes
    { s with rcd := { s.rcd with chunks := s.rcd.chunks ++ [c], output := meter s.clock.timClk s.rcd.output c.stored.length } }

/-- Whether the open chunk is to be closed after its last tick: 1,048,576 raw bytes, or the chunk close time (R464). -/
def chunkDue (s : State) : Bool :=
  1048576 ≤ s.rcd.rawLen || msPassed s s.rcd.openedAt (s.rn 0x9000 0x10)

/-- CHUNK_CLOSE, at the effort in force when the chunk was opened (R464, R465). -/
def chunkClose (s : State) : State := if chunkDue s then closeChunk s s.rcd.effort else s

/-- First 8 bytes of the digests of base configuration, overlay set and program image (R472). -/
def configMark (s : State) : List Byte :=
  leBytes 8 (digest8 s.lay.baseRaw) ++ leBytes 8 (digest8 s.lay.ovlRaw) ++ leBytes 8 (digest8 s.prog.activeRaw)

/-- A MARK CONFIG on every change of an active image (R472). -/
def noteConfig (old s : State) : State :=
  if old.lay.baseRaw ≠ s.lay.baseRaw || old.lay.ovlRaw ≠ s.lay.ovlRaw || old.prog.activeRaw ≠ s.prog.activeRaw then
    s.mark 7 (configMark s)
  else s

/-- Assembly of tick j at offset 3,000 ns of tick j+2 (R456), and the water marks (R467). A chunk takes the effort in force when
it is opened (R465); the first tick after a stop carries the GAP (R480, R481). (DEDUCED, notes/assumptions/147.md) -/
def assembleTick (s : State) : State :=
  let j := s.clock.tick - 2
  if s.clock.tick < 2 || s.rcd.assembled.any (fun a => j ≤ a) || s.rn 0x9000 1 = 0 || s.rcd.sealed || s.rcd.stopped ||
      !s.serves 9 || !s.cxUp then s
  else
    let s := if s.rcd.powerOn then
      let s := (s.mark 8 (leBytes 8 s.rcd.prevTick)).mark 7 (configMark s)
      { s with rcd := { s.rcd with powerOn := false } }
      else s
    let s := match s.rcd.gap with
      | some cause =>
        let s := if s.rcd.lastTick + 1 < j then markGap s (s.rcd.lastTick + 1) (j - 1) cause else s
        { s with rcd := { s.rcd with gap := none } }
      | none => s
    let fresh := s.rcd.recs.isEmpty
    let e := effortInForce s
    let s := if fresh && e ≠ s.rcd.effort then { s with rcd := { s.rcd with effort := e } }.mark 6 (leBytes 1 e) else s
    let mine := sortRecs ((s.rcd.waiting.filter fun r => r.tick = j).reverse ++
      s.rcd.marks.map fun m => ⟨0x3F, m.1, j, 0, m.2⟩)
    let s := { s with rcd := { s.rcd with waiting := s.rcd.waiting.filter fun r => j < r.tick, marks := [], assembled := some j } }
    let t := mine.foldl (fun (acc : State × List RecItem) r =>
      let k := takeRecord acc.1 r
      (k.2, if k.1 then r :: acc.2 else acc.2)) (s, [])
    let recs := t.2.reverse
    let s := t.1
    let n := recs.foldl (fun n r => n + (recBytes r).length) 0
    let r := s.rcd
    waterMarks { s with rcd := { r with recs := r.recs ++ recs, rawLen := r.rawLen + n,
                                        firstTick := if fresh then j else r.firstTick, lastTick := j,
                                        openedAt := if fresh then s.clock.tick else r.openedAt,
                                        intake := meter s.clock.timClk r.intake n } }

/-! SSDs (R469 to R479). -/

def segmentSize : Nat := 268435456

/-- Segments of a volume (R469). -/
def segCount (x : Ssd) : Nat := max 1 ((x.capacity - 8192) / segmentSize)

/-- Bytes a chunk takes on an SSD (R471). -/
def Chunk.onSsd (c : Chunk) : Nat := (64 + c.stored.length + 4095) / 4096 * 4096

/-- The superblock of R469. -/
def superblock (x : Ssd) (formatted : Nat) : List Byte :=
  let h := [0x4C, 0x49, 0x41, 0x52, 0x41, 0x48, 0x41, 0x4E] ++ leBytes 2 1 ++ leBytes 2 x.lba ++ leBytes 4 (segCount x) ++
    leBytes 8 x.volume ++ serialText ++ leBytes 12 (toTbtime formatted) ++ List.replicate 4040 0
  h ++ leBytes 4 (crc32 h).toNat

/-- The segment header of R470. -/
def segmentHeader (idx seq volume chunk tick : Nat) : List Byte :=
  let h := [0x4C, 0x48, 0x53, 0x47] ++ leBytes 4 idx ++ leBytes 8 seq ++ leBytes 8 volume ++ leBytes 8 chunk ++ leBytes 8 tick ++
    List.replicate 4052 0
  h ++ leBytes 4 (crc32 h).toNat

/-- The byte offset of a segment. -/
def segmentAt (idx : Nat) : Nat := 8192 + idx * segmentSize

/-- The span of the chunks that an SSD holds (R485). -/
def Ssd.withChunks (x : Ssd) (l : List (Nat × Nat × Nat × Nat)) : Ssd :=
  { x with chunks := l, oldest := (l.head?.map (·.2.1)).getD 0, newest := (l.getLast?.map (·.2.2.1)).getD 0 }

/-- A segment of SSD d is opened for a chunk: the rest of the one before it is written with zeros and flushed, its own older chunks are
overwritten (R470, R471, R473, R475). -/
def openSegment (s : State) (d : Nat) (c : Chunk) : State :=
  let x := s.ssd d
  let idx := if x.segSeq = 0 then x.segIdx else (x.segIdx + 1) % segCount x
  let s := if x.segSeq = 0 then s
    else (s.emit (.ssdZero d (segmentAt x.segIdx + x.segPos) (segmentSize - x.segPos))).emit (.ssdFlush d)
  let s := s.emit (.ssdWrite d (segmentAt idx) (segmentHeader idx (x.segSeq + 1) x.volume c.seq c.first))
  s.setSsd d { x.withChunks (x.chunks.filter fun k => k.2.2.2 ≠ idx) with segIdx := idx, segSeq := x.segSeq + 1, segPos := 4096 }

/-- A chunk is written to SSD d, in the open segment or in the next one (R470, R471, R473). -/
def putChunk (s : State) (d : Nat) (c : Chunk) : State :=
  let x := s.ssd d
  let s := if x.segSeq = 0 || x.segPos + c.onSsd > segmentSize then openSegment s d c else s
  let x := s.ssd d
  let bytes := chunkHeader c ++ c.stored
  let s := s.emit (.ssdWrite d (segmentAt x.segIdx + x.segPos) (bytes ++ List.replicate (c.onSsd - bytes.length) 0))
  s.setSsd d { x.withChunks (x.chunks ++ [(c.seq, c.first, c.last, x.segIdx)]) with
    segPos := x.segPos + c.onSsd, drain := meter s.clock.timClk x.drain c.onSsd, fails := 0 }

/-- Whether a chunk is on SSD d, and the chunk marked as on it. -/
def Chunk.on (c : Chunk) (d : Nat) : Bool := if d = 0 then c.on0 else c.on1
def Chunk.setOn (c : Chunk) (d : Nat) : Chunk := if d = 0 then { c with on0 := true } else { c with on1 := true }

/-- A REMOVING SSD is flushed and RELEASED (R476, R478). -/
def ssdRelease (s : State) (d : Nat) : State := setSsdState (s.emit (.ssdFlush d)) d sdReleased

/-- SSD d has written the next buffered chunk (R473); a REMOVING one is then RELEASED (R478), and at a SEAL the last one is followed by
a Flush (R475, R481). -/
def chunkWritten (s : State) (d : Nat) : State :=
  let x := s.ssd d
  if x.st ≠ sdActive && x.st ≠ sdRemoving then s
  else
    let s := match s.rcd.chunks.find? fun c => !c.on d with
      | none => s
      | some c =>
        let s := putChunk s d c
        let s := s.countBy (ssdIdx d) 9 64 c.onSsd
        { s with rcd := { s.rcd with chunks := s.rcd.chunks.map fun q => if q.seq = c.seq then q.setOn d else q } }
    let s := if x.st = sdRemoving then ssdRelease s d else s
    let s := if s.rcd.sealed && s.rcd.chunks.all (fun c => c.on d) then s.emit (.ssdFlush d) else s
    freeChunks s

/-- An SSD link comes up (R476); what Identify will report is the device's own. (DEDUCED, notes/assumptions/95.md) -/
def ssdUp (s : State) (d link : Nat) : State :=
  let x := s.ssd d
  if x.st ≠ sdAbsent then s
  else
    let f := s.free
    let x := { Ssd.init with link := link, capacity := f.1 % 2 ^ 64, wear := f.1 / 2 ^ 64 % 256,
                             lba := if f.1 / 2 ^ 72 % 2 = 0 then 512 else 4096, model := Config.freeBytes s.freeCtr }
    setSsdState (f.2.setSsd d x) d sdProbing

/-- Probing ends (R474, R476). -/
def ssdProbed (s : State) (d : Nat) (r : ProbeResult) : State :=
  let x := s.ssd d
  if x.st ≠ sdProbing then s
  else
    match r with
    | .own vol idx seq pos chunks =>
      let x := { x with volume := vol.toNat, segIdx := idx, segSeq := seq, segPos := pos }.withChunks chunks
      let last := chunks.foldl (fun n c => max n c.1) 0
      let held := fun (c : Chunk) => chunks.any fun k => k.1 = c.seq
      let s := { s with rcd := { s.rcd with nextSeq := max s.rcd.nextSeq (last + 1), prevTick := max s.rcd.prevTick x.newest,
                                            chunks := s.rcd.chunks.map fun c => if held c then c.setOn d else c } }
      setSsdState (s.setSsd d x) d sdActive
    | .foreignVolume => setSsdState s d sdForeign
    | .unusable => setSsdState s d sdForeign
    | .noSuperblock => if s.rn 0x9000 0x11 = 1 then setSsdState s d sdFormatting else setSsdState s d sdForeign

/-- Formatting ends: a new volume, with both copies of its superblock (R469, R476). -/
def ssdFormatted (s : State) (d : Nat) : State :=
  let x := s.ssd d
  if x.st ≠ sdFormatting then s
  else
    let f := s.free
    let s := f.2
    let x := { x with volume := f.1 % 2 ^ 64, segIdx := 0, segSeq := 0, segPos := 0, fails := 0 }.withChunks []
    let b := superblock x (s.tb 7).val
    setSsdState (((s.setSsd d x).emit (.ssdWrite d 0 b)).emit (.ssdWrite d 4096 b)) d sdActive

/-- A link loss without PREPARE_REMOVE (R479), and the removal of a RELEASED SSD. -/
def ssdLost (s : State) (d : Nat) : State :=
  if (s.ssd d).st = sdAbsent then s
  else
    let s := setSsdState s d sdAbsent
    let s := s.setSsd d { Ssd.init with st := sdAbsent }
    let s := { s with rcd := { s.rcd with chunks := s.rcd.chunks.map fun q => if d = 0 then { q with on0 := false } else { q with on1 := false } } }
    freeChunks s

/-- A failed write of the chunk in hand, the third of which makes the SSD FAILED, or a SMART critical warning, which does so at once
(R476). -/
def ssdFailed (s : State) (d : Nat) (smart : Bool) : State :=
  let x := s.ssd d
  if x.st ≠ sdActive && x.st ≠ sdRemoving then s
  else if smart then freeChunks (setSsdState s d sdFailed)
  else
    let s := (s.setSsd d { x with fails := x.fails + 1 }).bump (ssdIdx d) 0x0A
    if x.fails + 1 ≥ 3 then freeChunks (setSsdState s d sdFailed) else s

/-- SSD_STATE of a command of OD 9200+d:02 (R478, R485). -/
def ssdCommandAbort (s : State) (d cmd : Nat) : Nat :=
  let st := (s.ssd d).st
  let ok : Bool := match cmd with
    | 1 => st = sdActive && ssdActive s (1 - d)
    | 2 => st = sdForeign || st = sdFailed
    | _ => st = sdReleased
  if ok then abOk else abSsdState

/-- A command of OD 9200+d:02. -/
def ssdCommand (s : State) (d cmd : Nat) : State :=
  match cmd with
  | 1 =>
    let s := setSsdState s d sdRemoving
    if s.rcd.chunks.any fun c => !c.on d then s else ssdRelease s d
  | 2 => setSsdState s d sdFormatting
  | _ => setSsdState s d sdProbing

/-- PFW_N low (R481): the open chunk is closed at effort 0 with a MARK SEAL, and assembly stops. -/
def sealRecorder (s : State) : State :=
  if s.rcd.sealed then s
  else
    let j := s.rcd.lastTick
    let r := s.rcd
    let s := { s with rcd := { r with recs := r.recs ++ [⟨0x3F, 4, j, 0, [1]⟩], sealed := true,
                                      firstTick := if r.recs.isEmpty then j else r.firstTick } }
    closeChunk s 0

/-- PFW_N returns high before the supply fails (R481): a GAP of cause 2 follows. -/
def unsealRecorder (s : State) : State :=
  if !s.rcd.sealed then s
  else
    { s with rcd := { s.rcd with sealed := false, gap := some 2 } }

/-- The recorder at the start of a CX warm restart, and on its return (R480). -/
def stopRecorder (s : State) : State :=
  let s := s.fifos.foldl (fun s p =>
    let x := s.fifo p.1
    (s.setFifo p.1 { Fifo.init with lossDue := true }).countBy (fifoIdx p.1) 7 32 (x.fill.length + x.drain.length)) s
  { s with rcd := { s.rcd with stopped := true } }

def resumeRecorder (s : State) : State :=
  if !s.rcd.stopped then s
  else
    let s := closeChunk s s.rcd.effort
    { s with rcd := { s.rcd with stopped := false, waiting := [], gap := some 1 } }

/-- Bytes of closed chunks not on every ACTIVE SSD (OD 9000:13), and the oldest tick held on every ACTIVE SSD (OD 9000:12). -/
def backlog (s : State) : Nat :=
  s.rcd.chunks.foldl (fun n c => if (!ssdActive s 0 || c.on0) && (!ssdActive s 1 || c.on1) && anyActive s then n
    else n + c.stored.length) 0

def oldestTick (s : State) : Nat :=
  max (if ssdActive s 0 then (s.ssd 0).oldest else 0) (if ssdActive s 1 then (s.ssd 1).oldest else 0)

/-! The boundary records (R453, R455). -/

/-- Records of a base-tick boundary: TICK, encoders, changed DI and DO levels, AOUT and PWM changes, Lead and Rein events; `old`
is the state before the boundary. (DEDUCED, notes/assumptions/94.md) -/
def recordBoundary (old s : State) : State :=
  let t := s.clock.tick
  let s := s.record 1 0 t 0 (tickRecord s)
  let s := forNums 16 s fun s e =>
    if s.rn (encIdx e) 1 = 0 then s
    else s.record 9 e t 0 (leBytes 8 (ofSigned 64 (s.enc e).atTick) ++ leBytes 2 (encStatus s e))
  let s := if inputBits s ≠ inputBits old then s.record 0x0B 0 (t - 1) 0 (leBytes 8 (inputBits s)) else s
  let cmd := fun (u : State) => (List.range 32).foldl (fun n o => n + b2n (u.dout o).commanded * 2 ^ o) 0
  let s := if driveBits s ≠ driveBits old || cmd s ≠ cmd old then s.record 0x0D 0 t 0 (leBytes 4 (driveBits s) ++ leBytes 4 (cmd s))
    else s
  let s := forNums 16 s fun s o =>
    if (s.aout o).code ≠ (old.aout o).code || aoutStatus s o ≠ aoutStatus old o then
      s.record 7 o t 0 (leBytes 2 (ofSigned 16 (s.aout o).code) ++ leBytes 1 (aoutStatus s o))
    else s
  let s := forNums 96 s fun s c =>
    if (s.pwm c).duty ≠ (old.pwm c).duty then s.record 8 c t 0 (leBytes 2 (ofSigned 16 (s.pwm c).duty)) else s
  forNums 8 s fun s n =>
    let a := s.lead n
    let b := old.lead n
    if a.st ≠ b.st || a.reversed ≠ b.reversed || a.jumped ≠ b.jumped then s.event 1 n (leBytes 4 (leadStatus s n)) else s

/-- EVENT records of state changes of a channel, an axis and a station between two states. -/
def recordChanEvent (old s : State) (n : Nat) : State :=
  if (s.chan n).st ≠ (old.chan n).st then s.event 3 n (leBytes 4 (chanStatus s n)) else s

def recordAxisEvent (old s : State) (n : Nat) : State :=
  if (s.axis n).st ≠ (old.axis n).st then s.event 4 n (leBytes 4 (axisStatus s n)) else s

def recordStationEvent (old s : State) (a : Nat) : State :=
  if (s.station a).st ≠ (old.station a).st then s.event 5 a (leBytes 1 (s.station a).st) else s

end Sys2Proof.Machine
end

