-- ==== Sys2Proof/Machine/Uplink.lean ====
section
/-! DEFINITION. The Azarn frame header (R137), the uplinks with their egress queues, gates and PRP (R200 to R202), and what Henvy sends
(R203, R205). -/

namespace Sys2Proof.Machine

/-- n bytes of a number in network byte order (R12). -/
def beBytes (n w : Nat) : List Byte := (leBytes n w).reverse

/-- The 16-byte frame header; ROLL is sent as 0 (R137, R150). -/
def frameHeader (typ : Nat) (e : Engine) (last split close : Bool) (idx k len cycle base count : Nat) : List Byte :=
  leBytes 1 (0x10 + typ) ++
  leBytes 1 ((if e = .nb then 1 else 0) + b2n last * 2 + b2n split * 4 + b2n close * 8) ++
  leBytes 1 (idx + 16 * k) ++ [0] ++ leBytes 2 len ++ leBytes 2 0 ++ leBytes 4 cycle ++ leBytes 2 base ++ leBytes 2 count

def setBit (w n : Nat) (b : Bool) : Nat := w - b2n (bit w n) * 2 ^ n + b2n b * 2 ^ n

/-! Egress (R200, R201). Instants are in 0.2 ns: 4 for one byte at 10 Gbit/s, 31,250 for a base tick. -/

def tickWire : Nat := 31250

/-- The gate cycle of 20 base ticks. -/
def gateCycle : Nat := 20 * tickWire

/-- What a frame takes on the wire, with its preamble and its gap. -/
def wireTime (len : Nat) : Nat := (len + 20) * 4

/-- Whether frame preemption is on at uplink u (R200). -/
def preempts (s : State) (u : Nat) : Bool := bit (s.rn 0x3080 4) u

/-- The further gate entries of uplink u. -/
def gatesOf (s : State) (u : Nat) : List Gate := ((s.lay.base.map (·.gates)).getD []).filter fun g => g.uplink = u

/-- Whether a frame of a priority may start at an instant of the gate cycle: priorities 6 and 7 always, as far as the further entries go;
the others outside the reserved window and, without preemption, not within the guard band before it (R201). -/
def gateOpen (s : State) (u prio pos : Nat) : Bool :=
  (6 ≤ prio || (5 * s.rn 0x3080 3 ≤ pos && (preempts s u || pos < gateCycle - 6168))) &&
    (gatesOf s u).all fun g => !(5 * g.start ≤ pos && pos < 5 * (g.start + g.len)) || bit g.opened.toNat prio

/-- The next instant at which a gate of uplink u may change. -/
def nextGate (s : State) (u pos : Nat) : Nat :=
  ([5 * s.rn 0x3080 3, gateCycle - 6168] ++ (gatesOf s u).flatMap fun (g : Gate) => [5 * g.start, 5 * (g.start + g.len)]).foldl
    (fun m e => if pos < e && e < m then e else m) gateCycle

/-- A further gate entry that closes priority 7 during the reserved window, or lies outside the cycle (R201). -/
def gateBad (window : Nat) (g : Gate) : Bool :=
  (g.start < window && 0 < g.len && !bit g.opened.toNat 7) || 125000 < g.start + g.len

/-- The first frame of the highest priority whose gate is open. -/
def bestFrame (s : State) (u pos : Nat) (q : List UpFrame) : Option UpFrame :=
  (q.filter fun f => gateOpen s u f.prio pos).foldl (fun (m : Option UpFrame) f =>
    match m with
    | none => some f
    | some g => if g.prio < f.prio then some f else m) none

/-- What uplink u sends within a base tick (R200, R201): strict priority between the open queues; with preemption a frame of priority 0 to
5 gives way to an express frame, and to the window, at a fragment boundary. -/
def egress (s : State) (u phase : Nat) : Nat → Uplink → List (Nat × UpFrame) → Uplink × List (Nat × UpFrame)
  | 0, x, out => (x, out)
  | n + 1, x, out =>
    if tickWire ≤ x.wire || (x.queue.isEmpty && x.part.isNone) then (x, out)
    else
      let pos := phase * tickWire + x.wire
      let wait := { x with wire := x.wire + (nextGate s u pos - pos) }
      let start := fun (f : UpFrame) =>
        let x := { x with queue := x.queue.erase f }
        if 6 ≤ f.prio || !preempts s u then egress s u phase n { x with wire := x.wire + wireTime f.len } ((x.wire, f) :: out)
        else egress s u phase n { x with part := some (f, f.len) } ((x.wire, f) :: out)
      let best := bestFrame s u pos x.queue
      match x.part with
      | none =>
        match best with
        | some f => start f
        | none => egress s u phase n wait out
      | some (f, rest) =>
        match best.filter fun g => 6 ≤ g.prio with
        | some g => start g
        | none =>
          if !gateOpen s u f.prio pos then egress s u phase n wait out
          else
            let room := (min (tickWire - x.wire) (nextGate s u pos - pos) / 4 / 64 + 1) * 64
            if rest ≤ room then egress s u phase n { x with part := none, wire := x.wire + wireTime rest } out
            else egress s u phase n { x with part := some (f, rest - room), wire := x.wire + room * 4 } out

/-- Both uplinks during the base tick that begins (R200); they are in CX. -/
def egressTick (s : State) : State :=
  if !s.cxUp then s
  else forNums 2 s fun s u =>
    let r := egress s u (s.clock.tick % 20) 200 (s.uplink u) []
    let s := s.setUplink u { r.1 with wire := r.1.wire - tickWire }
    r.2.reverse.foldl (fun s p => s.emit (.uplink u s.clock.tick p.1 p.2)) s

/-- A frame joins the queue of its priority on both uplinks (R200, R202). Its length is a free value. (DESIGN CHOICE,
notes/assumptions/131.md) -/
def upSend (s : State) (prio : Nat) (head : Nat → List Byte) (msg : UpMsg) : State :=
  let f := s.free
  let s := { f.2 with prp := { f.2.prp with seq := (f.2.prp.seq + 1) % 65536 } }
  let frame := fun (u : Nat) => (⟨prio, head u, 64 + f.1 % 1459, msg⟩ : UpFrame)
  forNums 2 s fun s u => s.setUplink u { s.uplink u with queue := (s.uplink u).queue ++ [frame u] }

/-- A Henvy frame (R203): source address, IEEE 802.1Q tag, EtherType, header of type 0x8, and byte 16. -/
def henvyHead (s : State) (prio code u : Nat) : List Byte :=
  beBytes 6 (Config.portAddress (8 + u)).toNat ++ beBytes 2 0x8100 ++ beBytes 2 (prio * 8192 + s.rn 0x3080 6) ++
    beBytes 2 (s.rn 0x3000 1) ++ frameHeader 8 .na false false false 0 0 0 (s.rn 0x2000 5) 0 0 ++ leBytes 1 code

/-- Whether a frame that came in is to be taken: without PRP every one, with PRP the first copy of each (R200, R202). The node
table holds 1,024 nodes for 60 s, an entry lasts 400 ms; the node heard longest ago makes room. (DESIGN CHOICE,
notes/assumptions/132.md) -/
def firstCopy (s : State) (a : Arrival) : Bool × State :=
  let now := s.clock.timClk
  let s := s.setUplink a.uplink.val { s.uplink a.uplink.val with lastRx := now }
  if s.rn 0x3080 1 = 0 then (true, s)
  else
    let id := a.node.toNat
    let nodes := ((id, now) :: s.prp.nodes.filter fun q => q.1 ≠ id && now < q.2 + wallSec 60).take 1024
    let seen := s.prp.seen.filter fun q => now < q.2.2 + wallSec 1 * 2 / 5 && nodes.any fun m => m.1 = q.1
    let dup := seen.any fun q => q.1 = id && q.2.1 = a.seq.toNat
    (!dup, { s with prp := { s.prp with nodes := nodes, seen := if dup then seen else (id, a.seq.toNat, now) :: seen } })

/-- A PRP supervision frame on both uplinks, every 2 s (R200). -/
def prpSupervision (s : State) : State :=
  if s.rn 0x3080 1 = 0 || !s.cxUp then s else upSend s 0 (fun u => beBytes 6 (Config.portAddress (8 + u)).toNat) .supervision

/-- A PRP path without a frame for 3 supervision intervals is reported down; frames on it report it up again (R202). -/
def prpPath (s : State) (path : Nat) (up : Bool) : State :=
  if s.rn 0x3080 1 = 0 then s
  else if up then
    (s.setUplink path { s.uplink path with lastRx := s.clock.timClk }).setNum 0x3080 5 (setBit (s.rn 0x3080 5) path true)
  else if s.elapsed (s.uplink path).lastRx (wallSec 6) then s.setNum 0x3080 5 (setBit (s.rn 0x3080 5) path false)
  else s

/-- The 802.3br verify protocol with the partner of uplink u ends (R200). -/
def preemptionVerified (s : State) (u : Nat) (ok : Bool) : State := s.setNum 0x3080 4 (setBit (s.rn 0x3080 4) u ok)

/-! What Henvy sends (R47, R203, R205). -/

def hvOff : Nat := 0
def hvCandidate : Nat := 1
def hvJoined : Nat := 2
def hvRefusedNumber : Nat := 3
def hvRefusedDomain : Nat := 4

def henvyState (s : State) : Nat := s.rn 0x3080 8
def setHenvy (s : State) (st : Nat) : State := s.setNum 0x3080 8 st

/-- The PTP domains of TB0 to TB7. -/
def ownDomains (s : State) : List Nat := (List.range 8).map fun n => s.rn (0x2010 + n) 2

/-- The MEMBER message of this module; its digest is that of the active base configuration. -/
def sendMember (s : State) : State :=
  let st := henvyState s
  if st = hvOff then s
  else upSend s 5 (henvyHead s 5 1) (.member s.henvy.number (digest8 s.lay.baseRaw) (ownDomains s) (st = hvCandidate)
    (st = hvRefusedNumber || st = hvRefusedDomain))

/-- STOP, on every change of the stop objects and every 1 ms (R203). -/
def henvyStopSend (s : State) : State :=
  if henvyState s ≠ hvJoined then s
  else
    let s := { s with henvy := { s.henvy with stopSeq := s.henvy.stopSeq + 1 } }
    upSend s 7 (henvyHead s 7 3) (.stop (s.rn 0x3018 2) s.henvy.stopSeq)

/-- LEAD_SAMPLE of every Lead that this module owns, once per line cycle (R203). -/
def henvyLeads (s : State) : State :=
  if henvyState s ≠ hvJoined then s
  else forNums 8 s fun s n =>
    let src := leadSource s n
    let l := s.lead n
    if src = 0 || src = 4 then s
    else upSend s 6 (henvyHead s 6 2) (.leadSample n l.pos64 (ofSigned 64 l.vel) l.st (toTbtime s.now))

end Sys2Proof.Machine
end

