-- ==== Sys2Proof/Machine/Bus.lean ====
section
/-! DEFINITION. The Azarn line bus (chapter 4): the Rein field and the stop objects (R144 to R149), slot layout and budget (R141,
R153), frames and trains (R133 to R143), discovery and configuration (R155 to R158), delay measurement (R160), and the station
states (R167 to R170). -/

namespace Sys2Proof.Machine

def ringIdx (k : Nat) : Nat := 0x3010 + k
def stIdx (a : Nat) : Nat := 0x3800 + a
def objIdx (o : Nat) : Nat := 0x3020 + o

/-! Ring and station states (R157, R167). -/

def rgIdle : Nat := 0
def rgDiscovering : Nat := 1
def rgStarting : Nat := 2
def rgRunning : Nat := 3
def rgBudgetFail : Nat := 4
def rgTopology : Nat := 5

def stAbsent : Nat := 0
def stMismatch : Nat := 1
def stConfiguring : Nat := 2
def stResync : Nat := 3
def stLost : Nat := 5

/-- ACTIVE and SILENT of R176. -/
def egActive : Nat := 1
def egSilent : Nat := 2

def engActive (s : State) (e : Engine) : Bool := (s.eng e).st = egActive

/-- Whether engine e runs trains on ring k: not on one that a rejoined engine has still to heal (R187). -/
def engOnRing (s : State) (e : Engine) (k : Nat) : Bool := engActive s e && !((s.ring k).joining && e ≠ (s.ring k).cmd)

/-! Stop objects and pins (R145, R146). -/

/-- A Rein bit has changed: a REIN frame is due (R147); a bit that was set makes every coast record start its stop at the next boundary
(R196). -/
def reinChanged (s : State) (set : Bool) : State :=
  let s := forNums 8 s fun s t => if s.rn (0xF400 + t) 2 = 4 then triggerTrace s t else s
  { s with rein := { s.rein with changed := true },
           coast := { s.coast with stopAll := s.coast.stopAll || (set && s.coast.active) } }

/-- Stop objects are set with a cause; an object already set keeps its last cause (R146). Henvy sends STOP on every change
(R203). (DEDUCED, notes/assumptions/39.md) -/
def setObjects (s : State) (mask cause : Nat) : State :=
  let cur := s.rn 0x3018 2
  let new := cur ||| mask % 2 ^ 64
  if new = cur then s
  else
    let s := forNums 64 s fun s o => if bit mask o && !bit cur o then s.setNum (objIdx o) 2 cause else s
    henvyStopSend (reinChanged (s.setNum 0x3018 2 new) true)

/-- Bit o of a stop object's station input source in the latest good input copy (R146, R174). -/
def objectSource (s : State) (o : Nat) : Bool :=
  let src := s.rn (objIdx o) 1
  src ≠ 0xFFFFFFFF &&
    (let b := bits src 15 0
     bit ((slice (s.station (bits src 31 16 % 2048)).latest (b / 8) 1).headD 0).toNat (b % 8))

/-- A write of OD 3018:04 clears the objects named whose source reads 0 (R146). -/
def resetObjects (s : State) (mask : Nat) : State :=
  let cur := s.rn 0x3018 2
  let keep := (List.range 64).foldl (fun n o =>
    if bit cur o && (!bit mask o || objectSource s o) then n + 2 ^ o else n) 0
  if keep = cur then s else henvyStopSend (reinChanged (s.setNum 0x3018 2 keep) false)

/-- Stop objects fed by the inputs of station a are evaluated (R146). -/
def evalObjects (s : State) (a : Nat) : State :=
  let mask := (List.range 64).foldl (fun n o =>
    let src := s.rn (objIdx o) 1
    if src ≠ 0xFFFFFFFF && bits src 31 16 = a && objectSource s o then n + 2 ^ o else n) 0
  setObjects s mask 1

/-- A stop pin's level is counted (R145). -/
def pinChange (s : State) (pin : Nat) (demand : Bool) : State :=
  let set := fun (p : Nat) => p - b2n (bit p pin) * 2 ^ pin + b2n demand * 2 ^ pin
  let p := set s.rein.pins
  let s' := { s with rein := { s.rein with pins := p, pinsAx := set s.rein.pinsAx } }
  if p = s.rein.pins then s' else reinChanged s' demand

/-- The Rein field that engine e starts on ring k, and the state with its REIN_SEQ counted (R144). -/
def reinField (s : State) (e : Engine) (k : Nat) : List Byte × State :=
  let x := s.eng e
  let q := (getAt 0 x.reinSeq k + 1) % 256
  let b := leBytes 2 s.rein.pins ++ leBytes 8 (s.rn 0x3018 2) ++ leBytes 1 q ++ [0]
  (b ++ leBytes 4 (crc32 b).toNat,
    (s.setEng e { x with reinSeq := setAt x.reinSeq k q }).setNum 0x3018 1 s.rein.pins)

/-! Rings, slots and budget (R130, R140, R141, R153). -/

def ringN (s : State) (k : Nat) : Nat := s.rn (ringIdx k) 2

def stDeclared (s : State) (a : Nat) : Bool := s.rn (stIdx a) 1 = 1

/-- Declared stations of ring k in position order. -/
def ringStations (s : State) (k : Nat) : List Nat :=
  ((List.range (ringN s k)).map (512 * k + ·)).filter (stDeclared s)

def slotSize (s : State) (a : Nat) : Nat := 8 + s.rn (stIdx a) 5 + s.rn (stIdx a) 6 + s.rn (stIdx a) 7

/-- Bytes after the frame header that a frame holds; frame 0 begins with the train header (R141). -/
def frameSpace : Nat := 1484
def trainHeaderLen : Nat := 172

/-- Slots placed in position order as (station, frame, offset after the frame header) (R141). -/
def placeSlots : List (Nat × Nat) → Nat → Nat → List (Nat × Nat × Nat)
  | [], _, _ => []
  | (a, z) :: t, f, u =>
    if u + z ≤ frameSpace then (a, f, u) :: placeSlots t f (u + z)
    else (a, f + 1, 0) :: placeSlots t (f + 1) z

/-- The layout of a ring that starts, with its frame count. -/
def layoutRing (s : State) (k : Nat) : State :=
  let l := placeSlots ((ringStations s k).map fun a => (a, slotSize s a)) 0 trainHeaderLen
  let s := s.setRing k { s.ring k with layout := l, frames := l.foldl (fun n p => max n (p.2.1 + 1)) 1 }
  l.foldl (fun s p => s.setNum (stIdx p.1) 0x15 (p.2.1 * 65536 + p.2.2)) s

/-- The roll token of the station at a position (R150). -/
def rollToken (a : Nat) : Nat := (a % 512 + 1) * 40503 % 65536

/-- Times of the budget are in 1/80 ns, which holds 0.1 ns and 1/16 ns exactly. -/
def byteTime (s : State) (k : Nat) : Nat := if s.rn (ringIdx k) 1 = 0 then 640 else 256

/-- B_train (R153). -/
def trainBytes (s : State) (k : Nat) : Nat :=
  let r := s.ring k
  r.frames * 54 + 172 + r.layout.foldl (fun n p => n + slotSize s p.1) 0 + 168

/-- D: the measured delay, or D_est before the first measurement (R153). -/
def ringDelay (s : State) (k : Nat) : Nat :=
  match (s.ring k).tab with
  | some t => 5 * t
  | none =>
    let n := ringN s k
    20000 * n + 440 * ((List.range n).foldl (fun c p => c + s.rn (stIdx (512 * k + p)) 0x0E) (s.rn (ringIdx k) 0x0F))

/-- The sums of the cyclic, acyclic and split conditions (R153). -/
def cyclicSum (s : State) (k : Nat) : Nat := 64000 + trainBytes s k * byteTime s k + ringDelay s k + 52800
def acyclicSum (s : State) (k : Nat) : Nat := 64000 + trainBytes s k * byteTime s k + s.rn 0x3000 3 * byteTime s k
def splitSum (s : State) (k : Nat) : Nat := 64000 + trainBytes s k * byteTime s k + 2 * ringDelay s k + 52800

/-- L in 1/80 ns. -/
def cycleUnits (len : Nat) : Nat := len * 500000

/-- Whether the layout and the budget of ring k hold at a line-cycle length (R141, R153, R154). -/
def budgetHolds (s : State) (k len : Nat) : Bool :=
  (s.ring k).frames ≤ 16 && (s.ring k).layout.all (fun p => slotSize s p.1 ≤ 1476) &&
    cyclicSum s k ≤ cycleUnits len && acyclicSum s k ≤ cycleUnits len

/-- Whether every running ring keeps its budget at a line-cycle length (R87, R154). -/
def ringsHold (s : State) (len : Nat) : Bool :=
  (List.range 4).all fun k => (s.ring k).st ≠ rgRunning || budgetHolds s k len

/-- L minus a sum, in whole ns (R172). -/
def marginNs (s : State) (sum : Nat) : Int := ((cycleUnits s.lcLen : Int) - sum) / 80

/-- A layout that the rings can carry (R140, R141). -/
def layoutGood (s : State) (k : Nat) : Bool :=
  (s.ring k).frames ≤ 16 && (s.ring k).layout.all fun p => slotSize s p.1 ≤ 1476

/-! Frames (R131, R136 to R140, R147). -/

/-- Whether the frames of ring k carry SPLIT: the ring is SPLIT or SINGLE (R177); it stays SINGLE until a rejoined engine has healed it
(R187). -/
def splitFlag (s : State) (k : Nat) : Bool := (s.ring k).split || (s.ring k).joining || engActive s .na ≠ engActive s .nb

/-- The payload padded with 0 to a frame of 64 bytes. -/
def padFrame (b : List Byte) : List Byte := b ++ List.replicate (46 - b.length) 0

/-- The number of a field port among the ports of the module. -/
def portOf (e : Engine) (k : Nat) : Nat := if e = .na then k else 4 + k

/-- An Ethernet frame of engine e on ring k (R12, R131): the group address with k added to its last octet, the address of the port, the
EtherType, the payload, and the FCS. -/
def etherFrame (s : State) (e : Engine) (k : Nat) (payload : List Byte) : List Byte :=
  let g := s.rn 0x3000 2
  let b := beBytes 6 (g / 256 * 256 + (g + k) % 256) ++ beBytes 6 (Config.portAddress (portOf e k)).toNat ++ beBytes 2 (s.rn 0x3000 1) ++
    padFrame payload
  b ++ leBytes 4 (crc32 b).toNat

/-- Whether engine e sends acyclic frames on ring k: ACTIVE, or brought up for a rejoin that the ring has not healed yet (R187, R190). -/
def engSends (s : State) (e : Engine) (k : Nat) : Bool := engActive s e || ((s.eng e).broughtUp && (s.ring k).joining)

/-- The end of the present train of ring k, in 1/80 ns after the boundary at which it started (R153). -/
def trainEnd (s : State) (k : Nat) : Nat := if (s.ring k).st = rgRunning then 64000 + trainBytes s k * byteTime s k else 0

/-- 1/80 ns from the last line-cycle boundary to the present base tick. -/
def sinceLc (s : State) : Nat := match s.clock.lcDone with
  | some t => (s.clock.tick - t) * 500000
  | none => 0

/-- Whether the present train of ring k ends before the present base tick does. (DEDUCED, notes/assumptions/133.md) -/
def trainOver (s : State) (k : Nat) : Bool := trainEnd s k ≤ sinceLc s + 500000

/-- What a frame with a payload takes on the wire: header, FCS, preamble and gap with it. -/
def wireBytes (payload : Nat) : Nat := max 46 payload + 38

def useAcyclic (s : State) (e : Engine) (k n : Nat) : State :=
  let x := s.eng e
  s.setEng e { x with acUsed := setAt x.acUsed k (getAt 0 x.acUsed k + n) }

/-- A REIN frame of engine e on ring k (R138, R147); outside a train it counts against the acyclic reserve. (DEDUCED,
notes/assumptions/38.md) -/
def sendRein (s : State) (e : Engine) (k : Nat) : State :=
  let q := reinField s e k
  let head := frameHeader 2 e false (splitFlag s k) false 0 k 16 (s.rn 0x2000 5) 0 0
  let s := (q.2.emit (.frame e k (etherFrame q.2 e k (head ++ q.1)))).bump 0x3018 5
  if trainOver s k then useAcyclic s e k (wireBytes 32) else s

/-- Every engine sends a REIN frame on every running ring: at once, at most twice within a train, and any later change of that train after
its last frame (R147). -/
def reinFrames (s : State) : State :=
  if !s.rein.changed then s
  else
    let s := { s with rein := { s.rein with changed := false } }
    [Engine.na, Engine.nb].foldl (fun s e => forNums 4 s fun s k =>
      let x := s.eng e
      let n := getAt 0 x.reinSent k
      if !engOnRing s e k || (s.ring k).st ≠ rgRunning then s
      else if trainOver s k then sendRein s e k
      else if n < 2 then sendRein (s.setEng e { x with reinSent := setAt x.reinSent k (n + 1) }) e k
      else s.setEng e { x with reinWait := setAt x.reinWait k true }) s

/-- Whether an acyclic frame may start now (R136): it keeps to the reserve, and ends before offset 800 ns of the next boundary. -/
def acFits (s : State) (e : Engine) (k : Nat) (f : AcFrame) : Bool :=
  let used := getAt 0 (s.eng e).acUsed k
  let n := wireBytes (16 + f.body.length)
  used + n ≤ s.rn 0x3000 3 &&
    max (trainEnd s k + used * byteTime s k) (sinceLc s) + n * byteTime s k ≤ cycleUnits s.lcLen + 64000

/-- An acyclic frame leaves. CYCLE is the count of the line cycle in which it is sent. (DESIGN CHOICE, notes/assumptions/134.md) -/
def sendAc (s : State) (e : Engine) (k : Nat) (f : AcFrame) : State :=
  let head := frameHeader f.typ e false (splitFlag s k) f.close 0 k f.body.length (f.no.getD (s.rn 0x2000 5)) f.base f.count
  (useAcyclic s e k (wireBytes (16 + f.body.length))).emit (.frame e k (etherFrame s e k (head ++ f.body)))

/-- The waiting frames leave in order as far as they fit. -/
def acLoop (e : Engine) (k : Nat) : List AcFrame → State → State
  | [], s => s.setEng e { s.eng e with acWait := setAt (s.eng e).acWait k [] }
  | f :: t, s =>
    if acFits s e k f then acLoop e k t (sendAc s e k f)
    else s.setEng e { s.eng e with acWait := setAt (s.eng e).acWait k (f :: t) }

/-- The acyclic part of engine e on ring k as far as it has come: a deferred REIN frame, then the frames that wait (R136, R147). -/
def drainAc (s : State) (e : Engine) (k : Nat) : State :=
  if !trainOver s k || !engSends s e k then s
  else
    let x := s.eng e
    let s := if getAt false x.reinWait k then sendRein (s.setEng e { x with reinWait := setAt x.reinWait k false }) e k else s
    acLoop e k (getAt [] (s.eng e).acWait k) s

/-- A frame waits for the acyclic part of engine e: in the place of one that says the same, a DELAY frame before all, any other at the
end (R136). -/
def queueAc (s : State) (e : Engine) (k : Nat) (f : AcFrame) : State :=
  if !engSends s e k then s
  else
    let x := s.eng e
    let l := getAt [] x.acWait k
    let l := if f.typ = 5 then f :: l
      else if l.any fun g => g.typ = f.typ && g.key = f.key then l.map fun g => if g.typ = f.typ && g.key = f.key then f else g
      else l ++ [f]
    drainAc (s.setEng e { x with acWait := setAt x.acWait k l }) e k

def queueBoth (s : State) (k : Nat) (f : AcFrame) : State := queueAc (queueAc s .na k f) .nb k f

/-- Records of `size` bytes that one frame of the acyclic part can hold, at most `most`. -/
def recordRoom (s : State) (size most : Nat) : Nat := min most ((s.rn 0x3000 3 - 54) / size)

/-- The configuration record of station a (R158), with its CONFIG_TAG. -/
def configTagOf (s : State) (a : Nat) : List Byte × List Byte × Nat :=
  let i := stIdx a
  let loc := ((s.ring (a / 512)).layout.find? (fun p => p.1 = a)).getD (a, 0, 0)
  let head := leBytes 2 a ++ leBytes 1 loc.2.1 ++ [0] ++ leBytes 2 loc.2.2 ++ leBytes 2 (s.rn i 5) ++ leBytes 2 (s.rn i 6) ++
    leBytes 2 (s.rn i 7) ++ leBytes 2 (s.rn i 0x0C % 4) ++ leBytes 8 (s.rn i 0x0D) ++ leBytes 1 (s.rn i 0x0B) ++
    leBytes 1 (s.rn i 0x0A)
  let tok := leBytes 2 (rollToken a)
  let crc := (crc32 (head ++ tok)).toNat
  (head, tok, if crc = 0 then 1 else crc)

def configRecord (s : State) (a : Nat) : List Byte :=
  let q := configTagOf s a
  q.1 ++ leBytes 4 q.2.2 ++ [0, 0] ++ q.2.1

def configTag (s : State) (a : Nat) : Nat := (configTagOf s a).2.2

/-- A DELAY_WRITE record of station a: x and y in 1/16 ns (R160). -/
def delayRecord (s : State) (a : Nat) : List Byte :=
  leBytes 4 (s.rn (stIdx a) 0x0F) ++ leBytes 4 (s.rn (stIdx a) 0x10) ++ List.replicate 8 0

/-- A CONFIGURE frame with one station's record goes out from both engines, and a DELAY_WRITE frame with its record (R158, R167); never
of a layout that breaks R141. -/
def sendConfig (s : State) (a : Nat) (delay : Bool) : State :=
  let k := a / 512
  if !layoutGood s k then s
  else
    let s := s.setNum (stIdx a) 0x18 (configTag s a)
    let s := queueBoth s k ⟨4, false, a, 0, none, 0, configRecord s a⟩
    if delay then queueBoth s k ⟨7, false, a, a % 512, none, 0, delayRecord s a⟩ else s

/-! Mailbox (R143). -/

/-- A DAZ message as it travels (R76): a response, or a notification with opcode 0x88. -/
def dazBytes (opcode txn index sub count abort : Nat) (data : List Byte) : List Byte :=
  leBytes 1 (opcode + 0x80) ++ [0] ++ leBytes 2 txn ++ leBytes 2 index ++ leBytes 1 sub ++ leBytes 1 count ++
    leBytes 4 data.length ++ leBytes 2 abort ++ [0, 0] ++ data

def messageTo (a : Nat) : Sent → Option (List Byte)
  | .response (.station b) op txn i u n ab d => if b.val = a then some (dazBytes op txn i u n ab d) else none
  | .notice (.station b) txn i u ab d => if b.val = a then some (dazBytes 8 txn i u 1 ab d) else none
  | _ => none

/-- The message that station a is being sent, if there is one. -/
def mailMessage (s : State) (a : Nat) : Option (List Byte) :=
  (s.sent.reverse.filterMap (messageTo a))[(s.station a).mbxDone]?

/-- The mailbox area of the copy with OUT_VALID: fragment header and data, and the length of the fragment (R143). Without a message a
fragment of length 0 carries ACK_SEQ back. -/
def mailArea (s : State) (a : Nat) : Option (List Byte × Nat) :=
  let size := s.rn (stIdx a) 7
  let st := s.station a
  if size ≤ 4 then none
  else
    match mailMessage s a with
    | none => some (slice (leBytes 1 st.mbxSeq ++ [0] ++ leBytes 1 st.mbxAck) 0 size, 0)
    | some m =>
      let d := (m.drop st.mbxOff).take (size - 4)
      let last := st.mbxOff + d.length ≥ m.length
      some (slice (leBytes 1 ((st.mbxSeq + 1) % 16 + b2n (st.mbxOff = 0) * 16 + b2n last * 32) ++ leBytes 1 d.length ++
        leBytes 1 st.mbxAck ++ [0] ++ d) 0 size, d.length)

/-- What an inbound mailbox area does: it may acknowledge the outbound fragment and bring the next inbound one, whose LAST
completes a message (R143). (DEDUCED, notes/assumptions/37.md) -/
def mailIn (s : State) (a : Nat) (has : Bool) (area : List Byte) : State :=
  let st := s.station a
  let h := ((slice area 0 1).headD 0).toNat
  let ack := ((slice area 2 1).headD 0).toNat % 16
  let st :=
    if has && st.mbxLen > 0 && ack = (st.mbxSeq + 1) % 16 then
      let m := (mailMessage s a).getD []
      let off := st.mbxOff + st.mbxLen
      if off ≥ m.length then { st with mbxSeq := ack, mbxOff := 0, mbxLen := 0, mbxDone := st.mbxDone + 1 }
      else { st with mbxSeq := ack, mbxOff := off, mbxLen := 0 }
    else st
  let seq := h % 16
  let len := ((slice area 1 1).headD 0).toNat
  if has && len > 0 && seq ≠ st.mbxAck then
    let m := (if bit h 4 then [] else st.mbxIn) ++ slice area 4 len
    s.setStation a (if bit h 5 then { st with mbxAck := seq, mbxIn := [], mbxMsgs := st.mbxMsgs ++ [m] } else { st with mbxAck := seq, mbxIn := m })
  else s.setStation a st

/-! Trains (R133, R139, R140, R180). -/

/-- The engine that commands station a of its ring in the present train, by the bounds latched (R180). -/
def commander (s : State) (a : Nat) : Option Engine :=
  let k := a / 512
  if engActive s .na && a % 512 < getAt 0 s.na.latched k then some .na
  else if engActive s .nb && ringN s k - getAt 0 s.nb.latched k ≤ a % 512 then some .nb
  else none

/-- Whether the slot of station a may carry OUT_VALID in train c by its state (R167, R170). -/
def stateAllows (s : State) (a c : Nat) : Bool :=
  let st := s.station a
  st.st = stOperational || (st.st = stResync && st.fresh = some c)

/-- The train header (R139); `len` is the line-cycle length in force from this boundary. -/
def trainHeader (s : State) (rein : List Byte) (c len : Nat) : List Byte :=
  let tb := s.rn 0x2000 1
  rein ++ leBytes 8 c ++ leBytes 12 (toTbtime (predictTb s tb len)) ++ leBytes 2 len ++ leBytes 1 tb ++
    leBytes 1 (b2n s.coast.active) ++
    leBytes 4 ((List.range 8).foldl (fun n j => n + (s.lead j).st * 16 ^ j) 0) ++
    (List.range 8).flatMap fun j => leBytes 8 (s.lead j).pos64 ++ leBytes 8 (ofSigned 64 (s.lead j).vel)

/-- The slot of station a in the copy of engine e (R140): outputs and mailbox only in the copy that carries OUT_VALID. -/
def slotBytes (s : State) (a : Nat) (e : Engine) (out : List Byte) (valid : Bool) : List Byte :=
  let i := stIdx a
  let st := s.station a
  let ov : Bool := valid && commander s a = some e
  let mail := if ov then mailArea s a else none
  let resync : Bool := st.st = stAbsent || st.st = stConfiguring || st.st = stResync || st.st = stLost
  leBytes 2 a ++ leBytes 1 (b2n ov + b2n resync * 2 + b2n mail.isSome * 4) ++ List.replicate 5 0 ++
    slice (if ov then out else []) 0 (s.rn i 5) ++ List.replicate (s.rn i 6) 0 ++
    slice ((mail.map (·.1)).getD []) 0 (s.rn i 7)

/-- The frames of engine e's copy of train c on ring k leave. -/
def sendCopy (s : State) (k c len : Nat) (e : Engine) (valid : Bool) : State :=
  if !engOnRing s e k then s
  else
    let r := s.ring k
    let q := reinField s e k
    let s := q.2
    forNums r.frames s fun s f =>
      let slots := r.layout.filter fun p => p.2.1 = f
      let body := (if f = 0 then trainHeader s q.1 c len else []) ++
        slots.flatMap fun p => slotBytes s p.1 e (s.station p.1).lastOut (valid && stateAllows s p.1 c)
      s.emit (.frame e k (etherFrame s e k (frameHeader 1 e (f + 1 = r.frames) (splitFlag s k) false f k body.length c
        ((slots.head?.map (·.1 % 512)).getD 0) slots.length ++ body)))

/-- Bookkeeping of a train that has left: which stations were sent outputs, and their outbound fragment (R143, R169). -/
def trainSent (s : State) (k c : Nat) (valid : Bool) : State :=
  (s.ring k).layout.foldl (fun s p =>
    let st := s.station p.1
    let ov : Bool := valid && (commander s p.1).isSome && stateAllows s p.1 c
    let m := if ov then (mailArea s p.1).map (·.2) else none
    s.setStation p.1 { st with sent := if ov then (c :: st.sent).take 4 else st.sent, mbxLen := m.getD st.mbxLen }) s

/-- What an engine counts within a line cycle starts again; a train all of whose frames failed their FCS is counted (R136, R147, R184). -/
def newTrain (s : State) (e : Engine) : State :=
  let x := s.eng e
  s.setEng e { x with acUsed := [], reinSent := [], fcsGood := false, fcsBad := false,
                      badRun := if x.fcsGood then 0 else if x.fcsBad then x.badRun + 1 else x.badRun }

/-- Positions whose identity engine e wants on ring k: all while the ring is discovered, then those of ABSENT, MISMATCH, CONFIGURING and
LOST stations that it can reach (R157, R167). -/
def wantedPositions (s : State) (e : Engine) (k : Nat) : List Nat :=
  let n := ringN s k
  let r := s.ring k
  let reach := getAt 0 (s.eng e).reach k
  (List.range n).filter fun p =>
    let st := (s.station (512 * k + p)).st
    r.st = rgDiscovering ||
      (stDeclared s (512 * k + p) && st ≠ stResync && st ≠ stOperational &&
        (r.st ≠ rgRunning || !splitFlag s k || (if e = .na then p < reach else n - reach ≤ p)))

/-- The DISCOVER frame of engine e in a line cycle (R156, R167): it covers the wanted positions from where the last one ended,
and begins again at the first. (DESIGN CHOICE, notes/assumptions/135.md) -/
def sendDiscover (s : State) (e : Engine) (k : Nat) : State :=
  let x := s.eng e
  let l := wantedPositions s e k
  let from_ := getAt 0 x.discNext k
  match (l.find? fun p => from_ ≤ p).or l.head? with
  | none => s
  | some b =>
    let m := min (recordRoom s 32 46) (l.getLastD b + 1 - b)
    if m = 0 then s
    else queueAc (s.setEng e { x with discNext := setAt x.discNext k (b + m) }) e k
      ⟨3, false, 0, b, none, if e = .na then 0 else ringN s k - 1, List.replicate (32 * m) 0⟩

/-- The DELAY frames of both engines; `close` is the CLOSE flag of a heal, any other is a measurement (R159, R190). -/
def sendDelay (s : State) (k : Nat) (close : Bool) : State :=
  let r := s.ring k
  let s := s.setRing k { r with measNo := r.measNo + 1, measClk := s.clock.timClk, readDue := !close, measDue := r.measDue && close }
  queueBoth s k ⟨5, close, 0, 0, some (r.measNo + 1), 0, []⟩

/-- The DELAY_READ frames of the line cycle after a measurement (R159). -/
def sendDelayRead (s : State) (k : Nat) : State :=
  let n := ringN s k
  let w := max 1 (recordRoom s 16 92)
  let s := s.setRing k { s.ring k with readDue := false }
  forNums ((n + w - 1) / w) s fun s j =>
    queueBoth s k ⟨6, false, j * w, j * w, none, 0, List.replicate (16 * min w (n - j * w)) 0⟩

/-- The declared positions in runs that one DELAY_WRITE frame can carry. -/
def delayRuns (w : Nat) : List Nat → List (List Nat)
  | [] => []
  | p :: t =>
    match delayRuns w t with
    | [] => [[p]]
    | run :: more => if run.all fun q => q < p + w then (p :: run) :: more else [p] :: run :: more

/-- The DELAY_WRITE frames of ring k: BASE is the first position carried, and the record of position p lies at byte (p − BASE) × 16
(R137, R160). -/
def sendDelayWrite (s : State) (k : Nat) : State :=
  let w := max 1 (recordRoom s 16 92)
  (delayRuns w ((ringStations s k).map (· % 512))).foldl (fun s run =>
    let b := run.headD 0
    let body := (List.range (run.getLastD b + 1 - b)).flatMap fun j =>
      if run.contains (b + j) then delayRecord s (512 * k + b + j) else List.replicate 16 0
    queueBoth s k ⟨7, false, 512 * k + b, b, none, 0, body⟩) s

/-! Answers (R150 to R152, R167 to R170). -/

/-- The train whose inputs reach CX now: the latest one sent, or the one before it where its inputs come late. -/
def trainNo (s : State) (late : Bool) : Nat := s.rn 0x2000 5 - (if late then 2 else 1)

/-- The train of a frame, from its CYCLE: the latest one with those low 32 bits (R137). -/
def frameTrain (s : State) (f : FrameIn) : Nat :=
  let latest := s.rn 0x2000 5 - 1
  latest - (latest + 2 ^ 32 - f.cycle.toNat) % 2 ^ 32

/-- A slot is answered in train c when its SEQ is c mod 4 (R151). -/
def slotAnswered (c : Nat) (q : SlotAnswer) : Bool := bits q.ack.toNat 1 0 = c % 4

/-- The part of ring k that engine e can reach over segments that link at the ring speed, in positions from its own port (R132). -/
def segmentReach (s : State) (e : Engine) (k : Nat) : Nat :=
  let n := ringN s k
  (s.ring k).badSeg.foldl (fun m j => min m (if e = .na then j else n - j)) n

/-- Reach of an engine on ring k from what the good copies of a train showed (R182): the positions heard, and the one that turned its own
copy. -/
def reachOf (s : State) (e : Engine) (k : Nat) (heard : List Nat) (turned : Option Nat) : Nat :=
  let n := ringN s k
  let ends := fun (p : Nat) =>
    let st := (s.station (512 * k + p)).st
    (match turned with
      | some q => if e = .na then p > q else p < q
      | none => false) ||
    (stDeclared s (512 * k + p) && (st = stResync || st = stOperational) && !heard.contains p)
  let order := if e = .na then List.range n else (List.range n).reverse
  min (segmentReach s e k) (order.takeWhile fun p => !ends p).length

/-- Expected roll tally of a returning frame (R151). (DEDUCED, notes/assumptions/40.md) -/
def expectedRoll (s : State) (k : Nat) (f : FrameIn) : Nat :=
  match f.kind with
  | .cyclic => ((s.ring k).layout.foldl (fun n p =>
      if p.2.1 = f.index.val && ((s.station p.1).st = stResync || (s.station p.1).st = stOperational) then n + rollToken p.1
      else n) 0) % 65536
  | .delayRead | .delayWrite => (f.stations.foldl (fun n a => n + rollToken a.val) 0) % 65536
  | .discover | .configure => f.records % 65536
  | _ => f.roll.toNat

/-- Stations of a returning frame that add their token. -/
def frameStations (s : State) (k : Nat) (f : FrameIn) : List Nat :=
  match f.kind with
  | .cyclic => ((s.ring k).layout.filter (fun p => p.2.1 = f.index.val)).map (·.1)
  | .delayRead | .delayWrite => f.stations.map (·.val)
  | _ => []

/-- A copy is good when every frame of its train has come in good. -/
def CopyIn.good (c : CopyIn) (frames : Nat) : Bool := (List.range frames).all c.frames.contains

/-- A good CYCLIC frame of train c enters the copies of ring k; the latest train with a good copy gives the reach (R182). -/
def noteCopy (s : State) (e : Engine) (k c : Nat) (f : FrameIn) (heard : List Nat) : State :=
  let x := s.eng e
  let l := getAt [] x.copies k
  let old := (l.find? fun q => q.train = c && q.origin = f.origin).getD ⟨c, f.origin, [], [], none⟩
  let new : CopyIn := { old with frames := f.index.val :: old.frames, heard := old.heard ++ heard, turned := f.turned.or old.turned }
  let l := new :: l.filter fun q => !(q.train = c && q.origin = f.origin) && c ≤ q.train + 2
  let good := l.filter fun q => q.good (s.ring k).frames
  let best := good.foldl (fun m q => max m q.train) 0
  let of := good.filter fun q => q.train = best
  let x := { x with copies := setAt x.copies k l }
  if of.isEmpty then s.setEng e x
  else
    let own := (of.find? fun q => q.origin = e).bind (·.turned)
    s.setEng e { x with reach := setAt x.reach k (reachOf s e k (of.flatMap (·.heard)) own) }

/-- A frame of the bus that engine e received is checked (R151); a good CYCLIC frame also shows who answered in its train, and feeds the
stop objects (R146, R182). -/
def busFrame (s : State) (e : Engine) (k : Nat) (f : FrameIn) : State :=
  let x := s.eng e
  let s := if (s.ring k).st ≠ rgRunning then s
    else s.setEng e (if f.fcsGood then { x with fcsGood := true } else { x with fcsBad := true })
  if !f.fcsGood then s.bump (ringIdx k) 0x0A
  else
    let diff := (expectedRoll s k f + 65536 - f.roll.toNat) % 65536
    let s := if diff = 0 then s
      else
        let s := s.bump (ringIdx k) 9
        match (frameStations s k f).filter (fun a => rollToken a = diff) with
        | [a] => s.setNum (ringIdx k) 0x0E a
        | _ => s
    if f.kind ≠ .cyclic then s
    else
      let c := frameTrain s f
      let good := f.slots.filter fun q => slotAnswered c q && q.station.val / 512 = k
      good.foldl (fun s q =>
        if bit q.ack.toNat 2 then
          evalObjects (s.setStation q.station.val { s.station q.station.val with latest := q.inputs }) q.station.val
        else s) (noteCopy s e k c f (good.map (fun q => q.station.val % 512)))

/-- A frame that engine e received on ring k: longer than 1518 bytes it is discarded and counted, and so is one of a foreign EtherType;
PTP frames belong to PTP (R131). -/
def frameCheck (s : State) (e : Engine) (k : Nat) (f : FrameIn) : State :=
  if !engActive s e then s
  else if 1518 < f.size then s.bump (ringIdx k) 0x0C
  else if f.etherType.toNat ≠ s.rn 0x3000 1 then (if f.etherType.toNat = 0x88F7 then s else s.bump 0x3000 6)
  else if (s.ring k).st = rgIdle then s
  else busFrame s e k f

/-- A station changes state; its counts restart, and answers count from the next train (R170). -/
def toStation (s : State) (a st : Nat) : State :=
  let old := s.station a
  if old.st = st then s
  else s.setStation a { old with st := st, acks := 0, fresh := none, missedRun := 0, since := s.rn 0x2000 5 }

/-- A station goes back to step 1 of resync (R170): ABSENT, for DISCOVER to find it again; its run of MISSED trains goes on.
(DEDUCED, notes/assumptions/136.md) -/
def resyncAgain (s : State) (a : Nat) : State :=
  let n := (s.station a).missedRun
  let s := toStation s a stAbsent
  s.setStation a { s.station a with missedRun := n }

/-- What train c's answer does to the state of station a (R152, R167, R169, R170). (DEDUCED, notes/assumptions/41.md) -/
def stationAnswer (s : State) (a c : Nat) (q : Option SlotAnswer) : State :=
  let i := stIdx a
  let st := s.station a
  let applied : Bool := match q with
    | some q => bit q.ack.toNat 7 && q.applied.toNat = (c - 1) % 65536
    | none => false
  let s := if c > 0 && st.sent.contains (c - 1) && !applied then s.bump i 0x14 else s
  let resync : Bool := st.st = stResync
  match q with
  | none =>
    let s := (s.setStation a { st with missedRun := st.missedRun + 1 }).bump i 0x11
    if resync && st.since ≤ c then resyncAgain s a else s
  | some q =>
    let s := s.setStation a { st with missedRun := 0 }
    if !resync || c < st.since then s
    else
      let ack := bit q.ack.toNat 4
      match st.fresh with
      | some f =>
        if f + 1 = c then (if applied then (toStation s a stOperational).bump i 0x13 else resyncAgain s a)
        else if f = c && !ack then resyncAgain s a
        else s
      | none =>
        if !ack then resyncAgain s a
        else
          let n := st.acks + 1
          s.setStation a { s.station a with acks := n,
                                            fresh := if n ≥ s.rn (ringIdx (a / 512)) 0x0D then some (s.rn 0x2000 5) else none }

/-- One station's inputs of train c: the engines judge the answer, and CX takes the inputs from the first good copy, or the
second, as far as they reach it over its links (R30, R135, R152). (DEDUCED, notes/assumptions/42.md) -/
def takeInputs (s : State) (k c : Nat) (first second : List SlotAnswer) (late : Bool) (a : Nat) : State :=
  let find := fun (l : List SlotAnswer) => l.find? fun q => q.station.val = a && slotAnswered c q
  let f := find first
  let g := find second
  let q := f.or g
  let before := (s.station a).st
  let s := stationAnswer s a c q
  let s := match q with
    | some q => (s.setStation a { s.station a with fault := bit q.ack.toNat 5, reinActive := bit q.ack.toNat 6 }).setNum (stIdx a) 0x16
        q.linkErr.toNat
    | none => s
  if !s.cxUp then s
  else
    let f := f.filter fun _ => s.linkGood .naCx
    let g := g.filter fun _ => s.linkGood .nbCx
    let s := match f, g with
      | some x, some y => if x.inputs ≠ y.inputs then s.bump 0x3000 5 else s
      | _, _ => s
    let st := s.station a
    match f.or g with
    | some q =>
      let data : Option (List Byte) := if bit q.ack.toNat 2 then some (slice q.inputs 0 (s.rn (stIdx a) 6)) else none
      let s := s.setStation a { st with pend := some (data, data.isNone, late, st.st) }
      let s := if late then s.bump (ringIdx k) 0x0B else s
      mailIn s a (bit q.ack.toNat 3) q.mailbox
    | none => s.setStation a { st with pend := some (none, true, late && (before = stResync || before = stOperational), st.st) }

/-- The inputs of a train come back (R135). -/
def trainInputs (s : State) (k : Nat) (first second : List SlotAnswer) (late : Bool) : State :=
  if (s.ring k).st ≠ rgRunning || s.rn 0x2000 5 < (if late then 2 else 1) then s
  else (s.ring k).layout.foldl (fun s p => takeInputs s k (trainNo s late) first second late p.1) s

/-- A station that the engines expect, or one sent back to step 1 whose identity record has not been missed yet. -/
def stationExpected (st : Station) : Bool :=
  st.st = stResync || st.st = stOperational || (st.st = stAbsent && st.identity.isSome)

/-- A station lost after its loss threshold (R167, R169). -/
def stationLost (s : State) (a : Nat) : State :=
  let st := s.station a
  if stationExpected st && st.missedRun ≥ s.rn (stIdx a) 9 then
    let s := (toStation s a stLost).bump (stIdx a) 0x12
    let st := s.station a
    let done := (s.sent.filterMap (messageTo a)).length
    s.setStation a { st with pend := some (none, true, false, stLost), mbxIn := [], mbxMsgs := [], mbxDone := done, mbxOff := 0, mbxLen := 0 }
  else s

/-- The inputs that CX has are consumed at a line-cycle boundary; a station that is LOST drops its axes (R135, R169). -/
def consumeInputs (s : State) : State :=
  s.stations.foldl (fun s r =>
    match r.2.pend with
    | none => s
    | some (data, stale, late, st) =>
      let a := r.1
      let x := s.station a
      let s := s.setStation a { x with pend := none, cst := st, inputs := data.getD x.inputs,
                                       hasInputs := x.hasInputs || data.isSome, stale := stale, late := late }
      if st = stLost && x.cst ≠ stLost then
        s.axes.foldl (fun s p =>
          if !axisLocal s p.1 && axisInst s p.1 = a && p.2.st ≠ 0 then s.setAxis p.1 { s.axis p.1 with dropAt := true } else s) s
      else s) s

/-! Discovery, configuration and ring start (R156 to R160). -/

/-- Whether an identity record matches the declaration (R132, R157). -/
def identityMatches (s : State) (a : Nat) (q : Identity) : Bool :=
  let i := stIdx a
  let want := if s.rn (ringIdx (a / 512)) 1 = 0 then 1 else 2
  let port := fun (v : Nat) => v = 0 || v = want
  q.vendor.toNat = s.rn i 2 && q.product.toNat = s.rn i 3 && s.rn i 4 ≤ q.revision.toNat && s.rn i 5 ≤ q.outMax.toNat &&
    s.rn i 6 ≤ q.inMax.toNat && s.rn i 7 ≤ q.mbxMax.toNat && port (bits q.links.toNat 1 0) && port (bits q.links.toNat 3 2)

/-- The segments at position p, as its identity record reports their speed: one that links at another speed than the ring counts as broken
(R132). -/
def noteLinks (s : State) (k p : Nat) (q : Identity) : State :=
  let want := if s.rn (ringIdx k) 1 = 0 then 1 else 2
  let put := fun (l : List Nat) (j v : Nat) =>
    if v = 0 then l else if v = want then l.filter (· ≠ j) else if l.contains j then l else l ++ [j]
  let r := s.ring k
  s.setRing k { r with badSeg := put (put r.badSeg p (bits q.links.toNat 1 0)) (p + 1) (bits q.links.toNat 3 2) }

/-- An identity record at the position of station a, or its absence, comes back (R132, R167, R170); a station that resyncs wants a
measurement (R160). -/
def identityBack (s : State) (a : Nat) (q : Option Identity) : State :=
  let s := match q with
    | some q => noteLinks s (a / 512) (a % 512) q
    | none => s
  let st := s.station a
  if !stDeclared s a || st.st = stResync || st.st = stOperational then s
  else
    match q with
    | none => if st.st = stLost then s else toStation (s.setStation a { st with identity := none }) a stAbsent
    | some q =>
      let s := s.setStation a { st with identity := some q }
      if !identityMatches s a q then toStation s a stMismatch
      else if q.configTag.toNat = configTag s a then
        (toStation s a stResync).setRing (a / 512) { s.ring (a / 512) with measDue := true }
      else sendConfig (toStation s a stConfiguring) a true

/-- A returning DISCOVER frame: records from position `base` on, and the stations counted (R156, R157). -/
def discoverReturn (s : State) (e : Engine) (k base : Nat) (records : List (Option Identity)) (counted : Nat) : State :=
  let r := s.ring k
  if !engActive s e || r.st = rgIdle || r.st = rgTopology then s
  else
    let n := ringN s k
    let r := if e = .na then { r with countNa := some counted } else { r with countNb := some counted }
    let s := s.setRing k r
    let overlap : Bool := match r.countNa, r.countNb with
      | some x, some y => x + y > n && !(x = n && y = n)
      | _, _ => false
    if r.st = rgDiscovering && (counted > n || overlap) then s.setRing k { r with st := rgTopology }
    else
      let s := (List.range records.length).foldl (fun s j =>
        if base + j < n then identityBack s (512 * k + base + j) ((records[j]?).getD none) else s) s
      let both : Bool := (r.countNa.isSome || !engActive s .na) && (r.countNb.isSome || !engActive s .nb)
      if r.st = rgDiscovering && both then s.setRing k { s.ring k with st := rgStarting } else s

/-- A returning CONFIGURE frame (R158): a refusal makes the station MISMATCH. -/
def configureReturn (s : State) (statuses : List (Nat × Nat)) : State :=
  statuses.foldl (fun s p =>
    if (p.2 = 2 || p.2 = 3) && ((s.station p.1).st = stConfiguring || (s.station p.1).st = stResync ||
        (s.station p.1).st = stOperational) then toStation s p.1 stMismatch
    else s) s

/-- A starting ring passes its budget check, or fails it (R154, R157). -/
def budgetCheck (s : State) (k : Nat) : State :=
  s.setRing k { s.ring k with st := if budgetHolds s k s.lcLen then rgRunning else rgBudgetFail }

/-- x and y of the positions from the far end on (R160), as (station, record); a position without a station has no record. -/
def delayTable (tab : Nat) : List (Nat × Option DelayRecord) → Int → Int → List (Nat × Int × Int)
  | [], _, _ => []
  | (_, none) :: t, f, g => delayTable tab t f g
  | (a, some q) :: t, f, g =>
    let x := Int.tdiv ((tab : Int) + q.d - q.r - f + g) 2
    (a, x, x - q.d) :: delayTable tab t (f + q.r) (g + q.r')

/-- The records of a delay measurement of an intact ring, one for each position (R159, R160); it also completes a heal (R190)
and the start of a ring (R157). Records of another measurement are not of this one. (DEDUCED, notes/assumptions/47.md) -/
def delayMeasured (s : State) (k tab : Nat) (records : List (Option DelayRecord)) : State :=
  let r := s.ring k
  if r.st = rgIdle || r.st = rgTopology || splitFlag s k || records.length ≠ ringN s k ||
      !(records.all fun q => q.all fun q => q.no.toNat = r.measNo % 65536) then s
  else
    let s := (delayTable tab (((List.range (ringN s k)).map (512 * k + ·)).zip records).reverse 0 0).foldl
      (fun (s : State) (p : Nat × Int × Int) =>
        if stDeclared s p.1 then (s.setNum (stIdx p.1) 0x0F (ofSigned 32 p.2.1)).setNum (stIdx p.1) 0x10 (ofSigned 32 p.2.2) else s) s
    let s := if r.healAt.isSome then s.bump (0x3068 + k) 6 else s
    let s := sendDelayWrite (s.setRing k { s.ring k with tab := some tab, healAt := none }) k
    if r.st = rgStarting then budgetCheck s k else s

/-- Ring k leaves IDLE at its start-up step (R157); a layout that R141 refuses is BUDGET_FAIL. -/
def startRing (s : State) (k : Nat) : State :=
  if (s.ring k).st = rgIdle && ringN s k > 0 && (engActive s .na || engActive s .nb) then
    let s := layoutRing s k
    s.setRing k { s.ring k with st := if layoutGood s k then rgDiscovering else rgBudgetFail, countNa := none, countNb := none }
  else s

/-- Once per second the engine at each end of an arm reads the identity record of the station in loopback (R190). -/
def askLoops (s : State) (k : Nat) : State :=
  let r := s.ring k
  if r.st ≠ rgRunning || !splitFlag s k || !s.elapsed r.loopAsk (wallSec 1) then s
  else
    let s := s.setRing k { r with loopAsk := s.clock.timClk }
    [Engine.na, Engine.nb].foldl (fun s e =>
      let x := s.eng e
      let n := ringN s k
      let reach := getAt 0 x.reach k
      let p := match ((getAt [] x.copies k).find? fun q => q.origin = e).bind (·.turned) with
        | some q => q
        | none => if e = .na then reach - 1 else n - reach
      queueAc s e k ⟨3, false, 1, p, none, if e = .na then 0 else n - 1, List.replicate 32 0⟩) s

/-- Work of ring k at a line-cycle boundary beside its train: the records of the last measurement, discovery, the start of a
ring that cannot be measured, the budget of a BUDGET_FAIL ring after a new length, and measurements at their interval and for a
station that resyncs (R154, R157, R159, R160, R167). (DEDUCED, notes/assumptions/43.md) -/
def ringCycle (s : State) (k : Nat) (lenChanged : Bool) : State :=
  let r := s.ring k
  if r.st = rgIdle || r.st = rgTopology then s
  else if r.st = rgBudgetFail && lenChanged && budgetHolds s k s.lcLen then s.setRing k { r with st := rgRunning }
  else
    let s := if r.readDue then sendDelayRead s k else s
    let s := askLoops (sendDiscover (sendDiscover s .na k) .nb k) k
    if r.st = rgStarting then
      if splitFlag s k then budgetCheck s k
      else if s.rn 0x2000 5 % (4 + ringN s k / max 1 (recordRoom s 16 92)) = 0 then sendDelay s k false else s
    else if r.st = rgRunning && !splitFlag s k && r.healAt.isNone &&
        (r.measDue || s.clock.timClk - r.measClk ≥ wallSec (s.rn 0x3000 4)) then sendDelay s k false
    else s

/-- A write of a station's masks or timeouts reaches the station in a new record (R158, R175). -/
def stationConfigured (s : State) (a : Nat) : State :=
  let st := (s.station a).st
  if st = stConfiguring || st = stResync || st = stOperational then sendConfig s a false else s

/-- The bit of a stop-object source lies in the input area of a declared station (R174). -/
def objectSourceBad (s : State) (v : Nat) : Bool :=
  v ≠ 0xFFFFFFFF &&
    (bits v 31 16 ≥ 2048 || !stDeclared s (bits v 31 16) || bits v 15 0 ≥ 8 * s.rn (stIdx (bits v 31 16)) 6)

/-- A write of an area size that would strand a stop-object source or a channel's STATION descriptor (R175, R213). -/
def areaBad (s : State) (a sub v : Nat) : Bool :=
  (sub = 6 && (List.range 64).any fun o =>
    let src := s.rn (objIdx o) 1
    src ≠ 0xFFFFFFFF && bits src 31 16 = a && bits src 15 0 ≥ 8 * v) ||
  s.chans.any fun r =>
    r.2.st ≠ chOff &&
      (List.range 3).any fun j =>
        let d := s.rn (chIdx r.1) ([7, 8, 0x0B][j]?.getD 7)
        bits d 31 28 = 2 && bits d 25 15 = a && (j = 2) = (sub = 5) && bits d 14 0 + descWidth d > v

end Sys2Proof.Machine
end

