-- ==== Sys2Proof/Machine/Scheduler.lean ====
section
/-! DEFINITION. The hardware task scheduler (R369 to R376): dispatch, pre-emption, spill and back-pressure. -/

namespace Sys2Proof.Machine

def State.unit (s : State) (u : Nat) : UnitRec := getAt UnitRec.init s.ost.units u
def State.setUnit (s : State) (u : Nat) (x : UnitRec) : State :=
  { s with ost := { s.ost with units := setAt s.ost.units u x } }
def State.task (s : State) (i : Nat) : TaskRec := getAt TaskRec.init s.tasks i
def State.setTask (s : State) (i : Nat) (t : TaskRec) : State := { s with tasks := setAt s.tasks i t }
def State.setSched (s : State) (x : Sched) : State := { s with sched := x }
def State.setProg (s : State) (x : Prog) : State := { s with prog := x }

/-! Unit states of R384. -/
def usIdle : Nat := 0
def usActive : Nat := 1
def usSpare : Nat := 2
def usTesting : Nat := 3
def usSuspect : Nat := 4
def usRetired : Nat := 5
def usUpdating : Nat := 6

/-- Pools of R369: 0 release reserve, 1 runtime reserve, 2 shared. -/
def poolOf : ItemKind → Nat
  | .taskRelease => 0
  | .completion | .exportedWrite | .debug | .flush | .ostlerWork => 1
  | .retainCommit | .libraryJob => 2

def sharedSize : Nat := 3840
def refillBelow : Nat := 3584
def dramSize : Nat := 1048576

/-- Eligibility of a core (R371): in the mask, and ACTIVE except for task moves and core self-test. -/
def eligible (s : State) (it : WorkItem) (core : Nat) : Bool :=
  bit it.mask.toNat core && (it.kind = .ostlerWork || (s.unit (96 + core)).st = usActive)

def running (s : State) (core : Nat) : Option WorkItem := getAt none s.sched.cores core

def startOn (s : State) (core : Nat) (it : WorkItem) : State :=
  s.setSched { s.sched with cores := setAt s.sched.cores core (some it) }

/-- One of several choices that no rule orders (R373): the state whose counter has moved past the free choice, and its number. -/
def freeIndex (s : State) (n : Nat) : Nat × State :=
  let f := s.free
  (f.1 % max 1 n, f.2)

/-- An item of the highest, or lowest, priority; which of several is open (R373). -/
def pickItem (s : State) (l : List WorkItem) (highest : Bool) : Option WorkItem × State :=
  match l with
  | [] => (none, s)
  | a :: t =>
    let p := t.foldl (fun p it => if highest then max p it.priority.val else min p it.priority.val) a.priority.val
    let c := l.filter fun it => it.priority.val = p
    let q := freeIndex s c.length
    ((c.drop q.1).head?, q.2)

def maxPrio (l : List WorkItem) : Nat := l.foldl (fun p it => max p it.priority.val) 0
def minPrio (l : List WorkItem) : Nat := l.foldl (fun p it => min p it.priority.val) 63

/-- Peaks of OD A040:03 and 05. -/
def notePeaks (s : State) : State :=
  let s := if s.sched.shared.length > s.rn 0xA040 3 then s.setNum 0xA040 3 s.sched.shared.length else s
  if s.sched.dram.length > s.rn 0xA040 5 then s.setNum 0xA040 5 s.sched.dram.length else s

def holdItem (s : State) (it : WorkItem) : State :=
  (s.setSched { s.sched with held := s.sched.held ++ [it] }).bump 0xA040 6

def toDram (s : State) (it : WorkItem) : State :=
  if s.sched.dram.length ≥ dramSize then holdItem s it
  else s.setSched { s.sched with dram := s.sched.dram ++ [it] }

/-- A shared-pool item waits: in the pool, in the DRAM list, or at its source (R375, R376). -/
def waitShared (s : State) (it : WorkItem) : State :=
  let x := s.sched
  let full : Bool := x.shared.length ≥ sharedSize
  let s :=
    if s.rn 0xA040 1 = 0 then
      if full then holdItem s it else s.setSched { x with shared := x.shared ++ [it] }
    else if (full && it.priority.val ≤ minPrio x.shared) || (!x.dram.isEmpty && it.priority.val < maxPrio x.dram) then toDram s it
    else if full then
      let q := pickItem s x.shared false
      match q.1 with
      | some low =>
        if x.dram.length ≥ dramSize then holdItem q.2 it
        else q.2.setSched { x with shared := x.shared.erase low ++ [it], dram := x.dram ++ [low] }
      | none => q.2
    else s.setSched { x with shared := x.shared ++ [it] }
  notePeaks s

/-- An item waits in the ready list of its pool (R370, R371). -/
def waitItem (s : State) (it : WorkItem) : State :=
  match poolOf it.kind with
  | 0 => s.setSched { s.sched with release := s.sched.release ++ [it] }
  | 1 => s.setSched { s.sched with runtime := s.sched.runtime ++ [it] }
  | _ => waitShared s it

/-- Whether a task's release item is in the lists or running (R370). -/
def releasePresent (s : State) (i : Nat) : Bool :=
  let is := fun (it : WorkItem) => it.kind = .taskRelease && it.ident = i
  s.sched.release.any is || s.sched.saved.any (fun p => is p.2) || s.sched.cores.any fun p => p.2.any is

/-- An item is entered (R371): an idle core, or the pre-emption of the lowest priority, or the ready list. (DEDUCED,
notes/assumptions/86.md) -/
def enterItem (s : State) (it : WorkItem) : State :=
  if it.kind = .taskRelease && releasePresent s it.ident then s
  else
    let cores := (List.range 8).filter (eligible s it)
    match cores.find? fun c => (running s c).isNone with
    | some c => startOn s c it
    | none =>
      let prio := fun (c : Nat) => ((running s c).map (·.priority.val)).getD 0
      match cores with
      | [] => waitItem s it
      | a :: t =>
        let low := t.foldl (fun p c => min p (prio c)) (prio a)
        if it.priority.val > low then
          match cores.find? fun c => prio c = low with
          | some c =>
            let s := match running s c with
              | some old => s.setSched { s.sched with saved := s.sched.saved ++ [(c, old)] }
              | none => s
            (startOn s c it).bump64 0xA040 8
          | none => waitItem s it
        else waitItem s it

/-- DRAM items move back into the pool while it holds fewer than 3,584 (R376). -/
def refill : Nat → State → State
  | 0, s => s
  | fuel + 1, s =>
    if s.rn 0xA040 1 = 1 && s.sched.shared.length < refillBelow then
      let q := pickItem s s.sched.dram true
      match q.1 with
      | some it => refill fuel (q.2.setSched { s.sched with shared := s.sched.shared ++ [it], dram := s.sched.dram.erase it })
      | none => s
    else s

/-- Held sources enter their items as entries free, in no defined order (R375, R376). -/
def admitHeld : Nat → State → State
  | 0, s => s
  | fuel + 1, s =>
    if s.sched.held.isEmpty || s.sched.shared.length ≥ sharedSize then s
    else
      let q := freeIndex s s.sched.held.length
      match (s.sched.held.drop q.1).head? with
      | some it => admitHeld fuel (waitShared (q.2.setSched { s.sched with held := s.sched.held.erase it }) it)
      | none => s

/-- An idle core takes the highest-priority waiting item for which it is eligible (R372). -/
def dispatchOn (s : State) (core : Nat) : State :=
  let x := s.sched
  let mine := (x.saved.filter fun p => p.1 = core).map (·.2)
  let q := pickItem s (((x.release ++ x.runtime ++ x.shared).filter (fun it => eligible s it core)) ++ mine) true
  let s := match q.1 with
    | none => q.2
    | some it =>
      let s := q.2
      let s :=
        if mine.contains it then s.setSched { x with saved := x.saved.erase (core, it) }
        else s.setSched { x with release := x.release.erase it, runtime := x.runtime.erase it, shared := x.shared.erase it }
      startOn s core it
  let s := refill s.sched.dram.length s
  admitHeld s.sched.held.length s

/-- A core without its item. -/
def clearCore (s : State) (core : Nat) : State := s.setSched { s.sched with cores := setAt s.sched.cores core none }

/-- A core completes its item and takes the next one (R372). -/
def completeItem (s : State) (core : Nat) : State :=
  match running s core with
  | none => s
  | some _ => dispatchOn (clearCore s core) core

/-- The items of a core that was retired: those of other kinds are entered again, a task's next release enters its own (R371, R390). -/
def leaveCore (s : State) (core : Nat) : State :=
  let x := s.sched
  let here := (running s core).toList ++ (x.saved.filter fun p => p.1 = core).map (·.2) ++
    x.release.filter fun it => it.mask = BitVec.ofNat 8 (2 ^ core)
  let s := clearCore (s.setSched { x with saved := x.saved.filter (fun p => p.1 ≠ core),
                                          release := x.release.filter fun it => it.mask ≠ BitVec.ofNat 8 (2 ^ core) }) core
  (here.filter fun it => it.kind ≠ .taskRelease).foldl enterItem s

/-- Cores that were retired lose their items, and an idle core that became ACTIVE takes what waits for it. -/
def coreItems (old s : State) : State :=
  (List.range 8).foldl (fun s c =>
    let now := (s.unit (96 + c)).st
    if now = (old.unit (96 + c)).st then s
    else if now = usRetired then leaveCore s c
    else if now = usActive && (running s c).isNone then dispatchOn s c
    else s) s

/-- A change to BACKPRESSURE discards the DRAM list (R375): its library jobs report NOT_RUN to their tasks, and a retain commit is
entered again on return. -/
def toBackpressure (s : State) : State :=
  if s.rn 0xA040 1 = 0 then s
  else
    let lost := s.sched.dram
    let s := (s.setNum 0xA040 1 0).countBy 0xA040 7 32 lost.length
    let s := lost.foldl (fun s it =>
      match it.kind with
      | .libraryJob =>
        match getAt none s.prog.jobs it.ident with
        | some i =>
          let s := s.setTask i { s.task i with results := (s.task i).results ++ [(it.ident, [])] }
          s.setProg { s.prog with jobs := setAt s.prog.jobs it.ident none }
        | none => s
      | .retainCommit => s.setProg { s.prog with commitLost := true }
      | _ => s) s
    s.setSched { s.sched with dram := [] }

/-- The scheduler enters SERVICE (R375). -/
def toService (s : State) : State :=
  if s.rn 0xA040 1 = 1 then s
  else
    let s := s.setNum 0xA040 1 1
    let s := admitHeld s.sched.held.length s
    if s.prog.commitLost then
      enterItem (s.setProg { s.prog with commitLost := false }) ⟨.retainCommit, 0, 0, 0xFF⟩
    else s

end Sys2Proof.Machine
end

