-- ==== Sys2Proof/Machine/Ostler.lean ====
section
/-! DEFINITION. The Ostler (R377 to R404): placement, unit states, live migration, rotation, self-test, retirement, evacuation. -/

namespace Sys2Proof.Machine

def abMigrationRefused : Nat := 0xA001
def abNotPlaced : Nat := 0xA002
def abUnitUnavailable : Nat := 0xA003
def abMigrationActive : Nat := 0xA004
def abPlacementRefused : Nat := 0x4002
def abTaskRefused : Nat := 0x8002

/-! Items, units and clusters (R15, R377, R384). Kinds are those of R378: 1 channel, 2 axis, 3 task. -/

def unitIdx (u : Nat) : Nat := 0xA100 + u
def clusterIdx (c : Nat) : Nat := 0xA200 + c
def taskIdx (i : Nat) : Nat := 0x8100 + i

def unitKind (u : Nat) : Nat := if u < 64 then 1 else if u < 96 then 2 else 3
def clustersOf (kind : Nat) : List Nat := if kind = 1 then List.range 8 else if kind = 2 then [8, 9, 10, 11] else [12]
def unitsOf (c : Nat) : List Nat := (List.range 8).map (8 * c + ·)

/-- Region of a unit: 0 to 3 C0 to C3, 4 M0, 5 P0. -/
def regionOf (u : Nat) : Nat := if u < 64 then u / 16 else if u < 96 then 4 else 5

/-- A task's record of OD A030, from its image (R378). -/
def taskDecl (i : Nat) (d : TaskDecl) : List Byte :=
  [3, 0] ++ leBytes 2 i ++ leBytes 2 d.coupling ++ leBytes 1 d.pinRegion ++ leBytes 1 d.pinUnit

/-- The declaration record of an item; an item without one has no coupling and no pin (R378). -/
def declOf (s : State) (kind item : Nat) : List Byte :=
  if kind = 3 then
    match (s.task item).decl with
    | some d => taskDecl item d
    | none => [3, 0] ++ leBytes 2 item ++ [0xFF, 0xFF, 0xFF, 0xFF]
  else getAt (leBytes 1 kind ++ [0] ++ leBytes 2 item ++ [0xFF, 0xFF, 0xFF, 0xFF]) s.ost.decls (kind * 4096 + item)

def couplingOf (s : State) (kind item : Nat) : Nat := leNat (slice (declOf s kind item) 4 2)

/-- Whether a record's pin allows unit u of the item's kind (R378, R380). -/
def pinAllows (d : List Byte) (u : Nat) : Bool :=
  let region := leNat (slice d 6 1)
  let pu := leNat (slice d 7 1)
  let rno := if u < 64 then u / 16 else 0
  let cno := if u < 64 then u / 8 % 2 else if u < 96 then (u - 64) / 8 else 0
  (region = 0xFF || region = rno) && (pu / 16 = 15 || pu / 16 = cno) && (pu % 16 = 15 || pu % 16 = u % 8)

/-- Whether an item is pinned to one unit. -/
def unitPinned (s : State) (kind item : Nat) : Bool := leNat (slice (declOf s kind item) 7 1) % 16 ≠ 15

/-- BAD_VALUE of a declaration record (R378). -/
def declBad (d : List Byte) : Bool :=
  let kind := leNat (slice d 0 1)
  let item := leNat (slice d 2 2)
  let coupling := leNat (slice d 4 2)
  let region := leNat (slice d 6 1)
  let pu := leNat (slice d 7 1)
  let regions := if kind = 1 then 4 else 1
  let clusters := if kind = 1 then 2 else if kind = 2 then 4 else 1
  d.length ≠ 8 || leNat (slice d 1 1) ≠ 0 || !(kind = 1 || kind = 2) || item ≥ (if kind = 1 then 4096 else 2048) ||
    (coupling ≥ 1024 && coupling ≠ 0xFFFF) || (region ≠ 0xFF && region ≥ regions) || (pu / 16 ≠ 15 && region = 0xFF) ||
    (pu % 16 ≠ 15 && pu / 16 = 15) || (pu / 16 ≠ 15 && pu / 16 ≥ clusters) || (pu % 16 ≠ 15 && pu % 16 ≥ 8)

/-- Where an item is placed. -/
def placeOf (s : State) (kind item : Nat) : Option Nat :=
  if kind = 1 then (if (s.chan item).placed then some (s.chan item).unit else none)
  else if kind = 2 then (if (s.axis item).placed then some (s.axis item).unit else none)
  else (s.task item).core.map (96 + ·)

/-- Every placed item as (kind, item, unit). (DEDUCED, notes/assumptions/118.md) -/
def placements (s : State) : List (Nat × Nat × Nat) :=
  (s.chans.filterMap fun r => if r.2.placed then some (1, r.1, r.2.unit) else none) ++
    (s.axes.filterMap fun r => if r.2.placed then some (2, r.1, r.2.unit) else none) ++
    s.tasks.filterMap fun r => r.2.core.map fun c => (3, r.1, 96 + c)

def itemsOn (s : State) (u : Nat) : List (Nat × Nat) :=
  (placements s).filterMap fun p => if p.2.2 = u then some (p.1, p.2.1) else none

/-! Capacity (R226, R254, R337). -/

/-- Period and cost of a channel or an axis as it stands (R226, R254). -/
def shapeOf (s : State) (kind item : Nat) : Nat × Nat :=
  if kind = 1 then (max 1 (s.rn (chIdx item) 4), s.rn (chIdx item) 6 + 5) else (max 1 (axisPeriod s item), 10)

/-- φ of a placed channel or axis; a STATION axis has that of the line cycle (R252). -/
def phaseOf (s : State) (kind item : Nat) : Nat :=
  if kind = 1 then (s.chan item).phase
  else if kind = 2 then (if axisLocal s item then (s.axis item).phase else s.lcPhase) else 0

/-- The φ that an item fixes; none lets the Ostler choose (R212, R252). -/
def pinnedPhase (s : State) (kind item : Nat) : Option Nat :=
  let v := if kind = 1 then s.rn (chIdx item) 5 else if axisLocal s item then s.rn (axIdx item) 0x0A else s.lcPhase
  if v = 0xFFFF then none else some v

/-- What a unit carries: output authority, shadows, and room reserved; each with its φ, P and cost. -/
def carried (s : State) (u : Nat) : List Resv :=
  ((itemsOn s u).map fun p =>
    let sh := shapeOf s p.1 p.2
    ⟨p.1, p.2, u, phaseOf s p.1 p.2, sh.1, sh.2⟩) ++
  (s.ost.migs.filterMap fun m =>
    if m.target = u then
      let sh := shapeOf s m.kind m.item
      some ⟨m.kind, m.item, u, phaseOf s m.kind m.item, sh.1, sh.2⟩
    else none) ++
  s.ost.resvs.filter fun r => r.unit = u

/-- Σ cost / P of what a unit carries. -/
def loadOf (l : List Resv) : Frac := l.foldl (fun f r => f.add (Frac.mk' r.cost r.period)) Frac.zero

def loadLimit (kind : Nat) : Nat := if kind = 1 then 500 else 64

/-- Two boundary patterns meet in some tick. -/
def meets (a b : Nat × Nat) : Bool := a.2 % Nat.gcd a.1 b.1 = b.2 % Nat.gcd a.1 b.1

/-- The most patterns (P, φ) of a list, beside those chosen, that have a boundary in one tick: patterns that meet pairwise meet in
one tick. -/
def peakWith : List (Nat × Nat × Nat) → List (Nat × Nat) → Nat
  | [], _ => 0
  | (p, f, n) :: t, chosen =>
    if chosen.all (meets (p, f)) then max (n + peakWith t ((p, f) :: chosen)) (peakWith t chosen) else peakWith t chosen

/-- Patterns with their numbers. -/
def patterns (l : List Resv) : List (Nat × Nat × Nat) :=
  let d := (l.map fun r => (r.period, r.phase)).eraseDups
  d.map fun q => (q.1, q.2, l.foldl (fun n r => if r.period = q.1 && r.phase = q.2 then n + 1 else n) 0)

/-- Most boundaries in one base tick. -/
def peakCount (l : List Resv) : Nat := peakWith (patterns l) []

/-- Most boundaries in a tick in which the pattern (P, φ) has one, itself counted. -/
def peakAt (l : List Resv) (p f : Nat) : Nat :=
  1 + peakWith ((patterns l).filter fun q => meets (p, f) (q.1, q.2.1)) [(p, f)]

def clusterCarried (s : State) (c : Nat) : List Resv := (unitsOf c).flatMap (carried s)

/-- Response test of R337 for the tasks of one core, in ns times f_floor; each answer is R of one task, none where it fails. -/
def taskTimes (d : TaskDecl) (len : Nat) : Nat × Nat :=
  if d.kind = 0 then (d.period * len * 6250, d.period * len * 6250)
  else if d.kind = 1 then (d.period - 6250, d.period - 6250)
  else (d.interval, d.deadline - 6250)

def fFloor : Nat := 400

def taskCost (d : TaskDecl) : Nat := (d.budget + 2000) * 1600

/-- One iteration after another of R337's loop. (DEDUCED, notes/assumptions/85.md) -/
def responseLoop (c dl : Nat) (others : List (Nat × Nat)) : Nat → Nat → Option Nat
  | 0, _ => none
  | fuel + 1, r =>
    let n := c + others.foldl (fun x o => x + (r + o.1 - 1) / max 1 o.1 * o.2) 0
    if n + 1180 * fFloor > dl then none
    else if n = r then some r
    else responseLoop c dl others fuel n

/-- R of task d beside the others on its core. -/
def response (len : Nat) (d : TaskDecl) (others : List TaskDecl) : Option Nat :=
  let t := taskTimes d len
  let hp := (others.filter fun o => o.prio ≥ d.prio).map fun o => ((taskTimes o len).1 * fFloor, taskCost o)
  let dl := t.2 * fFloor
  responseLoop (taskCost d) dl hp (dl + 2) (taskCost d)

/-- Whether a list of tasks passes R337 together on one core. -/
def coreHolds (len : Nat) (l : List TaskDecl) : Bool :=
  l.all fun d => (response len d (l.filter fun o => o.number ≠ d.number)).isSome

/-- Task declarations in force on a core, without some of them. -/
def tasksOn (s : State) (core : Nat) : List TaskDecl :=
  s.tasks.filterMap fun r => if r.2.core = some core then r.2.decl else none

/-- Whether every core keeps its task set at a line-cycle length (R87, R337). -/
def tasksHold (s : State) (len : Nat) : Bool := (List.range 8).all fun c => coreHolds len (tasksOn s c)

/-- R of every task, reported in OD 8100+i:14 in whole ns. -/
def reportResponses (s : State) : State :=
  s.tasks.foldl (fun s r =>
    match r.2.decl, r.2.core with
    | some d, some c =>
      match response s.lcLen d ((tasksOn s c).filter fun o => o.number ≠ d.number) with
      | some v => s.setNum (taskIdx r.1) 0x14 (v / fFloor % 2 ^ 32)
      | none => s
    | _, _ => s) s

/-- Whether every MP unit holds its axes at a line-cycle length (R87, R254). -/
def unitsHold (s : State) (len : Nat) : Bool :=
  (List.range 32).all fun j =>
    (((carried s (64 + j)).foldl (fun f r =>
      f.add (Frac.mk' 10 (if axisLocal s r.item then r.period else max 1 len))) Frac.zero).le (Frac.ofInt 64))

/-! Refusals (R382). -/

inductive Reason where
  | items
  | load
  | boundaries
  | groupSize
  | pin
  | updating
  | noUnit
  deriving DecidableEq, Repr

def Reason.code : Reason → Nat
  | .items => 1
  | .load => 2
  | .boundaries => 3
  | .groupSize => 4
  | .pin => 5
  | .updating => 6
  | .noUnit => 7

/-- Level of a refusal: 1 unit, 2 cluster, 3 region, 4 die. -/
def Reason.level : Reason → Nat
  | .items | .load | .pin => 1
  | .boundaries | .groupSize => 2
  | .updating => 3
  | .noUnit => 4

/-- Whether a unit may receive a placement: ACTIVE or IDLE, and not in a region under update (R381, R383); `spare` admits SPARE
units, as migrations and forced moves do. (DEDUCED, notes/assumptions/89.md) -/
def usable (s : State) (spare : Bool) (u : Nat) : Bool :=
  let x := s.unit u
  (x.st = usActive || x.st = usIdle || (spare && x.st = usSpare)) && s.ost.evac.map (·.1) ≠ some (regionOf u)

/-- Conditions 1 and 2 of R226 and the load of R254 for one more item on unit u (R337 for a task). -/
def unitFits (s : State) (u : Nat) (r : Resv) : Option Reason :=
  let l := (carried s u).filter fun q => !(q.kind = r.kind && q.item = r.item)
  if r.kind = 3 then
    match (s.task r.item).decl with
    | some d => if coreHolds s.lcLen (d :: (tasksOn s (u - 96)).filter fun o => o.number ≠ r.item) then none else some .load
    | none => some .load
  else if l.length ≥ 64 then some .items
  else if (loadOf (r :: l)).le (Frac.ofInt (loadLimit r.kind)) then none
  else some .load

/-- Load of a unit with one more item, for comparison within one kind. -/
def loadWith (s : State) (u : Nat) (r : Resv) : Frac :=
  if r.kind = 3 then
    (tasksOn s (u - 96)).foldl (fun f d => f.add (Frac.mk' (taskCost d) (max 1 ((taskTimes d s.lcLen).1 * fFloor)))) Frac.zero
  else loadOf (r :: (carried s u).filter fun q => !(q.kind = r.kind && q.item = r.item))

/-- The least-loaded of some units; ties go to the lowest index. -/
def leastLoaded (s : State) (r : Resv) : List Nat → Option Nat
  | [] => none
  | u :: t => some (t.foldl (fun b v => if (loadWith s b r).le (loadWith s v r) then b else v) u)

/-- The φ of the members of an axis's interpolation group as they are placed, reserved or fixed (R254). -/
def groupPhases (s : State) (l : List Nat) (item : Nat) : List Nat :=
  l.filterMap fun i =>
    if (s.axis i).placed then some (phaseOf s 2 i)
    else match pinnedPhase s 2 i with
      | some f => some f
      | none => if i = item then none else (s.ost.resvs.find? fun r => r.kind = 2 && r.item = i).map (·.phase)

/-- The members of the interpolation group of an axis, itself alone where it has none. -/
def groupMates (s : State) (item : Nat) : List Nat :=
  match groupOf s item with
  | some g => groupMembers s g
  | none => [item]

/-- Whether the interpolation group of an axis has not one P and one φ (R254). (DEDUCED, notes/assumptions/161.md) -/
def groupUneven (s : State) (item : Nat) : Bool :=
  let l := groupMates s item
  let fs := groupPhases s l item
  l.any (fun i => axisPeriod s i ≠ axisPeriod s item) || fs.any fun f => f ≠ fs.headD 0

/-- The φ with the lowest peak: in the cluster for a channel, in the unit for an axis; ties go to the lowest φ (R381); an axis
takes the φ of its group (R254). (DEDUCED, notes/assumptions/88.md) -/
def choosePhase (s : State) (kind item c : Nat) (us : List Nat) : Nat :=
  let sh := shapeOf s kind item
  match if kind = 2 then (groupPhases s (groupMates s item) item).head? else pinnedPhase s kind item with
  | some f => f
  | none =>
    let all := (clusterCarried s c).filter fun q => !(q.kind = kind && q.item = item)
    let score := fun (f : Nat) =>
      if kind = 1 then max (peakCount all) (peakAt all sh.1 f)
      else us.foldl (fun m u => min m (peakAt ((carried s u).filter fun q => !(q.kind = kind && q.item = item)) sh.1 f)) 100000
    (List.range sh.1).foldl (fun b f => if score f < score b then f else b) 0

/-- Condition 3 of R226: a shadow counts beside its original; what the item holds on the same unit, or reserved, is not counted again. -/
def boundariesFit (s : State) (c : Nat) (r : Resv) : Bool :=
  r.kind ≠ 1 || peakAt ((clusterCarried s c).filter fun q =>
    !(q.kind = r.kind && q.item = r.item && (q.unit = r.unit || s.ost.resvs.contains q))) r.period r.phase ≤ 32

/-- One item given room in cluster c: the least-loaded unit that keeps every condition. -/
def roomIn (s : State) (kind item c : Nat) (spare : Bool) (exclude : List Nat) : Except Reason Resv :=
  let all := (unitsOf c).filter fun u => pinAllows (declOf s kind item) u && !exclude.contains u
  let us := all.filter (usable s spare)
  if all.isEmpty then .error .pin
  else if us.isEmpty then
    .error (if s.ost.evac.map (·.1) = some (regionOf (8 * c)) then .updating
            else if all.all (fun u => (s.unit u).st = usRetired || (s.unit u).st = usSuspect) then .noUnit else .pin)
  else
    let sh := shapeOf s kind item
    let r0 : Resv := ⟨kind, item, 0, 0, sh.1, sh.2⟩
    let fits := us.filter fun u => (unitFits s u r0).isNone
    match leastLoaded s r0 fits with
    | none => .error (((us.filterMap fun u => unitFits s u r0).getLast?).getD .load)
    | some u =>
      let r := { r0 with unit := u, phase := if kind = 3 then 0 else choosePhase s kind item c fits }
      if boundariesFit s c r then .ok r else .error .boundaries

/-! Coupling groups (R37, R254, R379). -/

/-- Members that must share a cluster with an item: its coupling group, and the interpolation group of an axis. -/
def membersOfItem (s : State) (kind item : Nat) : List Nat :=
  let g := couplingOf s kind item
  let coupled := if g = 0xFFFF then [] else
    if kind = 3 then s.tasks.filterMap fun r => if couplingOf s 3 r.1 = g && r.2.decl.isSome then some r.1 else none
    else s.ost.decls.filterMap fun p =>
      if p.1 / 4096 = kind && leNat (slice p.2 4 2) = g then some (p.1 % 4096) else none
  let grp := if kind = 2 then (match groupOf s item with | some x => groupMembers s x | none => []) else []
  let l := (coupled ++ grp).eraseDups
  if l.contains item then l else item :: l

/-- DEPENDENCY of a record that would mix kinds in a coupling group (R379). -/
def mixesKinds (s : State) (kind g : Nat) : Bool :=
  g ≠ 0xFFFF && (s.ost.decls.any (fun p => p.1 / 4096 ≠ kind && leNat (slice p.2 4 2) = g) ||
    s.tasks.any fun r => couplingOf s 3 r.1 = g && r.2.decl.isSome)

/-- Members in falling cost. -/
def byCost (s : State) (kind : Nat) (l : List Nat) : List Nat :=
  let ins := fun (acc : List Nat) (i : Nat) =>
    acc.takeWhile (fun j => (shapeOf s kind j).2 ≥ (shapeOf s kind i).2) ++
      i :: acc.dropWhile (fun j => (shapeOf s kind j).2 ≥ (shapeOf s kind i).2)
  l.foldl ins []

/-- pack(G, C) of R381: the reservations join the state as they are made. -/
def pack (s : State) (kind c : Nat) (spare : Bool) (exclude : List Nat) : List Nat → Except Reason State
  | [] => .ok s
  | i :: t =>
    match roomIn s kind i c spare exclude with
    | .error e => .error e
    | .ok r =>
      pack { s with ost := { s.ost with resvs := r :: s.ost.resvs.filter fun q => !(q.kind = kind && q.item = i) } } kind c spare
        exclude t

/-- Coupled tasks share one core (R379): the first core that holds them all, least loaded first. -/
def packTasks (s : State) (l : List Nat) (exclude : List Nat) : Except Reason State :=
  let us := (unitsOf 12).filter fun u => l.all (fun i => pinAllows (declOf s 3 i) u) && usable s false u && !exclude.contains u
  let ds := l.filterMap fun i => (s.task i).decl
  let fits := us.filter fun u => coreHolds s.lcLen (ds ++ (tasksOn s (u - 96)).filter fun o => !l.contains o.number)
  match leastLoaded s ⟨3, l.headD 0, 0, 0, 1, 0⟩ fits with
  | some u =>
    let rest := s.ost.resvs.filter fun q => !(q.kind = 3 && l.contains q.item)
    .ok { s with ost := { s.ost with resvs := (l.map fun i => (⟨3, i, u, 0, 1, 0⟩ : Resv)) ++ rest } }
  | none => .error (if us.isEmpty then .noUnit else if l.length > 1 then .groupSize else .load)

/-- The highest unit load of a cluster, as cost over limit. -/
def peakLoad (s : State) (c : Nat) : Frac :=
  (unitsOf c).foldl (fun m u =>
    let f := if c = 12 then loadWith s u ⟨3, 0, 0, 0, 1, 0⟩ else loadOf (carried s u)
    if m.le f then f else m) Frac.zero

/-- Clusters ordered by lowest peak load, then lowest index. -/
def byPeak (s : State) (l : List Nat) : List Nat :=
  let ins := fun (acc : List Nat) (c : Nat) =>
    acc.takeWhile (fun d => (peakLoad s d).le (peakLoad s c)) ++ c :: acc.dropWhile (fun d => (peakLoad s d).le (peakLoad s c))
  l.foldl ins []

/-- The first cluster of a list in which a group packs, or the reason found in the last one tried. -/
def packFirst (s : State) (kind : Nat) (l : List Nat) (exclude : List Nat) : List Nat → Reason → Except Reason State
  | [], e => .error e
  | c :: t, _ =>
    match if kind = 3 then packTasks s l exclude else pack s kind c false exclude (byCost s kind l) with
    | .ok s' => .ok s'
    | .error e => packFirst s kind l exclude t (if l.length > 1 && (e = .items || e = .load) then .groupSize else e)

/-- Clusters that satisfy every pin of a group. -/
def pinnedClusters (s : State) (kind : Nat) (l : List Nat) (cs : List Nat) : List Nat :=
  cs.filter fun c => l.all fun i => (unitsOf c).any (pinAllows (declOf s kind i))

/-- A SPARE unit that takes work becomes ACTIVE (R383, R385). -/
def takeSpare (s : State) (u : Nat) : State :=
  if (s.unit u).st = usSpare then s.setUnit u { s.unit u with st := usActive } else s

/-- An item takes a unit. -/
def putItem (s : State) (r : Resv) : State :=
  let s := takeSpare s r.unit
  let s := { s with ost := { s.ost with resvs := s.ost.resvs.filter fun q => !(q.kind = r.kind && q.item = r.item) } }
  if r.kind = 1 then s.setChan r.item { s.chan r.item with placed := true, unit := r.unit, phase := r.phase }
  else if r.kind = 2 then s.setAxis r.item { s.axis r.item with placed := true, unit := r.unit, phase := r.phase }
  else s.setTask r.item { s.task r.item with core := some (r.unit - 96), noCore := false }

/-- A refusal is reported in OD A000:04 (R382). -/
def noteRefusal (s : State) (kind item : Nat) (e : Reason) : State :=
  s.setNum 0xA000 4 (e.code * 2 ^ 24 + e.level * 2 ^ 20 + kind * 2 ^ 16 + item % 4096)

/-- place(I) of R381: whether it succeeded, and the state. (DEDUCED, notes/assumptions/87.md) -/
def place (s : State) (kind item : Nat) : Bool × State :=
  if kind = 2 && groupUneven s item then (false, noteRefusal s kind item .groupSize) else
  let g := membersOfItem s kind item
  let held := (g.filterMap fun i => match placeOf s kind i with
    | some u => some u
    | none => (s.ost.resvs.find? fun r => r.kind = kind && r.item = i).map (·.unit)).head?
  let packed : Except Reason (State × Nat) := match held with
    | some u => .ok (s, u / 8)
    | none =>
      match packFirst s kind g [] (byPeak s (pinnedClusters s kind g (clustersOf kind))) .pin with
      | .ok s' => .ok (s', ((s'.ost.resvs.find? fun r => r.kind = kind && r.item = item).map (·.unit / 8)).getD 0)
      | .error e => .error e
  match packed with
  | .error e => (false, noteRefusal s kind item e)
  | .ok (s', c) =>
    let kept := (s'.ost.resvs.find? fun r => r.kind = kind && r.item = item)
    let choice : Except Reason Resv :=
      if kind = 3 then
        match kept, held with
        | some r, _ => .ok r
        | none, some u => if (unitFits s' u ⟨3, item, u, 0, 1, 0⟩).isNone then .ok ⟨3, item, u, 0, 1, 0⟩ else .error .load
        | none, none => .error .load
      else
        match roomIn s' kind item c false [] with
        | .ok r => .ok (match kept, pinnedPhase s kind item with
          | some k, none => if k.phase < r.period then { r with phase := k.phase } else r
          | _, _ => r)
        | .error e => .error e
    match choice with
    | .ok r => (true, putItem s' r)
    | .error e => (false, noteRefusal s kind item e)

/-- A write of P, φ or S of a placed axis, checked on its present unit and cluster; the state holds the values to check (R254). -/
def stillFits (s : State) (kind item : Nat) : Bool :=
  match placeOf s kind item with
  | none => true
  | some u =>
    let sh := shapeOf s kind item
    let r : Resv := ⟨kind, item, u, phaseOf s kind item, sh.1, sh.2⟩
    (unitFits s u r).isNone && boundariesFit s (u / 8) r

/-! Spares (R38, R395, R403). -/

def sparesOf (s : State) (c : Nat) : List Nat := (unitsOf c).filter fun u => (s.unit u).st = usSpare

/-- Groups of items on a unit or in a region, each once. -/
def groupsOn (s : State) (kind : Nat) (items : List Nat) : List (List Nat) :=
  items.foldl (fun acc i => if acc.any (·.contains i) then acc
    else acc ++ [(membersOfItem s kind i).filter fun j => (placeOf s kind j).isSome]) []

/-- Migrations of one coupling group into the cluster that R381 chooses among `cs`, with their room reserved (R395, R397). -/
def planMoves (s : State) (kind : Nat) (l : List Nat) (cs exclude : List Nat) (why : Nat) : Option State :=
  match packFirst s kind l exclude (byPeak s (pinnedClusters s kind l cs)) .pin with
  | .error _ => none
  | .ok s' =>
    let plans := l.filterMap fun i => (s'.ost.resvs.find? fun r => r.kind = kind && r.item = i).map fun r =>
      (⟨kind, i, r.unit, why, false⟩ : MovePlan)
    some { s' with ost := { s'.ost with plans := s'.ost.plans ++ plans } }

def planGroups (s : State) (kind : Nat) (gs : List (List Nat)) (cs : List Nat → List Nat) (exclude : List Nat) (why : Nat) : Option State :=
  gs.foldl (fun o g => o.bind fun s => planMoves s kind g (cs g) exclude why) (some s)

/-- Spares that a cluster holds: SPARE units, spares in their self-test, and the unit that a running rotation empties once it
has taken the spare. (DEDUCED, notes/assumptions/140.md) -/
def sparesHeld (s : State) (c : Nat) : Nat :=
  ((unitsOf c).filter fun u => let x := s.unit u; x.st = usSpare || x.st = usTesting && x.toSpare).length +
    match getAt none s.ost.turning c with
    | some (_, sp) => b2n ((s.unit sp).st = usActive)
    | none => 0

/-- The spare count of a cluster is restored (R395): IDLE units first, highest number first; then a unit is emptied into other
clusters; else the deficit is set. -/
def restoreSpares (s : State) (c : Nat) : State :=
  let want := s.rn (clusterIdx c) 1
  let idle := ((unitsOf c).filter fun u => (s.unit u).st = usIdle).reverse
  let s := (idle.take (want - sparesHeld s c)).foldl (fun s u => s.setUnit u { s.unit u with st := usSpare }) s
  if sparesHeld s c ≥ want then s.setNum (clusterIdx c) 5 0
  else
    let kind := unitKind (8 * c)
    let planned := s.ost.plans.any fun p => p.why = 2 && (placeOf s p.kind p.item).map (· / 8) = some c
    let free := (unitsOf c).filter fun u => (s.unit u).st = usActive && (itemsOn s u).all fun p => !unitPinned s p.1 p.2
    match if planned || c = 12 then none else leastLoaded s ⟨kind, 5000, 0, 0, 1, 0⟩ free with
    | none => s.setNum (clusterIdx c) 5 (if planned then 0 else 1)
    | some u =>
      match planGroups s kind (groupsOn s kind ((itemsOn s u).map (·.2))) (fun _ => (clustersOf kind).erase c) [] 2 with
      | some s' => s'.setNum (clusterIdx c) 5 0
      | none => s.setNum (clusterIdx c) 5 1

/-- A write of a spare count: surplus SPARE units become IDLE at once (R403). -/
def spareCount (s : State) (c : Nat) : State :=
  let sp := sparesOf s c
  let s := (sp.take (sp.length - s.rn (clusterIdx c) 1)).foldl (fun s u => s.setUnit u { s.unit u with st := usIdle }) s
  restoreSpares s c

/-! Migration (R385 to R390). -/

def migOf (s : State) (kind item : Nat) : Option Migr := s.ost.migs.find? fun m => m.kind = kind && m.item = item

def dropMig (s : State) (kind item : Nat) : State :=
  { s with ost := { s.ost with migs := s.ost.migs.filter fun m => !(m.kind = kind && m.item = item) } }

def dropPlan (s : State) (kind item : Nat) : State :=
  { s with ost := { s.ost with plans := s.ost.plans.filter (fun p => !(p.kind = kind && p.item = item)),
                               resvs := s.ost.resvs.filter fun r => !(r.kind = kind && r.item = item) } }

def setMig (s : State) (m : Migr) : State :=
  { s with ost := { s.ost with migs := s.ost.migs.map fun q => if q.kind = m.kind && q.item = m.item then m else q } }

/-- Whether unit u may take the shadow of an item (R385): state, pin, capacity, and the coupling cluster unless its whole group
moves. -/
def targetFits (s : State) (kind item u : Nat) (wholeGroup : Bool) : Bool :=
  let src := (placeOf s kind item).getD 0
  let sh := shapeOf s kind item
  let r : Resv := ⟨kind, item, u, phaseOf s kind item, sh.1, sh.2⟩
  unitKind u = kind && u ≠ src && usable s true u && pinAllows (declOf s kind item) u && (unitFits s u r).isNone &&
    boundariesFit s (u / 8) r && (wholeGroup || (membersOfItem s kind item).length ≤ 1 || u / 8 = src / 8)

/-- A task moves between cycles (R390). -/
def moveTask (s : State) (i core : Nat) : State :=
  takeSpare ((dropPlan s 3 i).setTask i { s.task i with core := some core, noCore := false }) (96 + core)

/-- Every migration that meets a condition aborts without a mismatch (R389). -/
def abortMigs (s : State) (cond : Migr → Bool) : State :=
  (s.ost.migs.filter cond).foldl (fun s m => (dropMig s m.kind m.item).bump 0xA000 7) s

/-- A rotation that cannot go on stops: every item stays where it is (R391). -/
def stopRotation (s : State) (c : Nat) : State :=
  let s := abortMigs s fun m => m.why = 0 && m.source / 8 = c
  let mine := fun (p : MovePlan) => p.why = 0 && (placeOf s p.kind p.item).map (· / 8) = some c
  ({ s with ost := { s.ost with plans := s.ost.plans.filter (fun p => !mine p),
                                turning := setAt s.ost.turning c none } }).bump (clusterIdx c) 6

/-- The plans that start with a plan: members of an interpolation group migrate together (R385). -/
def startSet (s : State) (p : MovePlan) : List MovePlan :=
  if p.kind = 2 then
    let l := groupMates s p.item
    s.ost.plans.filter fun q => q.kind = 2 && q.why = p.why && l.contains q.item
  else [p]

/-- The shadows of a set of plans take their targets one after another, where every one keeps the capacity rules (R385). -/
def addShadows (s : State) (l : List MovePlan) : Option State :=
  let free := { s with ost := { s.ost with resvs := s.ost.resvs.filter fun r => !l.any fun p => p.kind = r.kind && p.item = r.item } }
  l.foldl (fun o p => o.bind fun s =>
    match placeOf s p.kind p.item with
    | none => none
    | some src =>
      if (migOf s p.kind p.item).isSome || !targetFits s p.kind p.item p.target (p.why = 1 || p.why = 2) then none
      else
        let m : Migr := ⟨p.kind, p.item, src, p.target, p.why, 0, 0, 0, s.rn 0xA000 1, p.second⟩
        let s := dropPlan s p.kind p.item
        some (({ s with ost := { s.ost with migs := s.ost.migs ++ [m] } }).bump 0xA000 5)) (some free)

/-- Whether a plan waits: an evacuation moves one coupling group at a time, a rebalance one item (R397, R399), and a cluster
takes as many migrations at once as OD A000:03 says; a larger group waits for none (R385). (DESIGN CHOICE,
notes/assumptions/141.md) -/
def planWaits (s : State) (p : MovePlan) (n : Nat) : Bool :=
  let busy := (s.ost.migs.filter fun m => m.target / 8 = p.target / 8).length
  (busy > 0 && busy + n > s.rn 0xA000 3) || (p.why = 4 && s.ost.migs.any fun m => m.why = 4) ||
    (p.why = 1 && s.ost.migs.any fun m => m.why = 1 && !(membersOfItem s p.kind p.item).contains m.item)

/-- PREPARE of a chosen migration (R385, R386). -/
def startMig (s : State) (p : MovePlan) : State :=
  if (placeOf s p.kind p.item).isNone then dropPlan s p.kind p.item
  else if (migOf s p.kind p.item).isSome then s
  else if p.kind = 3 then
    let s0 := { s with ost := { s.ost with resvs := s.ost.resvs.filter fun r => !(r.kind = 3 && r.item = p.item) } }
    if !targetFits s0 3 p.item p.target true then (if p.why = 0 then stopRotation s (p.target / 8) else s)
    else if (s.task p.item).running then s
    else moveTask s p.item (p.target - 96)
  else
    let l := startSet s p
    match addShadows s l with
    | none => if p.why = 0 then stopRotation s (p.target / 8) else s
    | some s' => if planWaits s p l.length then s else s'

/-- A migration that the Ostler has chosen starts, with those of its interpolation group (R385). -/
def migrationStart (s : State) (kind item target : Nat) : State :=
  match s.ost.plans.find? fun p => p.kind = kind && p.item = item && p.target = target with
  | none => s
  | some p => startMig s p

/-- The item's next sample boundary at or after a tick. -/
def nextSample (s : State) (kind item tick : Nat) : Nat :=
  let p := (shapeOf s kind item).1
  tick + (phaseOf s kind item + p - tick % p) % p

/-- The copy is complete: k0 is the first sample boundary at least 1 base tick later; a copy of the states that misses it moves k0 to
the next one (R386). -/
def copyComplete (s : State) (kind item : Nat) : State :=
  match migOf s kind item with
  | none => s
  | some m =>
    if m.stage = 1 && m.equal > 0 then s
    else setMig s { m with stage := 1, k0 := nextSample s kind item (s.clock.tick + 1) }

/-- A unit is retired (R393). -/
def setRetired (s : State) (u cause : Nat) : State :=
  if (s.unit u).st = usRetired then s
  else (s.setUnit u { st := usRetired, cause := cause, why := 0, toSpare := false }).bump 0xA000 9

/-- An item without a unit enters FAILED (R228, R254, R337, R394): a channel's off value comes into force at its next boundary, an axis
holds its last setpoint from its next boundary on. -/
def failItem (s : State) (kind item : Nat) : State :=
  if kind = 1 then
    let c := s.chan item
    let off := s.tkBfp (chIdx item) 0x13
    let r := convertOut s item off
    s.setChan item { c with st := chFailed, placed := false, enableAt := false, disableAt := false, latched := false, overrun := true,
                            toCome := some (nextSample s 1 item (s.clock.tick + 1), off, r.1), y := off }
  else if kind = 2 then
    s.setAxis item { s.axis item with placed := false, failAt := true, enableAt := false }
  else s.setTask item { s.task item with core := none, noCore := true, react := some 7 }

/-- The state in which an item has left its unit. -/
def unplaced (s : State) (kind item : Nat) : State :=
  if kind = 1 then s.setChan item { s.chan item with placed := false }
  else if kind = 2 then s.setAxis item { s.axis item with placed := false }
  else s.setTask item { s.task item with core := none }

/-- A forced move (R394): a unit of the item's cluster, spares included, then of another cluster that R381 would choose. -/
def forcedMove (s : State) (kind item u : Nat) : State :=
  let s := s.setNum 0xA000 8 (s.rn 0xA000 8 / 65536 * 65536 + (s.rn 0xA000 8 + 1) % 65536)
  let alone := (membersOfItem s kind item).length ≤ 1
  let gone := unplaced s kind item
  let here := roomIn gone kind item (u / 8) true [u]
  let ph := phaseOf s kind item
  match here with
  | .ok r => putItem s { r with phase := ph }
  | .error _ =>
    let others := if alone && kind ≠ 3 then byPeak s ((pinnedClusters s kind [item] (clustersOf kind)).erase (u / 8)) else []
    match others.findSome? fun c => (roomIn gone kind item c false [u]).toOption with
    | some r => putItem s { r with phase := ph }
    | none => failItem s kind item

/-- The target of a migration takes output authority (R386, R389). -/
def takeAuthority (s : State) (m : Migr) : State :=
  let s := dropMig s m.kind m.item
  let s := putItem s ⟨m.kind, m.item, m.target, phaseOf s m.kind m.item, 1, 0⟩
  s.bump 0xA000 6

/-- A unit is retired while it carries work (R389, R390, R393, R394). -/
def retireUnit (s : State) (u cause : Nat) : State :=
  if (s.unit u).st = usRetired then s
  else
    let s := setRetired s u cause
    let s := abortMigs s fun m => m.target = u
    let s := { s with ost := { s.ost with plans := s.ost.plans.filter (fun p => p.target ≠ u),
                                          resvs := s.ost.resvs.filter fun r => r.unit ≠ u } }
    (itemsOn s u).foldl (fun s p =>
      match migOf s p.1 p.2 with
      | some m =>
        if m.equal ≥ 1 then
          let s := takeAuthority s m
          s.setNum 0xA000 8 ((s.rn 0xA000 8 / 65536 + 1) % 65536 * 65536 + s.rn 0xA000 8 % 65536)
        else forcedMove ((dropMig s p.1 p.2).bump 0xA000 7) p.1 p.2 u
      | none => forcedMove s p.1 p.2 u) s

/-- The members of an interpolation group migrate together (R385). -/
def switchSet (s : State) (kind item : Nat) : List Nat :=
  if kind = 2 then (groupMates s item).filter fun j => j = item || (migOf s 2 j).isSome else [item]

/-- A unit that a mismatch makes SUSPECT tests itself at once and carries nothing meanwhile: what runs on it moves by force
(R387, R383). (DESIGN CHOICE, notes/assumptions/142.md) -/
def suspectUnit (s : State) (u : Nat) : State :=
  let s := (abortMigs s fun m => m.target = u).setUnit u { s.unit u with st := usSuspect, why := 1, toSpare := false }
  (itemsOn s u).foldl (fun s p => forcedMove s p.1 p.2 u) s

/-- A mismatch (R387, R388): the migration aborts with those of its group, the target tests itself, and a second one is planned. -/
def mismatch (s : State) (m : Migr) : State :=
  let set := switchSet s m.kind m.item
  let s := abortMigs s fun q => q.kind = m.kind && set.contains q.item
  let s := ((s.bump (unitIdx m.source) 6).bump (unitIdx m.target) 6).bump (unitIdx m.source) 7
  let s := suspectUnit s m.target
  let s := if s.rn (unitIdx m.target) 6 ≥ 3 then retireUnit s m.target 3 else s
  let s := if s.rn (unitIdx m.source) 6 ≥ 3 then retireUnit s m.source 3 else s
  if m.second then retireUnit s m.source 4
  else
    match ((unitsOf (m.target / 8)).filter fun u =>
        u ≠ m.target && set.all fun j => targetFits s m.kind j u (m.why = 1 || m.why = 2)).head? with
    | some u => { s with ost := { s.ost with plans := s.ost.plans ++ set.map fun j => ⟨m.kind, j, u, m.why, j = m.item⟩ } }
    | none => if m.why = 0 then stopRotation s (m.source / 8) else s

/-- Both results of a shadow sample are compared at its deadline (R387, R388). -/
def compareMig (s : State) (kind item : Nat) (equal : Bool) : State :=
  match migOf s kind item with
  | none => s
  | some m =>
    if m.stage = 0 || s.clock.tick < m.k0 then s
    else if equal then setMig s { m with equal := m.equal + 1 }
    else mismatch s m

/-- The emptied unit of a rotation becomes SPARE and runs self-test (R391). -/
def finishTurn (s : State) (c : Nat) : State :=
  match getAt none s.ost.turning c with
  | some (u, _) =>
    if (itemsOn s u).isEmpty && !(s.ost.plans.any fun p => p.why = 0 && p.target / 8 = c) then
      let s := { s with ost := { s.ost with turning := setAt s.ost.turning c none } }
      if (s.unit u).st = usActive || (s.unit u).st = usIdle then
        s.setUnit u { s.unit u with st := usTesting, why := 0, toSpare := true }
      else s
    else s
  | none => s

/-- The switch boundary ksw = k0 + N × P (R386). -/
def switchMig (s : State) (kind item : Nat) : State :=
  match migOf s kind item with
  | none => s
  | some _ =>
    let l := switchSet s kind item
    let ready := l.all fun j => match migOf s kind j with
      | some m => m.stage = 1 && m.equal ≥ m.n && s.clock.tick ≥ m.k0 + m.n * (shapeOf s kind j).1
      | none => true
    if !ready then s
    else
      let s := l.foldl (fun s j => match migOf s kind j with
        | some m => takeAuthority s m
        | none => s) s
      (List.range 13).foldl finishTurn s

/-! Commands of OD A010 (R399). -/

/-- The plans of a MIGRATE: the item with the members of its interpolation group on its unit (R385, R399). -/
def migratePlans (s : State) (kind item u : Nat) : List MovePlan :=
  let l := if kind = 2 then (groupMates s item).filter fun j => j = item || placeOf s 2 j = placeOf s 2 item else [item]
  l.map fun j => ⟨kind, j, u, 3, false⟩

/-- Why MIGRATE is refused (R404). -/
def migrateAbort (s : State) (kind item u : Nat) : Nat :=
  if kind < 1 || kind > 3 || u ≥ 104 then abBadValue
  else if (placeOf s kind item).isNone then abNotPlaced
  else if (migOf s kind item).isSome then abMigrationActive
  else if !((s.unit u).st = usActive || (s.unit u).st = usIdle || (s.unit u).st = usSpare) then abUnitUnavailable
  else if !targetFits s kind item u false || (kind ≠ 3 && (addShadows s (migratePlans s kind item u)).isNone) then abMigrationRefused
  else abOk

def migrate (s : State) (kind item u : Nat) : State :=
  let l := migratePlans s kind item u
  migrationStart { s with ost := { s.ost with
    plans := s.ost.plans.filter (fun p => !(p.kind = kind && l.any fun q => q.item = p.item)) ++ l } } kind item u

def retestAbort (s : State) (u : Nat) : Nat :=
  if u ≥ 104 then abBadValue else if (s.unit u).st = usRetired then abOk else abUnitUnavailable

def retest (s : State) (u : Nat) : State := s.setUnit u { s.unit u with st := usTesting, why := 2, toSpare := false }

/-- Items in a region, by kind. -/
def regionItems (s : State) (r : Nat) : List Nat :=
  (placements s).filterMap fun p => if p.1 ≠ 3 && regionOf p.2.2 = r then some p.2.1 else none

/-- The items of a region that nothing moves yet. -/
def regionStaying (s : State) (r : Nat) : List Nat :=
  let kind := if r = 4 then 2 else 1
  (regionItems s r).filter fun i => (migOf s kind i).isNone && !s.ost.plans.any fun p => p.kind = kind && p.item = i && p.why = 1

/-- Every item of a region migrates, one coupling group at a time, each to the cluster that R381 chooses (R397). -/
def planEvacuation (s : State) (r : Nat) : Option State :=
  let kind := if r = 4 then 2 else 1
  let s := { s with ost := { s.ost with evac := some (r, false) } }
  let cs := (clustersOf kind).filter fun c => regionOf (8 * c) ≠ r
  planGroups s kind (groupsOn s kind (regionStaying s r)) (fun _ => cs) [] 1

/-- Bit r of OD A000:0A: the other regions can hold the work of region r now (R397, R42). -/
def headroom (s : State) (r : Nat) : Bool := (planEvacuation s r).isSome

def evacuateAbort (s : State) (r : Nat) : Nat :=
  if r > 4 then abBadValue
  else if s.ost.evac.isSome then abMigrationActive
  else if headroom s r then abOk else abMigrationRefused

/-- The region is marked for placement and its items leave it; an empty region rejoins at once, or its units become UPDATING
(R397). -/
def evacuate (s : State) (r : Nat) (update : Bool) : State :=
  let s := abortMigs s fun m => regionOf m.target = r
  let lost := s.ost.plans.filter fun p => regionOf p.target = r
  let s := lost.foldl (fun s p => dropPlan s p.kind p.item) s
  match planEvacuation s r with
  | some s => { s with ost := { s.ost with evac := some (r, update) } }
  | none => s

/-- The placement that R381 would choose for a kind from an empty start, in item order (R399). -/
def emptyStart (s : State) (kind : Nat) : Option State :=
  let items := (placements s).filterMap fun p => if p.1 = kind then some p.2.1 else none
  let bare := items.foldl (fun s i =>
    if kind = 1 then s.setChan i { s.chan i with placed := false }
    else if kind = 2 then s.setAxis i { s.axis i with placed := false }
    else s.setTask i { s.task i with core := none }) { s with ost := { s.ost with resvs := [] } }
  items.foldl (fun o i => o.bind fun s => if (place s kind i).1 then some (place s kind i).2 else none) (some bare)

def rebalanceAbort (s : State) (kind : Nat) : Nat :=
  if kind < 1 || kind > 3 then abBadValue else if (emptyStart s kind).isSome then abOk else abMigrationRefused

def rebalance (s : State) (kind : Nat) : State :=
  match emptyStart s kind with
  | none => s
  | some want =>
    let plans := (placements s).filterMap fun p =>
      match placeOf want kind p.2.1 with
      | some u => if p.1 = kind && u ≠ p.2.2 then some (⟨kind, p.2.1, u, 4, false⟩ : MovePlan) else none
      | none => none
    { s with ost := { s.ost with plans := s.ost.plans ++ plans, balance := kind } }

/-! Rotation and self-test (R391, R392, R396). -/

/-- The rotation of one cluster: the ACTIVE unit tested longest ago, without a unit-pinned item, onto its spare (R391). -/
def rotateCluster (s : State) (c : Nat) : State :=
  match (sparesOf s c).head?, getAt none s.ost.turning c with
  | some sp, none =>
    let us := (unitsOf c).filter fun u => (s.unit u).st = usActive && (itemsOn s u).all fun p => !unitPinned s p.1 p.2
    let oldest := us.foldl (fun (b : Option Nat) u =>
      match b with
      | none => some u
      | some v => if s.rn (unitIdx u) 5 < s.rn (unitIdx v) 5 then some u else some v) none
    match oldest with
    | none => s
    | some u =>
      if (itemsOn s u).all (fun p => p.1 = 3 || targetFits s p.1 p.2 sp false) then
        { s with ost := { s.ost with turning := setAt s.ost.turning c (some (u, sp)),
                                     plans := s.ost.plans ++ (itemsOn s u).map fun p => ⟨p.1, p.2, sp, 0, false⟩ } }
      else s.bump (clusterIdx c) 6
  | _, _ => s

/-- Whether the rotation interval of OD A000:02 has passed within this tick; a time base that was set back ends it too (R391). -/
def rotationDue (s : State) : Bool :=
  s.rn 0xA000 2 ≠ 0 && (s.ost.rotAt + s.rn 0xA000 2 * 1000000000 * 2 ^ 32 < s.now + tickUnits || s.now < s.ost.rotAt)

/-- Each IDLE and SPARE unit that is no rotation's target also runs self-test; short spare counts are tried again (R391, R395). -/
def rotation (s : State) : State :=
  if !rotationDue s then s
  else
    let s := { s with ost := { s.ost with rotAt := s.now } }
    let s := (List.range 13).foldl rotateCluster s
    let s := forNums 104 s fun s u =>
      let x := s.unit u
      let used := s.ost.turning.any (fun p => p.2.any (·.2 = u)) || s.ost.migs.any (·.target = u) || s.ost.plans.any (·.target = u)
      if (x.st = usIdle || x.st = usSpare) && !used then
        s.setUnit u { x with st := usTesting, why := 0, toSpare := x.st = usSpare }
      else s
    (List.range 13).foldl restoreSpares s

/-- What a self-test takes, in ns of wall time (R392). -/
def testTime (u : Nat) : Nat := if unitKind u = 1 then 2000000 else if unitKind u = 2 then 4000000 else 40000000

/-- A self-test ends, once its time has passed (R392, R393, R396, R397). -/
def selfTest (s : State) (u : Nat) (passed : Bool) : State :=
  let x := s.unit u
  if !(x.st = usTesting || x.st = usSuspect) || !s.elapsed (getAt 0 s.ost.tests u) (wallNs (testTime u)) then s
  else if passed then
    let s := (s.bump (unitIdx u) 3).setNum (unitIdx u) 5 s.clock.tick
    let s := if x.why = 2 then s.setNum (unitIdx u) 6 0 else s
    s.setUnit u { st := if x.toSpare then usSpare else usIdle, cause := 0, why := 0, toSpare := false }
  else
    let s := (s.bump (unitIdx u) 4).setNum (unitIdx u) 5 s.clock.tick
    if x.why = 2 then s.setUnit u { x with st := usRetired, why := 0 }
    else retireUnit s u (if x.why = 3 then 5 else 1)

/-! What follows from any change of placement. -/

/-- Reservations lapse when no member of their group is placed or about to be (R379). -/
def lapseResvs (s : State) : State :=
  let keep := s.ost.resvs.filter fun r =>
    (membersOfItem s r.kind r.item).any fun i => (placeOf s r.kind i).isSome
  { s with ost := { s.ost with resvs := keep } }

/-- Migrations and plans of items that are no longer placed end without a mismatch (R389). -/
def endMigs (s : State) : State :=
  { s with ost := { s.ost with migs := s.ost.migs.filter (fun m => placeOf s m.kind m.item = some m.source),
                               plans := s.ost.plans.filter fun p => (placeOf s p.kind p.item).isSome } }

/-- IDLE and ACTIVE follow what a unit carries (R384). -/
def unitStates (s : State) : State :=
  forNums 104 s fun s u =>
    let x := s.unit u
    let busy := !(itemsOn s u).isEmpty || s.ost.migs.any fun m => m.target = u
    if x.st = usIdle && busy then s.setUnit u { x with st := usActive }
    else if x.st = usActive && !busy then s.setUnit u { x with st := usIdle }
    else s

/-- An evacuated region is empty (R397); an item whose migration ended without leaving is planned again. -/
def evacDone (s : State) : State :=
  match s.ost.evac with
  | none => s
  | some (r, update) =>
    if !(regionStaying s r).isEmpty then
      match planEvacuation s r with
      | some s' => { s' with ost := { s'.ost with evac := some (r, update) } }
      | none => s
    else if !(regionItems s r).isEmpty || s.ost.migs.any (fun m => regionOf m.target = r) then s
    else if update then
      forNums 104 s fun s u =>
        let x := s.unit u
        if regionOf u = r && x.st ≠ usRetired && x.st ≠ usTesting then s.setUnit u { x with st := usUpdating } else s
    else { s with ost := { s.ost with evac := none } }

/-- Tasks that are to move and are between cycles move (R390). -/
def moveTasks (s : State) : State :=
  s.ost.plans.foldl (fun s p => if p.kind = 3 && !(s.task p.item).running then startMig s p else s) s

/-- The TIM clock at which a self-test of the state begins. -/
def noteTests (old s : State) : State :=
  let on := fun (x : UnitRec) => x.st = usTesting || x.st = usSuspect
  forNums 104 s fun s u =>
    if on (s.unit u) && (!on (old.unit u) || (s.unit u).why ≠ (old.unit u).why) then
      { s with ost := { s.ost with tests := setAt s.ost.tests u s.clock.timClk } }
    else s

/-- Clusters that hold fewer spares than before, or have a new IDLE unit, restore their count (R395). -/
def keepSpares (old s : State) : State :=
  (List.range 13).foldl (fun s c =>
    if sparesHeld s c < sparesHeld old c || (unitsOf c).any fun u => (s.unit u).st = usIdle && (old.unit u).st ≠ usIdle then
      restoreSpares s c
    else s) s

/-- The Ostler's answer to a command that changed a placement, a migration, a plan or a unit (R377 to R397). -/
def ostlerSettle (old s : State) : State :=
  if placements s = placements old && s.ost = old.ost then s
  else
    let s := (List.range 13).foldl finishTurn (moveTasks (endMigs s))
    let s := noteTests old (keepSpares old (evacDone (unitStates (lapseResvs s))))
    let moved := ((placements s).filter fun p => !(placements old).contains p).length +
      ((placements old).filter fun p => (placeOf s p.1 p.2.1).isNone).length
    s.countBy 0xA000 0x0C 32 moved

/-! Reports (R384, R400, R402, R403). -/

def shadowsOn (s : State) (u : Nat) : Nat := (s.ost.migs.filter fun m => m.target = u && m.stage = 1).length

def unitStatus (s : State) (u : Nat) : Nat :=
  let x := s.unit u
  x.st * 2 ^ 28 + unitKind u * 2 ^ 24 + min 255 (itemsOn s u).length * 2 ^ 16 + min 255 (shadowsOn s u) * 2 ^ 8 + x.cause * 16

/-- Load per mille, shadows counted (R402). -/
def unitLoad (s : State) (u : Nat) : Nat :=
  let f := if u ≥ 96 then loadWith s u ⟨3, 5000, 0, 0, 1, 0⟩
    else (loadOf ((carried s u).filter fun r => !(s.ost.resvs.contains r))).div (Frac.ofInt (loadLimit (unitKind u)))
  min 1000 (f.num * 1000 / f.den).toNat

def clusterPeak (s : State) (c : Nat) : Nat :=
  if c ≥ 8 then 0 else min 64 (peakCount ((clusterCarried s c).filter fun r => !(s.ost.resvs.contains r)))

/-- The location word of an item (R400). -/
def locationWord (s : State) (kind item : Nat) : Nat :=
  let failed := if kind = 1 then (s.chan item).st = chFailed else if kind = 2 then (s.axis item).st = axFailed || (s.axis item).failAt else (s.task item).noCore
  match placeOf s kind item with
  | none => (if failed then 3 else 0) * 2 ^ 28 + 0xFF * 2 ^ 20 + 0xFF * 2 ^ 12
  | some u =>
    let sh := (migOf s kind item).bind fun m => if m.stage = 1 then some m.target else none
    (if sh.isSome then 2 else 1) * 2 ^ 28 + u * 2 ^ 20 + sh.getD 0xFF * 2 ^ 12 + phaseOf s kind item % 1024

def locationMap (s : State) (kind n : Nat) : List Byte := (List.range n).flatMap fun i => leBytes 4 (locationWord s kind i)

def declarationMap (s : State) : List Byte :=
  ((List.range 4096).flatMap (declOf s 1)) ++ ((List.range 2048).flatMap (declOf s 2)) ++ (List.range 64).flatMap (declOf s 3)

def headroomBits (s : State) : Nat :=
  (List.range 5).foldl (fun n r => n + b2n (headroom { s with ost := { s.ost with evac := none } } r) * 2 ^ r) 0

end Sys2Proof.Machine
end

