-- ==== Sys2Proof/Machine/Program.lean ====
section
/-! DEFINITION. The cyclic program (R324 to R368): images, task releases, cycles, overruns, program states, retained variables and the
online exchange. The code of a program runs outside the model: a completed cycle brings what it produced as its operands. -/

namespace Sys2Proof.Machine

def abImageRefused : Nat := 0x8001
def abRetainSize : Nat := 0x8003
def abExchangeTooLong : Nat := 0x8004
def abNotPrepared : Nat := 0x8005
def abOutputOwned : Nat := 0x8006

/-! Program states of R343, bank states of R354. -/
def psNone : Nat := 0
def psStop : Nat := 1
def psRun : Nat := 2
def psHold : Nat := 3
def bkEmpty : Nat := 0
def bkLoading : Nat := 1
def bkLoaded : Nat := 2
def bkPrepared : Nat := 3
def bkArmed : Nat := 4
def bkExchanging : Nat := 5
def bkRefused : Nat := 6

def progState (s : State) : Nat := s.rn 0x8000 1

def setProgState (s : State) (st cause : Nat) : State := (s.setNum 0x8000 1 st).setNum 0x8000 2 cause

def emptyImage : ProgramImage := ⟨[], [], 0, [], [], [], []⟩

def imageOf (s : State) : ProgramImage := s.prog.active.getD emptyImage

/-- The first line-cycle boundary at least 2 base ticks ahead: s of R344, X of R357. (DEDUCED, notes/assumptions/11.md) -/
def State.soonLc (s : State) : Nat := s.nextLc (s.clock.tick + 2)

/-! Owned outputs (R214, R345). -/

/-- Two byte ranges of stations overlap. -/
def bytesMeet (a b : Nat × Nat × Nat) : Bool := a.1 = b.1 && a.2.1 < b.2.1 + b.2.2 && b.2.1 < a.2.1 + a.2.2

/-- Whether a channel is not OFF, an enable that waits for its boundary included (R214). -/
def chanOwns (s : State) (n : Nat) : Bool := (s.chan n).st ≠ chOff || (s.chan n).enableAt

/-- Station output bytes of a channel's destination. -/
def chanBytes (s : State) (n : Nat) : Option (Nat × Nat × Nat) :=
  let d := s.rn (chIdx n) 0x0B
  if bits d 31 28 = 2 then some (bits d 25 15, bits d 14 0, descWidth d) else none

/-- Station output bytes of an axis's setpoint. -/
def axisBytes (s : State) (n : Nat) : Option (Nat × Nat × Nat) :=
  if axisLocal s n then none else some (axisInst s n, s.rn (axIdx n) 6, if s.rn (axIdx n) 7 = 1 then 8 else 4)

def ownedBytes : OwnedOutput → Option (Nat × Nat × Nat)
  | .stationBytes a off len => some (a.val, off, len)
  | _ => none

/-- Whether a channel that is not OFF writes any of some bytes. -/
def chansWrite (s : State) (b : Nat × Nat × Nat) (but : Option Nat) : Bool :=
  s.chans.any fun p => some p.1 ≠ but && chanOwns s p.1 && (chanBytes s p.1).any (bytesMeet b)

/-- Whether an enabled axis writes any of some bytes. -/
def axesWrite (s : State) (b : Nat × Nat × Nat) (but : Option Nat) : Bool :=
  s.axes.any fun p => some p.1 ≠ but && axisLocked s p.1 && (axisBytes s p.1).any (bytesMeet b)

/-- Whether the active image owns any of some bytes. -/
def programWrites (s : State) (b : Nat × Nat × Nat) : Bool :=
  (imageOf s).outputs.any fun o => (ownedBytes o.out).any (bytesMeet b)

def ownsField (s : State) (o : Nat) : Bool :=
  (imageOf s).outputs.any fun d => match d.out with
    | .fieldOut q => q.val = o
    | _ => false

def ownsAout (s : State) (o : Nat) : Bool :=
  (imageOf s).outputs.any fun d => match d.out with
    | .analogueOut q => q.val = o
    | _ => false

/-- Whether channel n is the phase channel that local axis a names for the pair of an even PWM channel (R294). -/
def phaseChannelOf (s : State) (a n c : Nat) : Bool :=
  s.rn (locIdx a) 1 = 2 && c % 2 = 0 &&
    ((s.rn (locIdx a) 2 = c / 2 && s.rn (locIdx a) 0x0B = n) || (s.rn (locIdx a) 3 = c / 2 && s.rn (locIdx a) 0x0C = n))

/-- Whether a local axis claims a PWM channel for which channel n is no phase channel (R294). -/
def claimedFor (s : State) (n c : Nat) : Bool :=
  (pwmClaim s c).any fun a => !phaseChannelOf s a n c

/-- DEST_TAKEN: the destination of channel n has another owner (R214, R294). -/
def destTaken (s : State) (n : Nat) : Bool :=
  let d := s.rn (chIdx n) 0x0B
  match bits d 31 28 with
  | 2 => (chanBytes s n).any fun b => chansWrite s b (some n) || axesWrite s b none || programWrites s b
  | 6 | 7 =>
    (s.chans.any fun p => p.1 ≠ n && chanOwns s p.1 && s.rn (chIdx p.1) 0x0B = d) ||
      (bits d 31 28 = 6 && ownsAout s (bits d 3 0)) || (bits d 31 28 = 7 && claimedFor s n (bits d 6 0))
  | _ => false

/-- OUTPUT_OWNED: an output of an image has an owner outside the program (R368). -/
def imageOutputsTaken (s : State) (img : ProgramImage) : Bool :=
  img.outputs.any fun o => match o.out with
    | .stationBytes a off len => chansWrite s (a.val, off, len) none || axesWrite s (a.val, off, len) none
    | .analogueOut q => (aoutChan s q.val).isSome
    | .fieldOut _ => false

/-- A value of an owned output comes into force. -/
def writeOwned (s : State) (o : OwnedOutput) (b : List Byte) : State :=
  match o with
  | .stationBytes a off len =>
    let st := s.station a.val
    s.setStation a.val { st with outputs := splice st.outputs off (slice b 0 len) }
  | .fieldOut q => s.setDout q.val { s.dout q.val with progLevel := bit (leNat b) 0 }
  | .analogueOut q => s.setAout q.val { s.aout q.val with source := toSigned 16 (leNat (slice b 0 2)), waiting := false }

/-- STOP values (R345); HOLD_LAST leaves an output as it is. -/
def stopValues (s : State) (l : List OwnedDecl) : State :=
  l.foldl (fun s d => match d.stop with
    | some b => writeOwned s d.out b
    | none => s) s

/-! Variables (R335, R347, R348, R355). -/

/-- IDENTITY of a variable (R350). -/
def identityOf (v : VarDecl) : List Byte := slice (Config.sha384 (v.path ++ [0] ++ leBytes 8 v.hash)) 0 8

def padTo8 (b : List Byte) : List Byte := b ++ List.replicate ((8 - b.length % 8) % 8) 0

/-- One record of a retain slot (R350). -/
def retainRecord (v : VarDecl) (val : List Byte) : List Byte :=
  identityOf v ++ leBytes 4 val.length ++ leBytes 1 (b2n v.retain + 2 * b2n v.persistent) ++ leBytes 1 v.task ++ [0, 0] ++ padTo8 val

/-- The records of a retain block as (IDENTITY, value); `fuel` bounds their number. -/
def retainParse : Nat → List Byte → List (List Byte × List Byte)
  | 0, _ => []
  | fuel + 1, b =>
    if b.length < 16 then []
    else
      let len := leNat (slice b 8 4)
      (b.take 8, slice b 16 len) :: retainParse fuel (b.drop (16 + (len + 7) / 8 * 8))

/-- Retained bytes with record headers (R348). -/
def retainSize (img : ProgramImage) : Nat :=
  img.vars.foldl (fun n v => if v.retain || v.persistent then n + 16 + (v.size + 7) / 8 * 8 else n) 0

/-- The latest captures of every task, in task order (R350). -/
def captures (s : State) : List Byte := s.tasks.flatMap fun r => if r.2.decl.isSome then r.2.capture else []

/-- Numbered variables of an image. -/
def numbered (img : ProgramImage) : List (Nat × VarDecl) := (List.range img.vars.length).zip img.vars

/-- The value of variable k: its record in the captures, else its published value, else its initial value. -/
def varValue (s : State) (k : Nat) (v : VarDecl) : List Byte :=
  let kept := if v.retain || v.persistent then
      let c := captures s
      ((retainParse c.length c).find? fun r => r.1 = identityOf v).map (·.2)
    else none
  kept.getD (getAt v.init s.prog.exch k)

/-- Every task's capture encoded from the values of its variables. -/
def encodeCaptures (s : State) : State :=
  let img := imageOf s
  s.tasks.foldl (fun s r =>
    if r.2.decl.isNone then s
    else
      let block := (numbered img).flatMap fun p =>
        if (p.2.retain || p.2.persistent) && p.2.task = r.1 then retainRecord p.2 (getAt p.2.init s.prog.exch p.1) else []
      s.setTask r.1 { s.task r.1 with capture := block, captureAt := s.clock.tick }) s

/-- Variables at an event of R347: those for which `keep` holds keep their values, the others take their initial values. -/
def resetVars (s : State) (keep : VarDecl → Bool) : State :=
  let ex := (numbered (imageOf s)).foldl (fun (m : Map (List Byte)) p =>
    setAt m p.1 (if keep p.2 then varValue s p.1 p.2 else p.2.init)) []
  encodeCaptures (s.setProg { s.prog with exch := ex })

/-- Start kinds of R347: 0 CONTINUE, 1 WARM, 2 COLD. -/
def startVars (s : State) (kind : Nat) : State :=
  match kind with
  | 0 => s
  | 1 => resetVars s fun v => v.retain || v.persistent
  | _ => resetVars s (·.persistent)

/-- A write of OD 8020:0A (R347). -/
def resetRetained (s : State) (persistent : Bool) : State :=
  resetVars s fun v => !(if v.persistent then persistent else v.retain)

/-! Releases (R328 to R333). -/

/-- Actions of tasks are withdrawn, all of them or those of one task. -/
def withdrawTask (s : State) (i : Option Nat) : State :=
  let gone := fun (a : Action) => match a.work with
    | .taskRelease j => i = none || i = some j
    | _ => false
  { s with actions := { s.actions with armed := s.actions.armed.filter (fun a => !gone a),
                                       due := s.actions.due.filter fun d => !gone d.action } }

/-- The number of the first target of a TIME task at or after a time-base value (R329). -/
def timeIndex (d : TaskDecl) (val : Nat) : Nat :=
  let u := 2 ^ 32
  if val ≤ d.offset * u then 0 else (val - d.offset * u + d.period * u - 1) / max 1 (d.period * u)

def timeTarget (d : TaskDecl) (k : Nat) : Nat := (k * d.period + d.offset) * 2 ^ 32

def armTime (s : State) (i : Nat) (d : TaskDecl) (k : Nat) : State :=
  armAction s (.tb d.source (timeTarget d k)) false 0 false (.taskRelease i)

/-- A LEADPOS of 0x8000_0000_0000_0000 is unused (R365). -/
def unusedPos : Nat := 2 ^ 63

/-- On a CYCLIC Lead only the fraction counts: the first lap position that is not past due (R330). -/
def armedPos (s : State) (d : TaskDecl) (p : Nat) : Nat :=
  if cyclicLead s d.source then
    let back := bit d.options 0
    let l := s.lead d.source
    let t0 := moveLaps (l.pos64 / 2 ^ 32 * 2 ^ 32 + p % 2 ^ 32) 1 (!back)
    let t := if back then moveLaps (l.pos64 / 2 ^ 32 * 2 ^ 32 + p % 2 ^ 32) 1 false else moveLaps t0 0 false
    if pastDue s (.lead d.source t) back then moveLaps t (lapsToMove s d.source t back) back else t
  else p

/-- Positions of a LEAD task as Lead actions; those fired on an ABSOLUTE Lead stay removed (R330). -/
def leadKinds (s : State) (d : TaskDecl) : List ActionKind :=
  (d.positions.filter fun p => p ≠ unusedPos && (cyclicLead s d.source || !(s.task d.number).spent.contains p)).map fun p => .lead d.source (armedPos s d p)

/-- (DEDUCED, notes/assumptions/78.md) -/
def armLead (s : State) (i : Nat) (d : TaskDecl) : State :=
  (leadKinds s d).foldl (fun s k => armAction s k (bit d.options 0) (bits d.options 2 1) (cyclicLead s d.source) (.taskRelease i)) s

/-- The actions of a task are armed for releases from now on. -/
def armTask (s : State) (i : Nat) (d : TaskDecl) : State :=
  match d.kind with
  | 1 => armTime s i d (timeIndex d (predictTb s d.source 2))
  | 2 => armLead s i d
  | _ => s

/-- An output image comes into force (R333). -/
def outputsNow (s : State) (i : Nat) : State :=
  match (s.task i).out with
  | some (l, _) => (l.foldl (fun s o => writeOwned s o.1 o.2) s).setTask i { s.task i with out := none }
  | none => s

/-- Whether a release of task i would be held in HOLD (R346). -/
def heldInHold (s : State) (i : Nat) : Bool := progState s = psHold && s.prog.stepping ≠ some i

/-- A release of task i falls at the present boundary (R339, R342, R343, R353, R358). -/
def fallRelease (s : State) (i : Nat) (r : Release) : State :=
  let t := s.task i
  let suspended := s.bump (taskIdx i) 0x1C
  if t.decl.isNone || t.core.isNone || t.halted || !(progState s = psRun || progState s = psHold) then s
  else if !s.cxUp then
    if (t.decl.map (·.kind)) = some 2 then suspended.setTask i { t with merged := t.merged + r.merged } else suspended
  else if heldInHold s i then suspended
  else if t.running then
    (if t.atBreak || s.prog.pausing then suspended else s.bump (taskIdx i) 0x17).setTask i { t with fell := true }
  else if t.due.isSome then (if s.prog.pausing then suspended else s.bump (taskIdx i) 0x17)
  else
    let s := if s.prog.stepping = some i then s.setProg { s.prog with stepping := none } else s
    s.setTask i { t with due := some r, lastRel := some r.rtick }

/-- A release instant of a CYCLE or TIME task: its outputs come into force, then the release falls. -/
def releaseInstant (s : State) (i : Nat) (r : Release) : State := fallRelease (outputsNow s i) i r

def plainRelease (s : State) (cause late merged : Nat) (isLate : Bool) : Release :=
  ⟨s.clock.tick, s.now, 0, cause, late, merged, isLate⟩

/-- CYCLE releases of a line-cycle boundary (R328). -/
def cycleReleases (s : State) : State :=
  s.tasks.foldl (fun s r => match r.2.decl with
    | some d =>
      if d.kind = 0 && s.rn 0x2000 5 % max 1 d.period = d.offset then releaseInstant s r.1 (plainRelease s 0 0 1 false) else s
    | none => s) s

/-- The release of a LEAD task at a crossing `ago` ns back, or its deferral (R330). -/
def leadRelease (s : State) (i : Nat) (d : TaskDecl) (r : Release) (ago : Nat) : State :=
  let t := s.task i
  match t.lastRel with
  | some p =>
    if r.rtick * 6250 < p * 6250 + d.interval && s.cxUp then
      let at_ := (p * 6250 + d.interval + 6249) / 6250
      match t.deferAt with
      | some (a, n, c) => s.setTask i { t with deferAt := some (a, n + 1, c) }
      | none => s.setTask i { t with deferAt := some (at_, 1, s.now - ago * 2 ^ 32) }
    else fallRelease s i r
  | none => fallRelease s i r

/-- The action of task i fires at the present boundary (R329, R330). -/
def taskAction (s : State) (i : Nat) (kind : ActionKind) (status offset : Nat) : State :=
  match (s.task i).decl with
  | none => s
  | some d =>
    let isLate := bit status 0 || bit status 1
    match kind with
    | .tb n target =>
      let val := (s.tb n).val
      let k := (target / 2 ^ 32 - d.offset) / max 1 d.period
      let next := max (k + 1) (timeIndex d (val + 1))
      let s := armTime s i d next
      let s := s.countBy (taskIdx i) 0x17 32 (next - k - 1)
      releaseInstant s i { plainRelease s (b2n isLate) (if isLate then (val - target) / 2 ^ 32 else 0) 1 isLate with leadPos := 0 }
    | .lead n p =>
      let cause := if bit status 2 then 2 else b2n isLate
      let late := if isLate then s.rn 0x2050 4 else (6250 - offset) % 6250
      let s := if cyclicLead s n then s else s.setTask i { s.task i with spent := p :: (s.task i).spent }
      leadRelease s i d { plainRelease s cause (if cause = 0 then 0 else late) 1 isLate with leadPos := (s.lead n).pos64 } late
    | .nextBoundary => s

/-- What a base-tick boundary brings to the tasks: outputs of LEAD tasks, and deferred releases (R330, R333, R339). -/
def tasksAtTick (s : State) : State :=
  s.tasks.foldl (fun s r =>
    let i := r.1
    let s := match (s.task i).out with
      | some (_, some t) => if t ≤ s.clock.tick then outputsNow s i else s
      | _ => s
    let t := s.task i
    match t.deferAt, t.decl with
    | some (at_, n, c), some d =>
      if at_ ≤ s.clock.tick then
        let s := s.setTask i { t with deferAt := none }
        fallRelease s i { plainRelease s 3 ((s.now - c) / 2 ^ 32) n false with leadPos := (s.lead d.source).pos64 }
      else s
    | _, _ => s) s

/-- The input image of the present boundary (R332). -/
def takeImage (s : State) (i : Nat) : InputImage where
  stations := s.stations.map fun r => (r.1, r.2.inputs, r.2.stale, r.2.late)
  chans := s.chans.map fun r => (r.1, s.chanOut r.1)
  axes := s.axes.map fun r => (r.1, axisStatus s r.1, r.2.sp.getD r.2.p)
  groups := s.groups.map fun r => (r.1, groupStatus s r.1)
  leads := (List.range 8).map fun n => ((s.lead n).pos64, (s.lead n).vel)
  tbs := (List.range 8).map fun n => toTbtime (s.tb n).val
  convs := s.ains.map fun r => (r.1, r.2.atCx)
  dins := s.dins.map fun r => (r.1, r.2.cur)
  rwc := s.dict.latched
  exch := s.prog.exch
  jobs := (s.task i).results
  windows := s.clock.results

/-- Exported writes are applied between cycles of the writing task (R367). -/
def applyExports (s : State) (i : Nat) : State :=
  let t := s.task i
  let ex := t.writes.foldl (fun (m : Map (List Byte)) e =>
    match (imageOf s).exports.find? fun x => x.index = e.index && x.sub = e.sub with
    | some x => setAt m x.var e.val.octets
    | none => m) s.prog.exch
  (s.setProg { s.prog with exch := ex }).setTask i { t with writes := [] }

/-- At offset 1,000 ns of the release boundary the input image is taken and the cycle is dispatchable (R332). -/
def takeRelease (s : State) (i : Nat) : State :=
  let t := s.task i
  match t.due, t.decl, t.core with
  | some r, some d, some core =>
    if s.prog.pausing || t.running then s
    else
      let s := applyExports s i
      let t := s.task i
      let jumped : Bool := r.cause = 2
      let deferred : Bool := r.cause = 3
      let s := if r.late || jumped || deferred then s.bump (taskIdx i) 0x19 else s
      let r := if t.nextCause = 0 then r else { r with cause := t.nextCause }
      let dl := if d.kind = 2 then some (r.rtick + (d.deadline + 6249) / 6250) else none
      let s := s.setTask i
        { t with due := none, running := true, atBreak := false, counted := false, missed := false, fell := false, rel := some r,
                 input := some (takeImage s i), results := [], deadline := dl, nextCause := 0,
                 window := (false :: t.window).take 1000, lateF := r.late, jumpedF := jumped, deferredF := deferred,
                 resumedF := t.nextCause = 5, exchanged := t.nextCause = 6, throttled := s.gov.step ≥ 2 }
      enterItem s ⟨.taskRelease, i, Fin.ofNat 64 d.prio, BitVec.ofNat 8 (2 ^ core)⟩
  | _, _, _ => s

/-! Cycles (R334, R336, R339 to R342). -/

/-- A cycle is rolled back (R336). -/
def rollback (s : State) (i : Nat) : State :=
  let t := s.task i
  if t.running then
    (s.setTask i { t with running := false, atBreak := false, input := none, deadline := none, rolledF := true }).bump (taskIdx i) 0x18
  else s

/-- Number of overruns among the last 1,000 releases (R340). -/
def windowCount (t : TaskRec) : Nat := (t.window.filter id).length

/-- STOP at a boundary s that follows (R344): the earliest request stands. -/
def requestStop (s : State) (cause : Nat) : State :=
  if s.prog.stopAt.isSome then s else s.setProg { s.prog with stopAt := some (s.soonLc, cause) }

/-- The reaction of a task (R341). -/
def taskReaction (s : State) (i cause : Nat) : State :=
  let s := s.setTask i { s.task i with react := none }
  let s := setObjects s (s.rn (taskIdx i) 0x10) 3
  match s.rn (taskIdx i) 0x0F with
  | 0 => s.setTask i { s.task i with exceeded := true }
  | 1 => rollback s i
  | 2 =>
    let s := rollback s i
    let s := s.setTask i { s.task i with halted := true, due := none, deferAt := none, out := none }
    s.setProg { s.prog with orphans := s.prog.orphans ++ (imageOf s).outputs.filter (fun d => d.task = i) }
  | _ => requestStop (rollback s i) cause

/-- A cycle counts its one overrun; a tolerance that is exceeded makes the reaction due (R339, R340). (DEDUCED,
notes/assumptions/81.md) -/
def countOverrun (s : State) (i : Nat) : State :=
  let t := s.task i
  if t.counted then s
  else
    let s := s.bump (taskIdx i) 0x16
    let t := { t with counted := true, overran := true, consec := t.consec + 1, window := true :: t.window.drop 1 }
    let hit := t.consec > s.rn (taskIdx i) 0x0D || windowCount t > s.rn (taskIdx i) 0x0E
    s.setTask i { t with react := if hit then some 2 else t.react }

/-- Whether R342 keeps a cycle from counting an overrun. -/
def overrunExempt (s : State) (i : Nat) : Bool :=
  (s.task i).atBreak || progState s = psHold || s.prog.pausing || !s.cxUp || (s.task i).exchanged && (s.task i).lateF

/-- A task's budget in ns of wall time at the present APP clock (R338). -/
def scaledBudget (s : State) (d : TaskDecl) : Nat := d.budget * 1600 / max 1 (s.rn 0xB040 3)

/-- The execution time reaches the budget (R339), which it cannot before that much time has passed since the release. -/
def budgetOverrun (s : State) (i : Nat) : State :=
  let t := s.task i
  match t.decl, t.rel with
  | some d, some r =>
    if t.running && !overrunExempt s i && scaledBudget s d < (s.clock.tick + 1 - r.rtick) * 6250 then countOverrun s i else s
  | _, _ => s

/-- Whether the deadline boundary of the cycle of task i is the next base-tick boundary or lies behind (R333). -/
def deadlineNext (s : State) (i : Nat) : Bool :=
  let t := s.task i
  t.fell ||
  match t.decl with
  | none => false
  | some d =>
    if d.kind = 0 then
      let r := s.clock.tick + 1
      r % s.lcLen = s.lcPhase && (s.rn 0x2000 5 + 1) % max 1 d.period = d.offset
    else if d.kind = 1 then
      s.actions.armed.any fun a => match a.work, a.kind with
        | .taskRelease j, .tb n target => j = i && target ≤ predictTb s n 1
        | _, _ => false
    else t.deadline.any (· ≤ s.clock.tick + 1)

/-- A cycle has not completed at its deadline (R339, R342). -/
def deadlineMiss (s : State) (i : Nat) : State :=
  let t := s.task i
  if !t.running || t.missed || !deadlineNext s i then s
  else
    let s := s.setTask i { t with missed := true }
    if overrunExempt s i then s else countOverrun s i

/-- Completion of a cycle, up to its dictionary writes: exchange variables, retain capture, output image (R333, R334). (DEDUCED,
notes/assumptions/79.md; DESIGN CHOICE, notes/assumptions/119.md) -/
def completeCycle (s : State) (i : Nat) (r : CycleResult) : State :=
  let s := if (s.task i).decl.any (fun d => scaledBudget s d ≤ r.execNs) then budgetOverrun s i else s
  let t := s.task i
  let ex := r.exported.foldl (fun (m : Map (List Byte)) p => setAt m p.1 p.2) s.prog.exch
  let own := r.outputs.filter fun o => (imageOf s).outputs.any fun d => d.out = o.1 && d.task = i
  let isLead := (t.decl.map (·.kind)) = some 2
  let tick := if !isLead then none else if t.missed then some (s.clock.tick + 1) else t.deadline
  let consec := if t.counted then t.consec else 0
  let s := s.setProg { s.prog with exch := ex }
  let s := s.setTask i
    { t with running := false, input := none, deadline := none, capture := r.retain,
             captureAt := (t.rel.map (·.rtick)).getD 0, out := some (own, tick), overran := t.counted, rolledF := false,
             consec := consec, throttled := t.throttled || s.gov.step ≥ 2 }
  let s := (s.bump64 (taskIdx i) 0x15).setNum (taskIdx i) 0x12 (r.execNs % 2 ^ 32)
  s.setNum (taskIdx i) 0x13 (max (s.rn (taskIdx i) 0x13) (r.execNs % 2 ^ 32))

/-- The reaction that is due is taken (R340, R341). -/
def overrunReaction (s : State) (i : Nat) : State :=
  match (s.task i).react with
  | some c => taskReaction s i c
  | none => s

/-- A trap (R326). -/
def cycleTrap (s : State) (i : Nat) : State :=
  if (s.task i).running then taskReaction (rollback s i) i 6 else s

/-- Tasks that no core can hold take their reaction with cause NO_CORE (R337). -/
def coreReactions (s : State) : State :=
  s.tasks.foldl (fun s r => if (s.task r.1).react = some 7 then taskReaction s r.1 7 else s) s

/-- A cycle in progress on a core that was retired is rolled back, its release counted as skipped (R390). -/
def retiredCores (old s : State) : State :=
  old.tasks.foldl (fun s r =>
    match r.2.core with
    | some c =>
      if (s.task r.1).running && (s.task r.1).core ≠ some c && (s.unit (96 + c)).st = usRetired then
        (rollback s r.1).bump (taskIdx r.1) 0x17
      else s
    | none => s) s

/-! Program states (R343 to R346). -/

/-- The program enters STOP: cycles in progress are rolled back, outputs take their STOP values, the STOP object mask is set (R344,
R345). -/
def enterStop (s : State) (cause : Nat) : State :=
  let s := s.tasks.foldl (fun s r => rollback s r.1) s
  let s := s.tasks.foldl (fun s r =>
    s.setTask r.1 { s.task r.1 with due := none, deferAt := none, merged := 0, out := none, atBreak := false }) s
  let s := withdrawTask s none
  let s := stopValues s (imageOf s).outputs
  let s := s.setProg { s.prog with stopAt := none, runAt := none, stepping := none }
  setProgState (setObjects (s.setNum 0x8030 0x11 0xFF) (imageOf s).stopMask 3) psStop cause

/-- The program enters RUN at boundary s: variables by the start kind, first releases from now on (R344, R347). -/
def enterRun (s : State) (kind cause : Nat) : State :=
  let s := startVars s kind
  let s := s.tasks.foldl (fun s r =>
    let t := s.task r.1
    let s := s.setTask r.1 { t with halted := false, exceeded := false, nextCause := 4, lastRel := none, due := none, deferAt := none,
                                    merged := 0, react := none }
    match t.decl with
    | some d => armTask s r.1 d
    | none => s) (withdrawTask s none)
  setProgState (s.setProg { s.prog with runAt := none, fresh := false }) psRun cause

/-- Why a RUN command is refused (R344, R347). -/
def runAbort (s : State) : Nat :=
  if progState s ≠ psStop || (s.rn 0x8000 5 = 0 && s.prog.fresh) then abLocked else abOk

/-- (DEDUCED, notes/assumptions/80.md) -/
def progRun (s : State) : State := s.setProg { s.prog with runAt := some (s.prog.runAt.getD s.soonLc) }

def stopAbort (s : State) : Nat := if progState s = psRun || progState s = psHold then abOk else abLocked

def progStop (s : State) : State := requestStop s 1

def holdAbort (s : State) : Nat := if progState s = psRun && s.rn 0x8000 8 = 1 then abOk else abLocked

/-- HOLD holds each task at its next release (R346). -/
def progHold (s : State) (cause : Nat) : State :=
  setProgState (s.setProg { s.prog with holdFrom := s.now, stepping := none }) psHold cause

def inHoldAbort (s : State) : Nat := if progState s = psHold then abOk else abLocked

/-- RESUME: tasks continue at their next releases, and a suspended cycle continues (R346). -/
def progResume (s : State) : State :=
  let s := s.tasks.foldl (fun s r => s.setTask r.1 { s.task r.1 with atBreak := false }) s
  setProgState ((s.setNum 0x8030 0x11 0xFF).setProg { s.prog with stepping := none }) psRun 1

/-- STEP: one cycle of the task of OD 8000:09 runs (R344). -/
def progStep (s : State) : State := s.setProg { s.prog with stepping := some (s.rn 0x8000 9) }

/-- A cycle reaches an enabled breakpoint (R346, R364). -/
def breakpointHit (s : State) (b i : Nat) : State :=
  let w := s.rn 0x8030 (b + 1)
  if s.rn 0x8000 8 = 1 && (progState s = psRun || progState s = psHold) && bit w 63 &&
      (bits w 55 48 = i || bits w 55 48 = 0xFF) && (s.task i).running && !(s.task i).atBreak then
    let s := s.setTask i { s.task i with atBreak := true }
    let s := if progState s = psRun then progHold s 0 else s
    s.setNum 0x8030 0x11 b
  else s

/-- HOLD has lasted for its timeout, in TB time of the tick time base (R346). -/
def holdTimeout (s : State) : State :=
  let limit := s.rn 0x8000 7
  if progState s = psHold && limit ≠ 0 && s.prog.holdFrom + limit * secUnits < s.now + tickUnits then requestStop s 4 else s

/-- The shutdown step of the power-fail sequence (R344): cycles in progress are abandoned. -/
def powerFailStop (s : State) : State :=
  if progState s = psRun || progState s = psHold then enterStop s 3 else s

/-! Retained variables (R349 to R352). -/

/-- A retain slot (R350). -/
def retainSlot (s : State) (kind : Nat) : List Byte :=
  let recs := captures s
  let head := leBytes 8 s.prog.seq ++ leBytes 1 kind ++ List.replicate 7 0 ++ leBytes 8 (digest8 s.prog.activeRaw) ++
    leBytes 8 (s.rn 0x2000 5) ++ leBytes 12 (toTbtime (s.tb 0).val) ++ leBytes 4 recs.length ++
    leBytes 4 (retainParse recs.length recs).length ++ List.replicate 8 0
  head ++ leBytes 4 (crc32 (head ++ recs)).toNat ++ recs

/-- The next slot is written. -/
def writeSlot (s : State) (kind : Nat) : State :=
  let q := s.prog.seq
  let s := s.setProg { s.prog with slots := setAt s.prog.slots (q % 64) (retainSlot s kind), seq := q + 1 }
  s.setNum 0x8020 2 q

/-- A commit (R350, R358). -/
def retainCommit (s : State) : State :=
  if s.prog.commitDue && s.cxUp then
    let s := writeSlot s s.prog.commitKind
    ((s.setProg { s.prog with commitDue := false, commitKind := 1 }).setNum 0x8020 3 s.clock.tick).bump 0x8020 5
  else s

/-- A commit becomes due at priority 0 (R350). -/
def dueCommit (s : State) (kind : Nat) : State :=
  enterItem (s.setProg { s.prog with commitDue := true, commitKind := kind }) ⟨.retainCommit, 0, 0, 0xFF⟩

/-- The flush of a power-fail warning (R351): a commit in progress is abandoned and its slot is left invalid. -/
def retainFlush (s : State) : State :=
  if s.prog.active.isNone then s
  else
    let busy := s.prog.commitDue && s.sched.cores.any fun c => c.2.any fun it => it.kind = .retainCommit
    let s := if busy then
        let q := s.prog.seq
        (s.setProg { s.prog with slots := setAt s.prog.slots (q % 64) [], seq := q + 1, commitDue := false }).bump 0x8020 0x0B
      else s
    let s := writeSlot s 2
    let f := s.free
    ((f.2.setNum 0x8020 4 s.clock.tick).bump 0x8020 6).setNum 0x8020 7 (f.1 % 1000001)

/-- Whether a slot's bytes pass its CRC. -/
def slotValid (b : List Byte) : Bool :=
  b.length ≥ 64 && leNat (slice b 60 4) = (crc32 (b.take 60 ++ b.drop 64)).toNat && b.length = 64 + leNat (slice b 44 4)

/-- The valid slot with the highest SEQUENCE (R352). -/
def newestSlot (s : State) : Option (List Byte) :=
  ((s.prog.slots.map (·.2)).filter slotValid).foldl (fun o b => match o with
    | some a => if leNat (slice a 0 8) < leNat (slice b 0 8) then some b else some a
    | none => some b) none

/-- Retained variables are restored (R352). (DEDUCED, notes/assumptions/83.md) -/
def restoreRetained (s : State) : State :=
  match newestSlot s with
  | none =>
    let ex := (numbered (imageOf s)).map fun p => (p.1, p.2.init)
    encodeCaptures ((s.setProg { s.prog with exch := ex }).setNum 0x8020 8 1)
  | some b =>
    let q := leNat (slice b 0 8)
    let recs := retainParse b.length (b.drop 64)
    let ex := (numbered (imageOf s)).map fun p =>
      let kept := if p.2.retain || p.2.persistent then recs.find? fun r => r.1 = identityOf p.2 else none
      (p.1, (kept.map (·.2)).getD p.2.init)
    let next := (q + 1) % 64
    let older := s.prog.slots.any fun r => r.1 = next && !slotValid r.2
    encodeCaptures (((s.setProg { s.prog with exch := ex, seq := max s.prog.seq (q + 1) }).setNum 0x8020 8 (if older then 2 else 0)).setNum
      0x8020 9 q)

/-! Images and the exchange (R324, R354 to R360). -/

/-- Every task of an image placed on a core beside no other tasks (R337): none where one fails. -/
def placeTasks (s : State) (img : ProgramImage) : Option State :=
  let bare := s.tasks.foldl (fun s r => s.setTask r.1 { s.task r.1 with core := none, decl := none }) s
  let bare := { bare with ost := { bare.ost with resvs := bare.ost.resvs.filter fun r => r.kind ≠ 3 } }
  let set := img.tasks.foldl (fun s d => s.setTask d.number { s.task d.number with decl := some d, noCore := false }) bare
  img.tasks.foldl (fun o d => o.bind fun s => if (place s 3 d.number).1 then some (place s 3 d.number).2 else none) (some set)

/-- The task set of an image placed task by task; one that no core can hold takes its reaction with cause NO_CORE (R337, R358). -/
def placeEach (s : State) (img : ProgramImage) : State :=
  match placeTasks s img with
  | some p => p
  | none =>
    let bare := s.tasks.foldl (fun s r => s.setTask r.1 { s.task r.1 with core := none, decl := none }) s
    img.tasks.foldl (fun s d =>
      let s := s.setTask d.number { s.task d.number with decl := some d, noCore := false }
      if (place s 3 d.number).1 then (place s 3 d.number).2
      else s.setTask d.number { s.task d.number with noCore := true, react := some 7 }) bare

/-- The code byte of a carry report with the path it reports (R362). -/
def reportItem (path : List Byte) (code : Fin 3) : List Byte := leBytes 2 path.length ++ path ++ [Config.carryCode code]

/-- The carry map of a new image beside the old one (R355): carried bytes, counts of Carried, New, Type changed and Dropped, and the
report. -/
def carryMap (old new : ProgramImage) : Nat × Nat × Nat × Nat × Nat × List Byte :=
  let was := fun (v : VarDecl) => old.vars.find? fun o => o.path = v.path
  let same := fun (v : VarDecl) => (was v).any fun o => o.hash = v.hash
  let carried := new.vars.filter same
  let fresh := new.vars.filter fun v => (was v).isNone
  let typed := new.vars.filter fun v => (was v).isSome && !same v
  let gone := old.vars.filter fun o => !(new.vars.any fun v => v.path = o.path)
  (carried.foldl (fun n v => n + v.size) 0, carried.length, fresh.length, typed.length, gone.length,
    fresh.flatMap (fun v => reportItem v.path 0) ++ typed.flatMap (fun v => reportItem v.path 1) ++
      gone.flatMap fun v => reportItem v.path 2)

/-- The new values of the variables of an image, carried where path and type hash are equal (R355) and `keep` allows it (R360). -/
def carriedVars (s : State) (new : ProgramImage) (keep : VarDecl → Bool) : Map (List Byte) :=
  let old := numbered (imageOf s)
  (numbered new).map fun p =>
    match old.find? fun o => o.2.path = p.2.path && o.2.hash = p.2.hash with
    | some o => (p.1, if keep p.2 then varValue s o.1 o.2 else p.2.init)
    | none => (p.1, p.2.init)

/-- A segment of the inactive bank is refused while it is ARMED or EXCHANGING (R354). -/
def bankBusy (s : State) : Bool := s.prog.xst = bkArmed || s.prog.xst = bkExchanging

def bankSegment (s : State) : State := s.setProg { s.prog with xst := bkLoading, bank := none, bankRaw := [] }

/-- (DEDUCED, notes/assumptions/112.md) -/
def bankImage (s : State) (raw : List Byte) : State := s.setProg { s.prog with xst := bkLoaded, bank := none, bankRaw := raw }

/-- The checks of an image (R324, R337, R348, R354), STREAM_TAKEN of R458 among them. -/
def imageAbort (s : State) (raw : List Byte) : Nat :=
  if !Config.chainsTo raw ((s.lay.base.map (·.progAnchors)).getD []) then abSignature
  else
    match Config.programImage raw with
    | none => abImageRefused
    | some img =>
      if (placeTasks s img).isNone then abTaskRefused
      else if retainSize img > 262144 then abRetainSize
      else if imageOutputsTaken s img then abOutputOwned
      else if img.streams.any (fun f => (List.range 8).any fun t =>
          s.rn (0xF400 + t) 1 = 2 && s.rn (0xF400 + t) 0x0C = f && (s.trace t).st = 4) then 0x9001
      else abOk

/-- VERIFY needs a complete image (R354, R368). -/
def verifyAbort (s : State) : Nat :=
  if bankBusy s then abLocked else if s.prog.xst = bkLoaded || s.prog.xst = bkPrepared then abOk else abNotPrepared

/-- VERIFY: the bank becomes PREPARED with its carry report, or REFUSED with an abort code (R354). -/
def verifyImage (s : State) : Nat × State :=
  let code := imageAbort s s.prog.bankRaw
  if code ≠ abOk then (code, s.setProg { s.prog with xst := bkRefused, bank := none })
  else
    let img := (Config.programImage s.prog.bankRaw).getD emptyImage
    let m := carryMap (imageOf s) img
    let s := s.setProg { s.prog with xst := bkPrepared, bank := some img }
    let s := (((s.setNum 0x8010 8 (m.1 / 4 % 2 ^ 32)).setNum 0x8010 9 m.2.1).setNum 0x8010 0x0A m.2.2.1).setNum 0x8010 0x0B m.2.2.2.1
    let f := s.free
    let s := (f.2.setNum 0x8010 0x0C m.2.2.2.2.1).setNum 0x8010 0x0D (f.1 % (m.2.1 + 1))
    (abOk, s.setReg 0x8010 0x0E (.oct (m.2.2.2.2.2.take 4194304)))

/-- Why an EXCHANGE is refused (R354). -/
def exchangeAbort (s : State) : Nat :=
  if progState s = psHold || progState s = psNone || s.prog.xst = bkExchanging then abLocked
  else if s.rn 0x8010 6 + s.rn 0x8010 8 > s.rn 0x8010 7 && s.prog.xst = bkPrepared then abExchangeTooLong
  else if s.prog.xst ≠ bkPrepared then abNotPrepared
  else abOk

/-- EXCHANGE stored: X is the first line-cycle boundary at least 2 base ticks later, or at the instant of application (R357). -/
def armExchange (s : State) (who : Option (ClientId × Nat)) (scheduled : Bool) : State :=
  s.setProg { s.prog with xst := bkArmed, xWho := who,
                          xAt := some (if scheduled then s.nextLc s.clock.tick else s.soonLc) }

/-- An EXCHANGE accepted with an apply block waits for its instant in ARMED. -/
def holdExchange (s : State) (who : ClientId × Nat) : State :=
  s.setProg { s.prog with xst := bkArmed, xWho := some who, xAt := none }

/-- CANCEL of an ARMED exchange (R354). -/
def cancelExchange (s : State) : State :=
  if s.prog.xst = bkArmed then s.setProg { s.prog with xst := bkPrepared, xWho := none, xAt := none } else s

/-- Boundary X (R358). -/
def beginExchange (s : State) : State :=
  (s.setProg { s.prog with xst := bkExchanging, xAt := none, xWho := none, pausing := true, xTick := s.clock.tick }).setNum 0x8010 0x0F
    s.clock.tick

/-- The pause limit passes: cycles still in progress are rolled back (R358). -/
def pauseLimit (s : State) : State :=
  if s.prog.pausing && s.rn 0x8010 6 < (s.clock.tick + 1 - s.prog.xTick) * 6250 then
    let n := (s.tasks.filter fun r => r.2.running).length
    (s.tasks.foldl (fun s r => rollback s r.1) s).countBy 0x8010 0x11 32 n
  else s

/-- The banks change places and the new image's tasks, variables and outputs take over (R355, R358, R359, R360). -/
def swapPrograms (s : State) (keep : VarDecl → Bool) (placed : State) : State :=
  let new := s.prog.bank.getD emptyImage
  let old := imageOf s
  let vars := carriedVars s new keep
  let s := placed
  let p := s.prog
  let s := s.setProg
    { p with active := some new, activeRaw := p.bankRaw, bank := none, bankRaw := p.activeRaw,
             xst := if p.active.isSome then bkLoaded else bkEmpty, exch := vars,
             orphans := p.orphans ++ old.outputs.filter (fun d => !(new.outputs.any fun q => q.out = d.out)) }
  let s := stopValues s (new.outputs.filter fun d => !(old.outputs.any fun q => q.out = d.out))
  let s := forNums 16 (s.setNum 0x8030 0x11 0xFF) fun s b => s.setNum 0x8030 (b + 1) 0
  reportResponses (encodeCaptures s)

/-- The switch of an exchange, once no cycle runs (R358, R359). (DEDUCED, notes/assumptions/84.md) -/
def exchangeSwitch (s : State) : State :=
  if !s.prog.pausing || s.tasks.any (fun r => r.2.running) then s
  else
    let old := imageOf s
    let placed := placeEach s (s.prog.bank.getD emptyImage)
    let late := (s.clock.tick - s.prog.xTick) * 6250
    let s := swapPrograms s (fun _ => true) placed
    let s := withdrawTask s none
    let s := s.tasks.foldl (fun s r =>
      let t := s.task r.1
      let kept := old.tasks.any fun d => d.number = r.1
      let due := if kept && t.decl.isSome then
          t.due.map fun q => { q with late := true, lateness := (s.clock.tick - q.rtick) * 6250 }
        else none
      let s := s.setTask r.1 (if kept then { t with due := due, nextCause := 6, spent := [], react := if t.noCore then t.react else none } else
        { TaskRec.init with decl := t.decl, core := t.core, noCore := t.noCore, react := if t.noCore then t.react else none,
                              nextCause := 6 })
      match t.decl with
      | some d => if progState s = psRun then armTask s r.1 d else s
      | none => s) s
    let s := (s.setProg { s.prog with pausing := false }).setNum 0x8010 0x10 (late % 2 ^ 32)
    dueCommit s 3

/-- Why a DOWNLOAD is refused (R354, R360). (DEDUCED, notes/assumptions/82.md) -/
def downloadAbort (s : State) : Nat :=
  if progState s = psRun || progState s = psHold || bankBusy s then abLocked
  else if s.prog.xst = bkPrepared then abOk
  else if s.prog.xst = bkLoaded then imageAbort s s.prog.bankRaw
  else abNotPrepared

/-- DOWNLOAD: PERSISTENT variables are carried, every other one takes its initial value (R360). -/
def download (s : State) : State :=
  let s := s.setProg { s.prog with bank := Config.programImage s.prog.bankRaw }
  match placeTasks s (s.prog.bank.getD emptyImage) with
  | none => s
  | some placed =>
    let none_ := progState s = psNone
    let s := swapPrograms s (·.persistent) placed
    let s := s.tasks.foldl (fun s r => s.setTask r.1 { TaskRec.init with decl := (s.task r.1).decl, core := (s.task r.1).core }) s
    let s := encodeCaptures (s.setProg { s.prog with fresh := true })
    let s := stopValues s (imageOf s).outputs
    if none_ then setProgState (setObjects s (imageOf s).stopMask 3) psStop 0 else s

def discardAbort (s : State) : Nat := if bankBusy s then abLocked else abOk

def discardImage (s : State) : State := s.setProg { s.prog with xst := bkEmpty, bank := none, bankRaw := [] }

/-! Tasks (R341, R365, R366). -/

def restartAbort (s : State) (i : Nat) : Nat := if (s.task i).halted && progState s = psRun then abOk else abLocked

def restartTask (s : State) (i : Nat) : State := s.setTask i { s.task i with halted := false }

def clearStatistics (s : State) (i : Nat) : State :=
  [0x12, 0x13, 0x16, 0x17, 0x18, 0x19, 0x1C].foldl (fun s q => s.setNum (taskIdx i) q 0) s

/-- The 16 LEADPOS values of a record. -/
def positionsOf (b : List Byte) : List Nat := (List.range 16).map fun k => leNat (slice b (8 * k) 8)

/-- Why a write of trigger positions is refused: each is armed under R118. -/
def positionsAbort (s : State) (i : Nat) (b : List Byte) : Nat :=
  match (s.task i).decl with
  | some d =>
    if d.kind = 2 && progState s = psRun then
      let d := { d with positions := positionsOf b }
      (leadKinds (s.setTask i { s.task i with spent := [] }) d).foldl (fun c k =>
        if c ≠ abOk then c else actionAbort s k (bit d.options 0) (bits d.options 2 1) (cyclicLead s d.source)) abOk
    else abOk
  | none => abOk

def writePositions (s : State) (i : Nat) (b : List Byte) : State :=
  let t := s.task i
  match t.decl with
  | some d =>
    let d := { d with positions := positionsOf b }
    let s := s.setTask i { t with decl := some d, spent := [] }
    if d.kind = 2 && progState s = psRun then armLead (withdrawTask s (some i)) i d else s
  | none => s

/-- TASK_REFUSED of a budget (R337, R365). -/
def budgetAbort (s : State) (i v : Nat) : Nat :=
  match (s.task i).decl, (s.task i).core with
  | some d, some c =>
    if coreHolds s.lcLen ({ d with budget := v } :: (tasksOn s c).filter fun o => o.number ≠ i) then abOk else abTaskRefused
  | _, _ => abOk

def writeBudget (s : State) (i v : Nat) : State :=
  match (s.task i).decl with
  | some d => reportResponses (s.setTask i { s.task i with decl := some { d with budget := v } })
  | none => s

/-- An asynchronous library job completes (R369). -/
def jobComplete (s : State) (job i : Nat) (result : List Byte) : State :=
  if getAt none s.prog.jobs job = some i then
    (s.setTask i { s.task i with results := (s.task i).results ++ [(job, result)] }).setProg
      { s.prog with jobs := setAt s.prog.jobs job none }
  else s

/-- TASK_STATE of R366. -/
def taskState (s : State) (i : Nat) : Nat :=
  let t := s.task i
  let on := s.sched.cores.any fun c => c.2.any fun it => it.kind = .taskRelease && it.ident = i
  if t.halted then 4
  else if t.decl.isNone || !(progState s = psRun || progState s = psHold) then 5
  else if t.running then (if t.atBreak then 3 else if on then 2 else 1)
  else if (t.due.isSome && s.prog.pausing) || heldInHold s i then 3
  else 0

def taskStatus (s : State) (i : Nat) : Nat :=
  let t := s.task i
  taskState s i * 2 ^ 28 + b2n t.overran * 2 ^ 27 + b2n t.exceeded * 2 ^ 26 + b2n t.lateF * 2 ^ 25 + b2n t.jumpedF * 2 ^ 24 +
    b2n t.deferredF * 2 ^ 23 + b2n t.rolledF * 2 ^ 22 + b2n t.throttled * 2 ^ 21 + b2n t.resumedF * 2 ^ 20 +
    b2n t.exchanged * 2 ^ 19 + min 1023 (windowCount t) * 2 ^ 6 + min 63 t.consec

/-! Boundaries, start-up and restart. -/

/-- What a line-cycle boundary brings to the program: STOP, RUN and X, STOP values, the commit of each whole second, and CYCLE
releases (R328, R344, R350, R357). -/
def programAtLc (s : State) : State :=
  let reached := fun (t : Nat) => t ≤ s.clock.tick
  let s := match s.prog.stopAt with
    | some (t, c) => if reached t then enterStop s c else s
    | none => s
  let s := match s.prog.runAt with
    | some t => if reached t && progState s = psStop then enterRun s (s.rn 0x8000 5) 1 else s
    | none => s
  let s := match s.prog.xAt with
    | some t => if reached t then beginExchange s else s
    | none => s
  let s := stopValues s s.prog.orphans
  let s := s.setProg { s.prog with orphans := [] }
  let sec := s.now / secUnits
  let s := if sec > s.prog.lastSecond then
      let s := s.setProg { s.prog with lastSecond := sec }
      if s.prog.active.isSome then dueCommit s 1 else s
    else s
  cycleReleases s

/-- Step 0x09 of start-up (R347, R352, R512, R515). -/
def programStart (s : State) : State :=
  let raw := s.prog.activeRaw
  if raw.isEmpty || imageAbort s raw ≠ abOk then setProgState (s.setProg { s.prog with active := none }) psNone 0
  else
    let img := (Config.programImage raw).getD emptyImage
    match placeTasks s img with
    | none => setProgState (s.setProg { s.prog with active := none }) psNone 0
    | some p =>
      let s := restoreRetained (p.setProg { p.prog with active := some img, fresh := true })
      let s := stopValues (reportResponses s) img.outputs
      if s.rn 0x8000 6 = 1 then enterRun s 1 0 else setProgState s psStop 0

/-- The runtime returns from a CX warm restart (R353). (DEDUCED, notes/assumptions/49.md) -/
def programReturn (s : State) (good : Bool) : State :=
  let s := s.tasks.foldl (fun s r => rollback s r.1) s
  if !good then
    if s.prog.active.isNone then s
    else
      let s := restoreRetained s
      if s.rn 0x8000 6 = 1 then enterRun s 1 5 else enterStop s 5
  else
    s.tasks.foldl (fun s r =>
      let t := s.task r.1
      let s := s.setTask r.1 { t with nextCause := 5, merged := 0 }
      if t.merged > 0 then
        match t.decl with
        | some d => fallRelease s r.1 { plainRelease s 1 0 t.merged true with leadPos := (s.lead d.source).pos64 }
        | none => s
      else s) s

/-- The exported entry of the active image (R367). -/
def exportOf (s : State) (index sub : Nat) : Option ExportDecl := (imageOf s).exports.find? fun x => x.index = index && x.sub = sub

/-- The value of an exported variable: that of the writing task's last completion (R367). -/
def exportValue (s : State) (x : ExportDecl) : List Byte := getAt x.init s.prog.exch x.var

/-- An accepted write of an exported RW variable waits for its writing task (R367). -/
def queueExport (s : State) (x : ExportDecl) (data : List Byte) : State :=
  let t := s.task x.task
  s.setTask x.task { t with writes := t.writes ++ [⟨x.index, x.sub, .oct data⟩] }

/-- An RWC write of an exported variable at its line-cycle boundary (R367). -/
def storeExport (s : State) (x : ExportDecl) (data : List Byte) : State :=
  s.setProg { s.prog with exch := setAt s.prog.exch x.var data }

end Sys2Proof.Machine
end

