-- ==== Sys2Proof/Machine/Enable.lean ====
section
/-! DEFINITION. Enabling and disabling a control channel or an axis (R212 to R214, R226, R230, R248, R252, R254, R256, R294, R299). -/

namespace Sys2Proof.Machine

def abSourceInvalid : Nat := 0x4003
def abDestTaken : Nat := 0x4004
def abStopActive : Nat := 0x4005
def abCommitPending : Nat := 0x4001

/-- A code where a condition holds. -/
def codeIf (b : Bool) (code : Nat) : List Nat := if b then [code] else []

/-- Whether an enable of channel n asks for a placement. -/
def chanStarts (s : State) (n : Nat) : Bool := !chanLocked s n

/-- Why an enable of channel n is refused (R212, R213, R214, R226, R230). -/
def chanEnableCauses (s : State) (n : Nat) : List Nat :=
  if !chanStarts s n then []
  else
    let i := chIdx n
    let p := s.rn i 5
    codeIf (p ≠ 0xFFFF && p ≥ s.rn i 4) abDependency ++
      codeIf (chanRein s n) abStopActive ++
      codeIf (!(descInArea s (s.rn i 7) 6 && descInArea s (s.rn i 8) 6 && descInArea s (s.rn i 0x0B) 5)) abSourceInvalid ++
      codeIf (destTaken s n) abDestTaken ++
      codeIf (!(place s 1 n).1) abPlacementRefused

/-- An enable of channel n is stored (R230): it takes effect at the next sample boundary. -/
def enableChannel (s : State) (n : Nat) : State :=
  if chanStarts s n then
    let p := place s 1 n
    if p.1 then p.2.setChan n { p.2.chan n with enableAt := true } else p.2
  else if (s.chan n).st = chRamping then s.setChan n { s.chan n with enableAt := true }
  else s

/-- A disable of channel n is stored (R230); one that meets an enable which has not taken effect withdraws it. -/
def disableChannel (s : State) (n : Nat) : State :=
  let c := s.chan n
  if c.st = chOff || c.st = chFailed then
    if c.enableAt then s.setChan n { c with enableAt := false, placed := false } else s
  else if c.st = chRamping then s.setChan n { c with enableAt := false }
  else s.setChan n { c with disableAt := true, enableAt := false }

/-- Whether a phase channel of a MICROSTEP axis meets R299: SETPOINT as source A, P of 1 base tick, the even channel of its pair as
destination. -/
def phaseReady (s : State) (ch pair : Nat) : Bool :=
  ch ≠ 0xFFFF && bits (s.rn (chIdx ch) 7) 31 28 = 5 && s.rn (chIdx ch) 4 = 1 && destIsPwm (s.rn (chIdx ch) 0x0B) (2 * pair)

/-- Why an enable of axis n is refused (R214, R248, R252, R254, R256, R294, R299). (DEDUCED, notes/assumptions/71.md) -/
def axisEnableCauses (s : State) (n : Nat) : List Nat :=
  if axisLocked s n then []
  else
    let i := axIdx n
    let kind :=
      if axisLocal s n then
        let a := axisInst s n
        let mode := s.rn (locIdx a) 1
        codeIf (a ≥ 32 || mode = 0) abDependency ++
          codeIf (s.axes.any fun p => p.1 ≠ n && axisLocked s p.1 && axisLocal s p.1 && axisInst s p.1 = a) abDependency ++
          codeIf (mode = 2 && !(phaseReady s (s.rn (locIdx a) 0x0B) (s.rn (locIdx a) 2) &&
            phaseReady s (s.rn (locIdx a) 0x0C) (s.rn (locIdx a) 3))) abDependency ++
          codeIf (s.rn i 0x0A ≠ 0xFFFF && s.rn i 0x0A ≥ s.rn i 9) abDependency
      else
        codeIf (s.lcLen < 10) abDependency ++
          (match axisBytes s n with
          | some b => codeIf (axesWrite s b (some n)) abDependency ++ codeIf (chansWrite s b none || programWrites s b) abDestTaken
          | none => [])
    kind ++ codeIf (axisRein s n) abHaltActive ++ codeIf (!(place s 2 n).1) abNoProfiler

/-- An enable of axis n is stored (R256). -/
def enableAxis (s : State) (n : Nat) : State :=
  if axisLocked s n then s.setAxis n { s.axis n with enableAt := true }
  else
    let p := place s 2 n
    if p.1 then p.2.setAxis n { p.2.axis n with enableAt := true } else p.2

/-- A disable of axis n is stored (R256); one that meets an enable which has not taken effect withdraws it. -/
def disableAxis (s : State) (n : Nat) : State :=
  let x := s.axis n
  if x.st = axDisabled then
    if x.enableAt then s.setAxis n { x with enableAt := false, placed := false } else s
  else s.setAxis n { x with disableAt := true, enableAt := false }

end Sys2Proof.Machine
end

