-- ==== Sys2Proof/Machine/Paths.lean ====
section
/-! DEFINITION. Path engines, Hobble line and coast (R176 to R199), the uplinks (R200 to R202) and Henvy (R203 to R205), and what
the engines do at a line-cycle boundary. -/

namespace Sys2Proof.Machine

def hobIdx (k : Nat) : Nat := 0x3068 + k

/-! The Hobble line (R178 to R182). -/

/-- The bounds A_k and B_k (R178). -/
def boundA (s : State) (k : Nat) : Nat := getAt 0 s.na.held k
def boundB (s : State) (k : Nat) : Nat := ringN s k - getAt 0 s.nb.held k

/-- The word of a bound on the true rail: inverted in every other base tick (R179). -/
def boundWord (s : State) (e : Engine) (k : Nat) : BitVec 10 :=
  let w := BitVec.ofNat 10 (if e = .na then boundA s k else boundB s k)
  if s.clock.tick % 2 = 1 then ~~~w else w

/-- The rails of engine e on ring k follow its bound; an engine that is not ACTIVE drives none (R176, R179, R181). -/
def driveRail (s : State) (e : Engine) (k : Nat) : State :=
  let x := s.eng e
  let r := getAt Rail.init x.rails k
  let w := boundWord s e k
  let r : Rail := if x.st = egActive then { r with word := w, comp := ~~~w } else { r with word := 0, comp := 0 }
  s.setEng e { x with rails := setAt x.rails k r }

def driveRails (s : State) (e : Engine) : State := forNums 4 s fun s k => driveRail s e k

/-- Both rails of every bound invert at a base-tick boundary; undriven ones stand still (R179). -/
def railsTick (s : State) : State :=
  [Engine.na, Engine.nb].foldl (fun s e => forNums 4 s fun s k =>
    let s := driveRail s e k
    let x := s.eng e
    let r := getAt Rail.init x.rails k
    s.setEng e { x with rails := setAt x.rails k { r with still := if x.st = egActive then 0 else min 2 (r.still + 1) } }) s

/-- Positions from its own port that the other engine reads as held by engine e (R179): none where the rails have been low, or have not
inverted, for 2 base ticks; the bound where they are complementary; every position where they are inconsistent in any other way. -/
def railRead (s : State) (e : Engine) (k : Nat) : Nat :=
  let n := ringN s k
  let r := getAt Rail.init (s.eng e).rails k
  if 2 ≤ r.still then 0
  else if r.comp ≠ ~~~r.word then n
  else
    let w := (if s.clock.tick % 2 = 1 then ~~~r.word else r.word).toNat
    if e = .na then w else n - w

/-- The same with the guard of R182: a release younger than 1 base tick still counts as held. -/
def heldGuarded (s : State) (e : Engine) (k : Nat) : Nat :=
  let h := railRead s e k
  match getAt none (s.eng e).released k with
  | some (t, before) => if s.clock.tick < t + 2 then max before h else h
  | none => h

/-- An engine moves its bound on ring k towards its own port (R181). -/
def releaseTo (s : State) (e : Engine) (k n : Nat) : State :=
  let x := s.eng e
  let h := getAt 0 x.held k
  if h ≤ n then s
  else driveRail (s.setEng e { x with held := setAt x.held k n, released := setAt x.released k (some (s.clock.tick, h)) }) e k

def releaseAll (s : State) (e : Engine) : State := forNums 4 s fun s k => releaseTo s e k 0

/-- Whether an engine acquires on ring k: one that runs trains on it, but for the engine that becomes receiving in a heal under way
(R190). -/
def mayAcquire (s : State) (e : Engine) (k : Nat) : Bool :=
  engOnRing s e k && (s.ring k).st = rgRunning &&
    !((s.ring k).healAt.any (fun h => h ≤ s.rn 0x2000 5) && e ≠ (s.ring k).cmd)

/-- The positions from its port that an engine may hold after a grant point (R182). -/
def acquirable (s : State) (e : Engine) (k : Nat) : Nat :=
  if mayAcquire s e k then min (getAt 0 (s.eng e).reach k) (ringN s k - heldGuarded s (otherEngine e) k) else 0

/-- An engine's bound moves away from its port. -/
def takeTo (s : State) (e : Engine) (k n : Nat) : State :=
  let x := s.eng e
  if n ≤ getAt 0 x.held k then s else (driveRail (s.setEng e { x with held := setAt x.held k n }) e k).bump (hobIdx k) 4

/-- Acquisition of ring k at a grant point (R182, R185): both engines compute from the bounds before it, and the hardware keeps
the second within what is free, the commanding engine of the ring first (R178). (DEDUCED, notes/assumptions/45.md) -/
def acquire (s : State) (k : Nat) : State :=
  let e := (s.ring k).cmd
  let o := otherEngine e
  let b := acquirable s o k
  let s := takeTo s e k (acquirable s e k)
  takeTo s o k (min b (ringN s k - getAt 0 (s.eng e).held k))

/-- The latch at offset 400 ns (R180). -/
def latchBounds (s : State) : State :=
  { s with na := { s.na with latched := s.na.held }, nb := { s.nb with latched := s.nb.held } }

/-- The path mode of ring k (R177). (DEDUCED, notes/assumptions/44.md) -/
def pathMode (s : State) (k : Nat) : Nat :=
  if (s.ring k).joining || engActive s .na ≠ engActive s .nb then 2 else if (s.ring k).split then 1 else 0

/-! Takeover and rejoin (R184 to R187). -/

/-- The number of a path engine's die in OD 1010. -/
def engDie (e : Engine) : Nat := if e = .na then 2 else 3

/-- The link on which an engine receives from CX, and the one on which it sends to CX. -/
def fromCx (e : Engine) : Link := if e = .na then .cxNa else .cxNb
def toCx (e : Engine) : Link := if e = .na then .naCx else .nbCx

/-- An engine falls silent (R176, R184): it holds no grant, drives no rail, sends nothing, its PHYs are down, and its die is failed
(R51). -/
def silence (s : State) (e : Engine) : State :=
  let s := releaseAll s e
  driveRails ((s.setEng e { s.eng e with st := egSilent, rejoining := false, broughtUp := false, acWait := [], reinWait := [],
                                         copies := [], reach := [] }).setDie (engDie e) 5) e

/-- The frames on the wire end with an invalid FCS (R184). -/
def cutFrames (s : State) (e : Engine) : State :=
  forNums 4 s fun s k => if engOnRing s e k && (s.ring k).st = rgRunning && !trainOver s k then s.emit (.cutFrame e k) else s

/-- Beyond ±20 ns in two consecutive base ticks. -/
def clockOff (d : Int × Int) : Bool := 20 < d.1.natAbs && 20 < d.2.natAbs

/-- Whether a check of R184 fails, and its code in OD 3060:04. A failed compute link counts only while the other engine is ACTIVE and
receives good flits from CX (R191). -/
def checkFails (s : State) (e : Engine) (c : SelfCheck) : Bool × Nat :=
  let x := s.eng e
  let o := otherEngine e
  match c with
  | .transmitPath => (true, 1)
  | .returningCrc => (2 ≤ x.badRun + b2n (x.fcsBad && !x.fcsGood), 2)
  | .clock own other => (clockOff own && other.1.natAbs ≤ 20 && other.2.natAbs ≤ 20, 3)
  | .memories correctable => (!correctable, 4)
  | .hobbleReadBack => (true, 5)
  | .computeLink => ((s.link (linkNum (fromCx e))).failed && engActive s o && !(s.link (linkNum (fromCx o))).failed, 6)

/-- A check of R184 ends: a correctable error is counted; a check that fails makes the engine demote itself. -/
def selfDemote (s : State) (e : Engine) (c : SelfCheck) : State :=
  if !engActive s e then s
  else if c = .memories true then s.bump 0x3060 6
  else
    let q := checkFails s e c
    if !q.1 then s
    else
      let s := silence (cutFrames s e) e
      let s := (s.setNum 0x3060 4 ((if e = .na then 1 else 2) * 256 + q.2)).bump 0x3060 5
      s.emit (.cross e 0 0 true)

/-- The other engine's rails are seen released, or its notice arrives: this engine takes every ring at the next grant points
(R185). An engine that still counted as ACTIVE is declared failed (R176). -/
def releaseSeen (s : State) (e : Engine) : State :=
  let o := otherEngine e
  if !engActive s e then s
  else
    let s := if engActive s o then silence s o else s
    forNums 4 s fun s k => s.setRing k { s.ring k with cmd := e, split := false, joining := false, healAt := none }

/-- Rejoin (R187): REJOIN_REFUSED unless SILENT. -/
def abRejoinRefused : Nat := 0x3001

def rejoinEngine (s : State) (e : Engine) : State :=
  (s.setEng e { s.eng e with st := 0, rejoining := true, broughtUp := false }).setDie (engDie e) 1

/-- An engine serves. -/
def activate (s : State) (e : Engine) : State :=
  driveRails (s.setEng e { s.eng e with st := egActive, rejoining := false, broughtUp := false }) e

/-- A rejoining engine passes its bring-up: alone it becomes ACTIVE and takes what it reaches; beside an ACTIVE engine it joins
each ring that runs by the heal procedure, or at once where none runs (R187). (DEDUCED, notes/assumptions/46.md) -/
def engineUp (s : State) (e : Engine) : State :=
  let x := s.eng e
  if !x.rejoining then s
  else if !engActive s (otherEngine e) then
    let s := forNums 4 (activate s e) fun s k => s.setRing k { s.ring k with cmd := e, split := false, joining := false }
    s.stations.foldl (fun s r =>
      if r.2.st = stOperational || r.2.st = stResync then toStation (toStation s r.1 stAbsent) r.1 stResync else s) s
  else if (List.range 4).all fun k => (s.ring k).st ≠ rgRunning then activate s e
  else
    let s := s.setEng e { x with broughtUp := true }
    forNums 4 s fun s k => if (s.ring k).st = rgRunning then s.setRing k { s.ring k with joining := true, cmd := otherEngine e } else s

/-! Breaks and heals (R188 to R190). -/

/-- A break on ring k as engine e sees it (R188). -/
def ringBreak (s : State) (e : Engine) (k reach : Nat) : State :=
  let st := (s.ring k).st
  if !engActive s e || !(st = rgRunning || st = rgStarting || st = rgDiscovering) then s
  else
    let x := s.eng e
    let s := s.setEng e { x with reach := setAt x.reach k reach }
    let s := releaseTo s e k reach
    let s := if (s.ring k).split then s else s.bump (hobIdx k) 5
    let s := s.setRing k { s.ring k with split := true, healAt := none }
    s.emit (.cross e k reach false)

/-- Segments that link at another speed split the ring as a break does (R132). -/
def segmentBreaks (s : State) (k : Nat) : State :=
  if (s.ring k).badSeg.isEmpty then s
  else [Engine.na, Engine.nb].foldl (fun s e =>
    let r := min (getAt 0 (s.eng e).reach k) (segmentReach s e k)
    if (s.ring k).split && getAt 0 (s.eng e).reach k = r then s else ringBreak s e k r) s

/-- Whether the path cross link works (R190). -/
def crossUp (s : State) : Bool := !(s.link (linkNum .naNb)).failed && !(s.link (linkNum .nbNa)).failed

/-- Both end stations report their looped port up, so the engines agree on H, 2 line cycles ahead (R190). NB becomes receiving, or the
engine that rejoined. -/
def ringHeal (s : State) (k : Nat) : State :=
  let r := s.ring k
  if r.st ≠ rgRunning || !(r.split || r.joining) || !crossUp s || r.healAt.isSome || !r.badSeg.isEmpty || s.clock.timClk < r.healFrom then s
  else
    let bounds := (getAt 0 s.na.held k, getAt 0 s.nb.held k)
    s.setRing k { r with healAt := some (s.rn 0x2000 5 + 2), healBounds := bounds, healJoin := r.joining,
                         cmd := if r.joining then r.cmd else .na }

/-- The engine that becomes receiving when ring k heals (R190). -/
def receiver (s : State) (k : Nat) : Engine := otherEngine (s.ring k).cmd

/-- The stages of a heal that fall in the line cycle that begins now: CLOSE in H−1, the release after train H−1, and the INTACT
ring at the first grant point after it (R190). -/
def healStage (s : State) (k : Nat) (afterTrain : Bool) : State :=
  let r := s.ring k
  let c := s.rn 0x2000 5
  match r.healAt with
  | none => s
  | some h =>
    if afterTrain then
      if c + 1 = h then sendDelay s k true
      else if c = h then releaseTo (s.setRing k { r with healClk := s.clock.timClk }) (receiver s k) k 0
      else if c = h + 1 && !splitFlag s k then sendDelay s k false
      else s
    else if c = h + 1 then
      let s := s.setRing k { r with split := false, joining := false }
      let e := receiver s k
      if (s.eng e).rejoining then activate s e else s
    else s

/-- A station has not left loopback 100 ms after H: the grants of the split come back, and the engines try again 1 s later (R190). -/
def healTimeout (s : State) (k : Nat) : State :=
  let r := s.ring k
  match r.healAt with
  | none => s
  | some h =>
    if s.rn 0x2000 5 < h || !s.elapsed r.healClk (wallSec 1 / 10) then s
    else
      let s := s.setRing k { r with healAt := none, split := !r.healJoin, joining := r.healJoin, healFrom := s.clock.timClk + wallSec 1 }
      let s := releaseTo (releaseTo s .na k r.healBounds.1) .nb k r.healBounds.2
      let put := fun (s : State) (e : Engine) (n : Nat) =>
        let x := s.eng e
        if engActive s e then
          driveRail (s.setEng e { x with held := setAt x.held k (min n (ringN s k - getAt 0 (s.eng (otherEngine e)).held k)) }) e k
        else s
      put (put s .na r.healBounds.1) .nb r.healBounds.2

/-! Coast (R191 to R199). -/

/-- Whether the outputs of CX for engine e are valid at the latch (R30, R192). -/
def cxOutputs (s : State) (e : Engine) : Bool :=
  s.cxUp && s.linkGood (fromCx e) && !s.coast.active

/-- The engine whose copy of CX's outputs counts for station a. -/
def formingEngine (s : State) (a : Nat) : Engine := (commander s a).getD (s.ring (a / 512)).cmd

/-- A Lead's jump moves the Lead references of the coast records (R194). -/
def coastJumps (s : State) : State :=
  forNums 8 s fun s n =>
    let d := (s.lead n).jumpLu
    if d = 0 then s
    else { s with coast := { s.coast with recs := mapVals (fun _ r =>
             if r.lead = n then { r with leadAt := moveLead r.leadAt d, leadRef := moveLead r.leadRef d } else r) s.coast.recs } }

/-- One coast record at a train: the setpoint of CX enters its history, or the engine forms the next setpoint (R194). -/
def coastRecord (s : State) (n len : Nat) : State :=
  let r := s.coastRec n
  if !r.valid then s
  else if cxOutputs s (formingEngine s r.station) then
    let x := s.axis n
    let stop : Bool := x.st = axStopping || x.st = axRearm
    let r := { r with live := false }
    match x.sp with
    | some p => s.setCoastRec n (r.note p stop (s.lead r.lead).pos64)
    | none => s.setCoastRec n r
  else
    let r := if r.live then r else { r.enter len with live := true }
    let r := if s.coast.stopAll then r.beginStop else r
    let q := r.step len (s.lead r.lead).pos64
    let s := s.setCoastRec n q.1
    if q.2 then s.bump 0x3070 5 else s

/-- The outputs of station a for the train: those of CX, or those of the last train with its coast setpoints written in (R192,
R196). -/
def formStation (s : State) (a : Nat) : State :=
  let st := s.station a
  let size := s.rn (stIdx a) 5
  if cxOutputs s (formingEngine s a) then s.setStation a { st with lastOut := slice st.outputs 0 size }
  else
    let out := s.coast.recs.foldl (fun out p =>
      let r := p.2
      if r.valid && r.live && r.station = a && r.points.isSome then
        let w := if r.format % 2 = 1 then 8 else 4
        splice out r.offset (leBytes w (ofSigned (8 * w) (wholeCounts r.pos)))
      else out) st.lastOut
    s.setStation a { st with lastOut := slice out 0 size }

/-- The coast limit is reached (R197): in TB time from the entry boundary, 160 base ticks to a ms. -/
def limitReached (s : State) : Bool := s.coast.entryTick + 160 * s.rn 0x3070 1 ≤ s.clock.tick

def coastLimit (s : State) : State :=
  if !s.coast.active || s.coast.limitHit || !limitReached s then s
  else ({ s with coast := { s.coast with limitHit := true, stopAll := true } }).bump 0x3070 6

/-- The outputs of every train of a line cycle: coast records first, then the stations; a ring whose train is formed by coast rules
is counted; after the coast limit OUT_VALID ends when every record holds (R192, R196, R197). -/
def formOutputs (s : State) (len : Nat) : State :=
  let s := coastLimit s
  let s := s.coast.recs.foldl (fun s p => coastRecord s p.1 len) s
  let s := { s with coast := { s.coast with stopAll := false } }
  let held := s.coast.recs.all fun p => !p.2.valid || (p.2.mode = 0 && !p.2.stopping)
  let s := if s.coast.active && s.coast.limitHit && held then { s with coast := { s.coast with outCleared := true } } else s
  forNums 4 s fun s k =>
    if (s.ring k).st ≠ rgRunning then s
    else
      let l := (s.ring k).layout
      let s' := l.foldl (fun s p => formStation s p.1) s
      if (engActive s .na || engActive s .nb) && (if l.isEmpty then !cxOutputs s (s.ring k).cmd
          else l.any fun p => !cxOutputs s (formingEngine s p.1)) then s'.bump 0x3070 4
      else s'

/-- Both engines have declared their compute link failed, at most `n` base ticks apart (R191). -/
def bothFailed (s : State) (n : Nat) : Bool :=
  let a := s.link (linkNum .cxNa)
  let b := s.link (linkNum .cxNb)
  a.failed && b.failed && a.failAt ≤ b.failAt + n && b.failAt ≤ a.failAt + n

/-- Coast begins (R191): the guards that each cause names. (DEDUCED, notes/assumptions/48.md) -/
def coastEntry (s : State) (c : CoastCause) : State :=
  let failed := fun (l : Link) => (s.link (linkNum l)).failed
  let ok : Bool := match c with
    | .announced => s.coast.announced.any fun e => e ≤ s.clock.tick
    | .bothLinks => bothFailed s 1
    | .oneThenOther => bothFailed s 3 && crossUp s
    | .loneEngine => (engActive s .na && !engActive s .nb && failed .cxNa) || (engActive s .nb && !engActive s .na && failed .cxNb)
  if s.coast.active || !ok then s
  else
    let s := { s with coast := { s.coast with active := true, entryTick := s.clock.tick, limitHit := false, outCleared := false,
                                              announced := none, returnAt := none, stopAll := false } }
    localCoastEntry (s.bump 0x3070 3)

/-- CX leaves coast (R198): each axis resumes from its record; where OUT_VALID was cleared, every station returns through resync. -/
def coastExit (s : State) : State :=
  if !s.coast.active || !s.cxUp then s
  else
    let cleared := s.coast.outCleared
    let s := s.coast.recs.foldl (fun s p =>
      if p.2.valid && p.2.live then
        let s := resumeAxis s p.1 (s.coastRec p.1) s.clock.tick true
        s.setCoastRec p.1 { s.coastRec p.1 with live := false }
      else s) s
    let s := setpointsInForce (localCoastExit s)
    let s := { s with coast := { s.coast with active := false, limitHit := false, outCleared := false, announced := none,
                                              returnAt := none, stopAll := false } }
    if cleared then
      s.stations.foldl (fun s r =>
        if r.2.st = stOperational || r.2.st = stResync then toStation (toStation s r.1 stAbsent) r.1 stResync else s) s
    else s

/-- Whether every engine that serves acknowledges what CX writes in this base tick (R31, R193). (DESIGN CHOICE,
notes/assumptions/137.md) -/
def enginesAck (s : State) : Bool :=
  [Engine.na, Engine.nb].all fun e => !engActive s e || (s.linkGood (fromCx e) && s.linkGood (toCx e))

/-- The coast record of axis n is written to both engines, and committed with its TAG once they have acknowledged it (R193). -/
def commitCoastRec (s : State) (n : Nat) : State :=
  let old := s.coastRec n
  let new := coastRecordOf s n
  if axisLocal s n || !enginesAck s || { new with tag := old.tag } = old then s else s.setCoastRec n new

/-! What the engines do at the line-cycle boundary that closes line cycle c (R133, R180, R182). -/

def enginesAtBoundary (s : State) (lenChanged : Bool) : State :=
  let c := s.rn 0x2000 5 - 1
  let len := s.lcLen
  let s := newTrain (newTrain s .na) .nb
  let s := forNums 4 s fun s k => healStage s k false
  let s := forNums 4 s acquire
  let s := latchBounds s
  let s := formOutputs s len
  let s := forNums 4 s fun s k =>
    if (s.ring k).st ≠ rgRunning then s
    else
      let valid := !s.coast.outCleared
      let s := sendCopy (sendCopy s k c len .na valid) k c len .nb valid
      trainSent s k c valid
  forNums 4 s fun s k => healStage (ringCycle s k lenChanged) k true

/-- Both engines and both uplinks at a base-tick boundary: the rails invert, and what waits for the acyclic part or an open gate leaves
(R136, R179, R200). -/
def busTick (s : State) : State :=
  egressTick ([Engine.na, Engine.nb].foldl (fun s e => forNums 4 s fun s k => drainAc s e k) (railsTick s))

/-! Henvy (R47, R49, R203 to R205). -/

/-- The module becomes a candidate and sends its first MEMBER at once (R205). -/
def becomeCandidate (s : State) : State :=
  sendMember { setHenvy s hvCandidate with henvy := { s.henvy with since := s.clock.timClk, stopSeen := [], members := [] } }

/-- A MEMBER message arrives (R205). -/
def henvyMember (s : State) (m : MemberMsg) : State :=
  let st := henvyState s
  if m.refused || st = hvOff || st = hvRefusedNumber || st = hvRefusedDomain then s
  else if st = hvCandidate && m.number.val = s.henvy.number then setHenvy s hvRefusedNumber
  else if st = hvCandidate && !m.candidate && m.domains ≠ ownDomains s then setHenvy s hvRefusedDomain
  else if m.candidate then s
  else { s with henvy := { s.henvy with members := setAt s.henvy.members m.number.val (some s.clock.timClk) } }

/-- A STOP message arrives at a joined module (R204). -/
def henvyStop (s : State) (number objects : Nat) : State :=
  if henvyState s ≠ hvJoined then s
  else setObjects { s with henvy := { s.henvy with stopSeen := setAt s.henvy.stopSeen number (some s.clock.timClk) } } objects 4

/-- The TIM clock from which a module is silent: that of its last STOP, or of the MEMBER that made it known. -/
def silentSince (s : State) (number : Nat) : Option Nat := (getAt none s.henvy.stopSeen number).or (getAt none s.henvy.members number)

/-- 10 ms without STOP from a module that is known (R204). -/
def henvySilence (s : State) (number : Nat) : State :=
  if henvyState s ≠ hvJoined || !(silentSince s number).any (fun t => s.elapsed t (wallSec 1 / 100)) then s
  else setObjects { s with henvy := { s.henvy with stopSeen := setAt s.henvy.stopSeen number none,
                                                   members := setAt s.henvy.members number none } } (s.rn 0x3080 7) 4

end Sys2Proof.Machine
end

