-- ==== Sys2Proof/Machine/Clock.lean ====
section
/-! DEFINITION. Clocks and links between dies (R23 to R33, R43), PTP (R91, R97 to R100), Lead events (R104, R106), the timing reference,
and the PPS lands (R564). -/

namespace Sys2Proof.Machine

def tbIdx (n : Nat) : Nat := 0x2010 + n
def leadIdx (n : Nat) : Nat := 0x2040 + n
def ptpIdx (p : Nat) : Nat := 0x2020 + p

/-! Links (R30 to R33). -/

/-- Both copies of a tick-critical flit have arrived (R30). The field link sends no second copy. (DEDUCED,
notes/assumptions/36.md) -/
def linkFlit (s : State) (l : Link) (first second : Bool) : State :=
  let x := s.link (linkNum l)
  let two := l ≠ .axFx && l ≠ .fxAx
  let x := { x with seen := true, crc := x.crc + b2n (!first) + b2n (two && !second) }
  s.setLink (linkNum l) (if first || (two && second) then { x with good := true, invalid := false }
    else { x with invalid := true, errors := x.errors + 1 })

/-- A bulk flit that failed its CRC is sent again (R31). -/
def bulkFlit (s : State) (l : Link) (good : Bool) : State :=
  let x := s.link (linkNum l)
  if good then s else s.setLink (linkNum l) { x with bulkRetries := x.bulkRetries + 1 }

/-- Every link at the end of a base tick: one more tick without a good flit, or none (R32); invalid items were of that tick. -/
def linksAtTick (s : State) : State :=
  { s with links := mapVals (fun _ x => { x with noGood := if x.good then 0 else x.noGood + 1, good := false, invalid := false }) s.links }

/-- A function fails with its die (R67). -/
def failFunction (s : State) (f cause : Nat) : State := s.setReady f ⟨5, 0, cause⟩

/-- The reaction to a failed AX (R43, R110): Leads run on to a stop; the functions on AX fail; PWM outputs are low and analogue outputs in
their output-off state. Field outputs take their declared states once FX has lost its link (R442). -/
def axDieFailed (s : State) : State :=
  if !s.axUp then s
  else
    let s := leadsWithoutAx (s.setDie 4 5)
    let s := [1, 6, 7].foldl (fun s f => failFunction s f 1) s
    let s := forNums 96 s fun s c => s.setPwm c { s.pwm c with duty := 0, wave := [], high := false, pulseTo := 0 }
    forNums 16 s fun s o => s.setAout o { AOut.init with source := (s.aout o).source }

/-- The reaction to a failed FX (R43, R309): DI-sourced limit and home inputs latch. -/
def fxFailedNow (s : State) : State := if fxFailed s then s else latchDiInputs (s.setDie 5 5)

/-- A receiving die declares a link failed after 3 base ticks without one good flit on it, and the sending die with it (R32, R43). What
NA, NB and AX do without CX hangs on their own links (`State.linkGood`); a die without its tick link runs on its flywheel (R33); FX
without AX loses its link (R442). -/
def linkFailed (s : State) (l : Link) : State :=
  let x := s.link (linkNum l)
  if x.failed || x.noGood < 3 then s
  else
    let s := s.setLink (linkNum l) { x with failed := true, failAt := s.clock.tick }
    match l with
    | .cxNa => if crossUp s then s.emit (.linkReport .na) else s
    | .cxNb => if crossUp s then s.emit (.linkReport .nb) else s
    | .naCx => s.setDie 2 5
    | .nbCx => s.setDie 3 5
    | .axCx => axDieFailed s
    | .fxAx => fxFailedNow s
    | .axFx => linkLoss s
    | _ => s

/-- The links on which a die sends. -/
def sendsOn (d : Die) : List Link :=
  match d with
  | .cx => [.cxNa, .cxNb, .cxAx]
  | .na => [.naCx, .naNb]
  | .nb => [.nbCx, .nbNa]
  | .ax => [.axCx, .tickCx, .tickNa, .tickNb, .tickFx, .axFx]
  | .fx => [.fxAx]

def clearLinks (s : State) (d : Die) : State :=
  (sendsOn d).foldl (fun s l => s.setLink (linkNum l) { s.link (linkNum l) with failed := false, noGood := 0 }) s

/-- DI-sourced limit and home inputs are armed again. -/
def rearmDiInputs (s : State) : State :=
  forNums 32 s fun s a => forNums 3 s fun s w =>
    let src := s.rn (locIdx a) (0x11 + w) % 256
    let l := s.loc a
    if 0x10 ≤ src && src ≤ 0x4F then s.setLoc a { l with latches := setAt l.latches w InLatch.init } else s

/-- A die passes bring-up again (R43, R187). -/
def dieUp (s : State) (d : Die) : State :=
  let s := clearLinks s d
  match d with
  | .cx => s
  | .na => engineUp (s.setDie 2 2) .na
  | .nb => engineUp (s.setDie 3 2) .nb
  | .ax =>
    if s.dieState 4 = 5 then [1, 6, 7].foldl (fun s f => s.setReady f ⟨2, 0, 0⟩) (virtualLeadsBack (s.setDie 4 2)) else s.setDie 4 2
  | .fx => switchAll (rearmDiInputs { s.setDie 5 2 with field := { s.field with watchdog := false } })

/-! The timing reference (R26) and the Paddock oscillator (R27). -/

/-- REF10M_IN has been good for 1 s; a waiting selection takes it at the next base-tick boundary. -/
def refQualified (s : State) : State :=
  let s := s.setNum 0x2000 0x0A 1
  if s.clock.refWaiting then { s with clock := { s.clock with refWaiting := false, refSwitch := true } } else s

/-- REF10M_IN is lost: AX goes back to the TCXO by itself and stays there. -/
def refLoss (s : State) : State :=
  let s := s.setNum 0x2000 0x0A 0
  if s.rn 0x2000 8 = 1 then
    let s := (s.setNum 0x2000 8 0).bump 0x2000 9
    { s with clock := { s.clock with refSwitch := false } }
  else if s.clock.refSwitch && s.rn 0x2000 7 = 1 then { s with clock := { s.clock with refSwitch := false, refWaiting := true } }
  else s

/-- DEPENDENCY of OD 2000:07 (R26). -/
def refAbort (s : State) (v : Nat) : Nat :=
  if v = 1 && s.rn 0x2000 0x0A = 0 && s.clock.lcStarted then abDependency else abOk

/-- A write of OD 2000:07: switched at the next base-tick boundary, or waiting for qualification. -/
def refSelect (s : State) (v : Nat) : State :=
  let s := s.setNum 0x2000 7 v
  let good := s.rn 0x2000 0x0A = 1
  { s with clock := { s.clock with refSwitch := v = 0 || good, refWaiting := v = 1 && !good } }

/-- The reference in use at a base-tick boundary. (DEDUCED, notes/assumptions/35.md) -/
def refAtTick (s : State) : State :=
  if s.clock.refSwitch then { (s.setNum 0x2000 8 (s.rn 0x2000 7)) with clock := { s.clock with refSwitch := false } } else s

def paddockTrim (s : State) : State := { s with clock := { s.clock with paddockTrims := s.clock.paddockTrims + 1 } }

/-! Time bases and PTP (R91, R95 to R100). -/

/-- A raw stamp of port p in 2^-16 ns, in whole steps of the port's resolution (R98). -/
def stampStep (p stamp : Nat) : Nat :=
  if p ≥ 8 then stamp * 5 / (4 * 65536) * (4 * 65536) / 5 else stamp * 5 / (16 * 65536) * (16 * 65536) / 5

/-- The log of the Announce interval of TBn as time transmitter: 2 s, and 1 s under IEEE 802.1AS (R97). -/
def announceLog (s : State) (n : Nat) : Int := if s.rn (tbIdx n) 1 = 2 then 0 else 1

/-- A write of the mode takes effect at the next base-tick boundary and ends a hold of TB7 (R91, R95). -/
def tbModeWrite (s : State) (n v : Nat) : State :=
  (s.setNum (tbIdx n) 1 v).setTb n { s.tb n with modePending := some v }

/-- STATE_LOCKED of OD 2010+n:0D (R96). -/
def setTimeAbort (s : State) (n : Nat) : Nat :=
  let t := s.tb n
  if !(t.st = .free || t.hold) || (n = s.rn 0x2000 1 && s.clock.lcStarted) then abLocked else abOk

/-- The set time (R95, R96): it ends a hold of TB7, which then follows the mode in force. -/
def setTime (s : State) (n v : Nat) : State :=
  let s := (stepTb s n (ofTbtime v)).bump (tbIdx n) 0x0B
  let t := s.tb n
  if t.hold then s.setTb n { t with hold := false, modePending := some (s.rn (tbIdx n) 1) } else s

/-- Whether the domain of TBn runs on port p (R100). -/
def tbOnPort (s : State) (p n : Nat) : Bool := bit (s.rn (ptpIdx p) 1) n

/-- What the best master clock algorithm compares of a grandmaster, as one number: the smaller is the better. (PRESUMED,
notes/assumptions/130.md) -/
def clockRank (priority1 clockClass quality priority2 identity steps : Nat) : Nat :=
  ((((priority1 * 256 + clockClass) * 2 ^ 24 + quality) * 256 + priority2) * 2 ^ 64 + identity) * 65536 + steps

/-- The priorities that the base configuration sets, 128 by default (R97). -/
def clockPriorities (s : State) : Nat × Nat :=
  (s.lay.base.map fun b => (b.priority1.toNat, b.priority2.toNat)).getD (128, 128)

/-- The rank of the module's own clock, which announces clockClass 248 (R97). -/
def ownRank (s : State) : Nat :=
  let q := clockPriorities s
  clockRank q.1 248 Config.clockQuality.toNat q.2 Config.clockIdentity.toNat 0

/-- Whether a port receives time of a domain: an uplink that is not fixed to time transmitter (R97, R100). -/
def mayReceive (s : State) (p n : Nat) : Bool := tbOnPort s p n && 8 ≤ p && s.rn (ptpIdx p) 2 ≠ 1

/-- Whether a port of TBn acts as time transmitter now: fixed to it, or by the best master clock algorithm, unless the time
transmitter in use was heard on it or a better one is heard there (R97, R100). -/
def isTransmitter (s : State) (p n : Nat) : Bool :=
  let t := s.tb n
  let mode := s.rn (ptpIdx p) 2
  tbOnPort s p n && s.cxUp && mode ≠ 2 &&
    (mode = 1 || (!(t.transmitter.any fun q => q.2 = p) && !(t.masters.any fun m => m.port = p && 2 ≤ m.count && m.rank < ownRank s)))

/-- A Sync of the qualified time transmitter in use is evaluated in ACQUIRING and LOCKED (R91, R92, R98). A tunnelled one carries a
software stamp and no correction of the MAC (R99). -/
def syncReceived (s : State) (n : Nat) (m : SyncMsg) : State :=
  let t := s.tb n
  let p := m.port.val
  if (t.st = .acquiring || t.st = .locked) && !t.hold && t.transmitter = some (m.transmitter.toNat, p) && s.cxUp &&
      mayReceive s p n then
    let stamp : Int := if m.tunnelled then (m.ingress : Int) else (stampStep p m.ingress : Int) + ingressCorr s p
    let o : Int := stamp - ((m.origin : Int) + (s.port p).pathDelay)
    servo (if m.tunnelled then softStamp s .tunnelledTiming else s) n o stamp.toNat m.logInterval
  else s

/-- HOLDOVER with no grandmaster in use. -/
def toHoldover (s : State) (n : Nat) : State := (enterHoldover s n).setNum (tbIdx n) 0x0A 0

/-- An Announce message counted for its time transmitter and port. -/
def heard (l : List Foreign) (m : AnnounceMsg) : Foreign :=
  let k := ((l.find? fun q => q.id = m.transmitter.toNat && q.port = m.port.val).map (·.count)).getD 0
  ⟨m.transmitter.toNat, m.port.val, k + 1, m.grandmaster.toNat,
    clockRank m.priority1.toNat m.clockClass.toNat m.quality.toNat m.priority2.toNat m.grandmaster.toNat m.steps.toNat⟩

/-- The list with one time transmitter's entry renewed. -/
def renewed (l : List Foreign) (f : Foreign) : List Foreign := (l.filter fun q => !(q.id = f.id && q.port = f.port)) ++ [f]

/-- Whether a qualified time transmitter is taken into use in place of `cur`: it beats the module's own clock where its port leaves the
role to the best master clock algorithm, and it beats the one in use; under PRP the path selected first stays in use (R97, R100). -/
def taken (s : State) (f : Foreign) (cur : Option Foreign) : Bool :=
  2 ≤ f.count && (s.rn (ptpIdx f.port) 2 = 2 || f.rank < ownRank s) &&
    match cur with
    | none => true
    | some c => f.rank < c.rank && (s.rn 0x3080 1 = 0 || f.port = c.port)

/-- An Announce message counts towards qualifying its transmitter; the best qualified one is taken into use, and a change of
grandmaster identity brings HOLDOVER (R91, R97). (DEDUCED, notes/assumptions/32.md) -/
def announceReceived (s : State) (n : Nat) (m : AnnounceMsg) : State :=
  let t := s.tb n
  if t.st = .free || t.hold || !s.cxUp || !mayReceive s m.port.val n then s
  else
    let key := (m.transmitter.toNat, m.port.val)
    let changed := t.transmitter = some key && s.rn (tbIdx n) 0x0A ≠ m.grandmaster.toNat && (t.st = .acquiring || t.st = .locked)
    let s := if changed then toHoldover s n else s
    let t := s.tb n
    let f := heard t.masters m
    let mine : Bool := t.transmitter = some key
    let cur := t.transmitter.bind fun q => t.masters.find? fun g => g.id = q.1 && g.port = q.2
    let t := { t with masters := renewed t.masters f }
    let t := if mine || t.transmitter.isNone then { t with lastAnnounce := s.clock.timClk, logAnnounce := m.logInterval } else t
    let s := s.setTb n t
    if mine || !taken s f cur then s
    else
      let other : Bool := cur.any fun c => c.gm ≠ f.gm && (t.st = .acquiring || t.st = .locked)
      let s := if other then (toHoldover s n).setTb n { (toHoldover s n).tb n with masters := t.masters } else s
      let t : TimeBase := { s.tb n with transmitter := some key, lastAnnounce := s.clock.timClk, logAnnounce := m.logInterval,
                                        lastSync := s.clock.timClk }
      (s.setTb n (if t.st = .holdover then t.acquire else t)).setNum (tbIdx n) 0x0A m.grandmaster.toNat

/-- An interval of 2^log s in TIM clocks. -/
def logClocks (log : Int) : Nat := if 0 ≤ log then wallSec (2 ^ log.toNat) else wallSec 1 / 2 ^ (-log).toNat

/-- Whether a time base waits for its time transmitter's messages (R91). -/
def listens (s : State) (n : Nat) : Bool :=
  let t := s.tb n
  (t.st = .locked || (t.st = .acquiring && t.transmitter.isSome)) && s.cxUp && !t.hold

/-- No valid Sync for 3 sync intervals (R91). -/
def syncLost (s : State) (n : Nat) : State :=
  if listens s n && s.elapsed (s.tb n).lastSync (3 * logClocks (s.tb n).logSync) then toHoldover s n else s

/-- The Announce receipt timeout: 3 Announce intervals (R91, R97). -/
def announceLost (s : State) (n : Nat) : State :=
  if listens s n && s.elapsed (s.tb n).lastAnnounce (3 * logClocks (s.tb n).logAnnounce) then toHoldover s n else s

/-! PTP message types in `Sent.ptp`. -/
def ptpSync : Nat := 0
def ptpDelayReq : Nat := 1
def ptpPdelayReq : Nat := 2
def ptpPdelayResp : Nat := 3
def ptpFollowUp : Nat := 8
def ptpDelayResp : Nat := 9
def ptpPdelayRespFollowUp : Nat := 0x0A
def ptpAnnounce : Nat := 0x0B

/-- Time base n as the die of port p holds it: the flywheel copy of NA, NB or CX (R33, R98). -/
def portTb (s : State) (p n : Nat) : Nat × Nat :=
  let fly := getAt (⟨0, []⟩ : Flywheel) s.clock.fly (if p < 4 then 2 else if p < 8 then 3 else 1)
  fly.tbs.getD n ((s.tb n).atTick, (s.tb n).inc)

/-- A stamp of port p in TBn, taken at a free offset of the present tick in steps of the port's resolution, with a correction in
2^-16 ns. (DEDUCED, notes/assumptions/122.md) -/
def stampOf (s : State) (p n : Nat) (corr : Int) : Nat × State :=
  let f := s.free
  let q := portTb s p n
  let off := if p ≥ 8 then f.1 % 7813 * 4 * 2 ^ 32 / 5 else f.1 % 1954 * 16 * 2 ^ 32 / 5
  (((q.1 + off * q.2 / nominalInc : Nat) + corr * 65536).toNat, f.2)

/-- A two-step Sync of a port that acts as time transmitter (R97, R98, R100). -/
def syncSend (s : State) (p n : Nat) : State :=
  if !isTransmitter s p n then s
  else
    let q := ((s.port p).syncSeq + 1) % 65536
    let s := s.setPort p { s.port p with syncSeq := q }
    let s := s.emit (.ptp ptpSync p n q 0 0)
    let x := stampOf s p n (egressCorr s p)
    x.2.emit (.ptp ptpFollowUp p n q x.1 0)

/-- An Announce with clockClass 248 and the configured priorities, of the grandmaster in use or of the module itself (R97). -/
def announceSend (s : State) (p n : Nat) : State :=
  if !isTransmitter s p n then s
  else
    let q := ((s.port p).annSeq + 1) % 65536
    let gm := s.rn (tbIdx n) 0x0A
    let pr := clockPriorities s
    (s.setPort p { s.port p with annSeq := q }).emit
      (.announce p n q (if gm = 0 then Config.clockIdentity.toNat else gm) 248 pr.1 pr.2 (announceLog s n))

/-- Whether a time base on a port uses the peer-to-peer mechanism (R100). -/
def peerDelay (s : State) (p n : Nat) : Bool := s.rn (ptpIdx p) 3 = 1 || s.rn (tbIdx n) 1 = 2

/-- A Delay_Req of a time receiver, or a Pdelay_Req (R97). -/
def delayRequestSend (s : State) (p n : Nat) : State :=
  if !tbOnPort s p n || !s.cxUp || (!peerDelay s p n && (!mayReceive s p n || isTransmitter s p n)) then s
  else
    let q := ((s.port p).seq + 1) % 65536
    let s := s.setPort p { s.port p with seq := q, waiting := true }
    let x := stampOf s p n (egressCorr s p)
    x.2.emit (.ptp (if peerDelay s p n then ptpPdelayReq else ptpDelayReq) p n q x.1 0)

/-- A Delay_Req or Pdelay_Req is answered (R97). -/
def delayRequestReceived (s : State) (p n who seq : Nat) : State :=
  if !tbOnPort s p n || !s.cxUp then s
  else if peerDelay s p n then
    let x := stampOf s p n (ingressCorr s p)
    let y := stampOf (x.2.emit (.ptp ptpPdelayResp p n seq x.1 who)) p n (egressCorr s p)
    y.2.emit (.ptp ptpPdelayRespFollowUp p n seq y.1 who)
  else if !isTransmitter s p n then s
  else
    let x := stampOf s p n (ingressCorr s p)
    x.2.emit (.ptp ptpDelayResp p n seq x.1 who)

/-- The response completes a path-delay measurement (R97). -/
def delayResponse (s : State) (p seq delay : Nat) : State :=
  let x := s.port p
  if x.waiting && x.seq = seq then s.setPort p { x with waiting := false, measured := true, pathDelay := delay } else s

/-- TB7 is written back into the Paddock clock (R95). -/
def tb7Writeback (s : State) : State :=
  if (s.tb 7).st = .locked && s.axUp then { s with paddock := { s.paddock with clock := (s.tb 7).val * 32768 / secUnits } } else s

/-! Leads (R104, R106, R108, R109). -/

/-- A station or Henvy sample reaches AT (R104): a station's count is unwrapped and scaled, a Henvy LEADPOS is taken as it is. Only a
module that has joined follows a Lead of another (R205). -/
def leadSampleIn (s : State) (n value stamp : Nat) : State :=
  let l := s.lead n
  let src := leadSource s n
  let t : Int := (stamp : Int) + s.ri (leadIdx n) 0x14 32
  if !s.axUp || !s.cxUp then s
  else if src = 2 then
    let w := if bit (s.rn (leadIdx n) 2) 15 then 64 else 32
    let c := if l.last.isSome then unwrap w l.count l.rawCount (value % 2 ^ w) else toSigned w value
    takeSample (s.setLead n { l with rawCount := value % 2 ^ w, count := c }) n (scaleCount s n c) t
  else if src = 4 && s.rn 0x3080 8 = 2 then takeSample s n (toSigned 64 value * 2 ^ 32) t
  else s

/-- EXTRAPOLATING for longer than the sample timeout, in ms of the tick time base (R106, R110). -/
def leadTimeout (s : State) (n : Nat) : State :=
  let l := s.lead n
  if l.st = ldExtra && l.sinceTick + 160 * s.rn (leadIdx n) 0x12 ≤ s.clock.tick then s.setLead n { l with st := ldStopping } else s

/-- A stop ramp has reached velocity 0 (R106, R110). -/
def leadStopped (s : State) (n : Nat) : State :=
  let l := s.lead n
  if l.st = ldStopping && l.vel = 0 then s.setLead n { l with st := ldLost } else s

/-- STATE_LOCKED of source, instance, scaling and mode while the Lead moves (R109). -/
def leadLocked (s : State) (n : Nat) : Nat := if leadStands s n then abOk else abLocked

/-- Why a resume is refused (R108, R111, R124). -/
def resumeAbort (s : State) (n : Nat) : Nat :=
  if (s.lead n).st ≠ ldLost then abLocked else if !sourceAlive s n then 0x2003 else abOk

/-! PPS (R564, R565). -/

/-- PPS_OUT is planned from the next whole second of its time base, or driven low (R565). -/
def ppsSelect (s : State) : State :=
  let isPps := fun (a : Action) => match a.work with
    | .pps _ => true
    | _ => false
  let s := { s with actions := { s.actions with armed := s.actions.armed.filter (fun a => !isPps a),
                                                due := s.actions.due.filter fun d => !isPps d.action } }
  let s := s.emit (.pin pinPps 0 false s.clock.tick 0)
  let n := s.rn 0x2060 1
  if n ≥ 8 then s
  else armAction s (.tb n ((predictTb s n 2 / secUnits + 1) * secUnits)) false 0 false (.pps true)

/-- An edge of PPS_OUT fires: a rise is followed by its fall and by the next rise. -/
def ppsEdge (s : State) (level : Bool) (kind : ActionKind) (tick offset : Nat) : State :=
  let s := s.emit (.pin pinPps 0 level tick offset)
  match level, kind with
  | true, .tb n t =>
    let s := armAction s (.tb n (t + s.rn 0x2060 2 * 1000000 * 2 ^ 32)) false 0 false (.pps false)
    armAction s (.tb n (t + secUnits)) false 0 false (.pps true)
  | _, _ => s

/-- A rising edge on PPS_IN: its stamp and its offset from the nearest whole second (R564, R565); `offset` is in 0.625 ns. -/
def ppsIn (s : State) (offset : Nat) : State :=
  let v := tbStamp s (s.rn 0x2060 3) (capUnits offset)
  let r := v % secUnits
  let d : Int := if 2 * r < secUnits then (r : Int) else (r : Int) - secUnits
  (((s.setNum 0x2060 4 (toTbtime v)).setNum 0x2060 5 (ofSigned 32 (Int.fdiv d (2 ^ 32)))).bump 0x2060 6)

end Sys2Proof.Machine
end

