-- ==== Sys2Proof/Machine/Recipe.lean ====
section
/-! DEFINITION. The layers as they are read (R487 to R492, R497): records of an image, steps of a recipe, and the layered value of an
entry. -/

namespace Sys2Proof.Machine

def abNotLayerable : Nat := 0xC001
def abLayerConflict : Nat := 0xC002
def abRecipeUnknown : Nat := 0xC003
def abRecipeHalted : Nat := 0xC004

def seqIdx (k : Nat) : Nat := 0xC200 + k

def State.seq (s : State) (k : Nat) : Sequencer := getAt Sequencer.init s.lay.seqs k
def State.setSeq (s : State) (k : Nat) (x : Sequencer) : State := { s with lay := { s.lay with seqs := setAt s.lay.seqs k x } }

/-! Sequencer states of R500. -/
def sqIdle : Nat := 0
def sqRunning : Nat := 1
def sqPaused : Nat := 2
def sqAborting : Nat := 3
def sqRearm : Nat := 4
def sqDone : Nat := 5
def sqFaulted : Nat := 6

/-- n layer entry records (R488) at the head of a byte string that stands at an offset of the image, and what follows them. -/
def takeRecs : Nat → Nat → List Byte → List LayerRec × Nat × List Byte
  | 0, off, b => ([], off, b)
  | n + 1, off, b =>
    let len := leNat (slice b 4 4)
    let whole := 8 + (len + 3) / 4 * 4
    let r : LayerRec := ⟨off, leNat (slice b 0 2), leNat (slice b 2 1), slice b 8 len⟩
    let t := takeRecs n (off + whole) (b.drop whole)
    (r :: t.1, t.2)

/-- A step of a recipe (R497). -/
structure StepRec where
  number    : Nat
  endKind   : Nat
  dkind     : Nat
  dur       : Nat
  next      : Nat
  condIndex : Nat
  condSub   : Nat
  condOp    : Nat
  condMask  : Nat
  condValue : Nat
  values    : List LayerRec
  actions   : List LayerRec
  deriving DecidableEq, Repr

def parseSteps : Nat → Nat → List Byte → List StepRec
  | 0, _, _ => []
  | n + 1, off, b =>
    let vs := takeRecs (leNat (slice b 18 2)) (off + 32) (b.drop 32)
    let acts := takeRecs (leNat (slice b 28 1)) vs.2.1 vs.2.2
    { number := leNat (slice b 0 2), endKind := leNat (slice b 2 1), dkind := leNat (slice b 3 1), dur := leNat (slice b 4 8), next := leNat (slice b 12 2),
      condIndex := leNat (slice b 14 2), condSub := leNat (slice b 16 1), condOp := leNat (slice b 17 1),
      condMask := leNat (slice b 20 4), condValue := leNat (slice b 24 4), values := vs.1, actions := acts.1 } ::
      parseSteps n acts.2.1 acts.2.2

def recipeTb (b : List Byte) : Nat := leNat (slice b 4 1)
def recipeLead (b : List Byte) : Nat := leNat (slice b 5 1)
def recipeAbort (b : List Byte) : Nat := leNat (slice b 6 2)

/-- The steps of a recipe that stands at an offset. -/
def recipeSteps (off : Nat) (b : List Byte) : List StepRec := parseSteps (leNat (slice b 2 2)) (off + 16) (b.drop 16)

/-- The recipe with a number, with its offset. -/
def recipeOf (o : OverlaySet) (n : Nat) : Option (Nat × List Byte) := o.recipes.find? fun r => leNat (slice r.2 0 2) = n

/-- Step k of recipe n of the active overlay set. -/
def stepOf (s : State) (n k : Nat) : Option StepRec :=
  match s.lay.ovl.bind (recipeOf · n) with
  | some r => (recipeSteps r.1 r.2).find? fun t => t.number = k
  | none => none

/-- The bytes of the recipe that sequencer k runs. -/
def seqRecipe (s : State) (k : Nat) : List Byte :=
  match s.lay.ovl.bind (recipeOf · (s.seq k).recipe) with
  | some r => r.2
  | none => []

/-- The step whose values sequencer k holds in its layer (R491, R500). -/
def layerStep (q : Sequencer) : Option Nat :=
  if q.st = sqRunning || q.st = sqPaused || q.st = sqAborting || q.st = sqRearm then some q.step
  else if q.st = sqFaulted then (if q.prev = 0xFFFF then none else some q.prev)
  else none

def seqRecs (s : State) (q : Sequencer) : List LayerRec :=
  match layerStep q with
  | some k => ((stepOf s q.recipe k).map (·.values)).getD []
  | none => []

def modeRecs (o : Option OverlaySet) (m : Nat) : List LayerRec :=
  match o.bind fun x => x.modes.find? fun p => p.1 = m with
  | some p => p.2
  | none => []

def baseRecs (b : Option BaseConfig) : List LayerRec :=
  match b with
  | some c => c.records
  | none => []

/-- The value that a record stores. -/
def recVal (r : LayerRec) : Val :=
  match entryOf r.index r.sub with
  | some e => storedVal e r.data
  | none => .oct r.data

def recFor (l : List LayerRec) (index sub : Nat) : Option LayerRec := l.find? fun r => r.index = index && r.sub = sub

/-- The record of the highest layer that holds an entry (R491). -/
def layerRecOf (s : State) (index sub : Nat) : Option LayerRec :=
  match recFor (s.lay.seqs.flatMap fun p => seqRecs s p.2) index sub with
  | some r => some r
  | none =>
    match recFor (modeRecs s.lay.ovl (s.rn 0xC000 2)) index sub with
    | some r => some r
    | none => recFor (baseRecs s.lay.base) index sub

/-- The layered value of an entry (R491). -/
def layeredVal (s : State) (index sub : Nat) : Val :=
  match layerRecOf s index sub with
  | some r => recVal r
  | none => defaultVal index sub

/-- Whether a layer may hold an entry (R488). -/
def layerable (index sub : Nat) : Bool :=
  match entryOf index sub with
  | some e => (e.acc = .rw || e.acc = .rwc) && !(0x1000 ≤ index && index ≤ 0x1FFF) && !(0xC000 ≤ index && index ≤ 0xCFFF) &&
      !(index = 0x2000 && sub = 1)
  | none => false

/-- A single coefficient in a section record (R234, R246): mantissa j, or ec. -/
def writeCoef (rec_ : List Byte) (j v : Nat) : List Byte :=
  if j = 5 then splice rec_ 15 (leBytes 1 (v % 64)) else splice rec_ (3 * j) (leBytes 3 v)

/-- Subindices of a channel whose values its unit takes up at a pickup (R234). -/
def liveSub (sub : Nat) : Bool := [0x0F, 0x10, 0x11, 0x13, 0x14].contains sub || (0x30 ≤ sub && sub < 0x40)

/-- One record of a base configuration as start-up loads it: a single coefficient goes into its section record, a declaration record to
the Ostler (R378), and a unit starts with the live values loaded (R234). -/
def loadRec (s : State) (r : LayerRec) : State :=
  let v := recVal r
  if 0x4000 ≤ r.index && r.index < 0x5000 then
    let live := fun (s : State) (sub : Nat) (v : Val) =>
      { s.setReg r.index sub v with taken := setAt s.taken (regKey r.index sub) v }
    if liveSub r.sub then live s r.sub v
    else if 0x40 ≤ r.sub && r.sub < 0xC0 && (r.sub - 0x40) % 8 ≤ 5 then
      let k := 0x30 + (r.sub - 0x40) / 8
      live s k (.oct (writeCoef (s.reg r.index k).octets ((r.sub - 0x40) % 8) v.toNat))
    else s.setReg r.index r.sub v
  else if r.index = 0xA000 && r.sub = 0x0B then
    { s with ost := { s.ost with decls := setAt s.ost.decls (leNat (slice r.data 0 1) * 4096 + leNat (slice r.data 2 2)) (slice r.data 0 8) } }
  else s.setReg r.index r.sub v

/-- The declarations and values of a base configuration as start-up loads them (R64, R487); a timing reference that it selects waits for
qualification (R26). -/
def loadBase (s : State) (c : BaseConfig) : State :=
  let s := (c.decls ++ c.records).foldl loadRec s
  let good := s.rn 0x2000 0x0A = 1
  { s with clock := { s.clock with refSwitch := s.rn 0x2000 7 = 1 && good, refWaiting := s.rn 0x2000 7 = 1 && !good } }

/-- Live values return to their layered values (R524), in the entries and in the units that run with them. -/
def restoreLayered (s : State) : State :=
  let s := s.regs.foldl (fun s p =>
    let index := p.1 / 256
    let sub := p.1 % 256
    if layerable index sub then s.setReg index sub (layeredVal s index sub) else s) s
  { s with taken := mapVals (fun k _ => s.reg (k / 256) (k % 256)) s.taken, stored := [] }

/-- A mode request without an apply block (R496): the first line-cycle boundary at least 2 base ticks later; it replaces an earlier
one. -/
def requestMode (s : State) (v : Nat) : State :=
  { (s.setNum 0xC000 1 v) with lay := { s.lay with mode := some (v, s.clock.tick + 2, true) } }

end Sys2Proof.Machine
end

