-- ==== Sys2Proof/Machine/Health.lean ====
section
/-! DEFINITION. Start-up, firmware, CX warm restart, error containment, the governor, power failure and the Paddock (R508 to R547). -/

namespace Sys2Proof.Machine

def abUpdateRefused : Nat := 0xB001
def abNotVerified : Nat := 0xB002

def State.setHealth (s : State) (h : Health) : State := { s with health := h }

/-- Whether the dies run: supplied and not held in reset. -/
def State.on (s : State) : Bool := s.health.running

/-! The Paddock (R537 to R540). -/

/-- An entry of the event log (R540) and its pulse on WAKE_N (R539). -/
def paddockLog (s : State) (code data : Nat) : State :=
  let p := s.paddock
  let e := leBytes 6 (p.clock / 32768) ++ leBytes 2 (p.clock % 32768) ++ leBytes 1 code ++ leBytes 1 data ++ leBytes 2 p.seq ++
    leBytes 4 0
  let l := p.log ++ [e]
  let s := { s with paddock := { p with log := l.drop (l.length - 64), seq := (p.seq + 1) % 65536 } }
  if bit (s.rn 0xB080 7) code then
    ({ s with paddock := { s.paddock with wake := true, wakeAt := p.clock } }).emit (.pin pinWake 0 false s.clock.tick 0)
  else s

/-- The VBAT comparator (R538): low below 2.20 V, clear above 2.30 V. -/
def vbatCompare (s : State) (mv : Nat) : State :=
  let s := s.setNum 0xB080 2 (min mv 65535)
  if mv < 2200 && !s.paddock.vbatLow then
    paddockLog { s with paddock := { s.paddock with vbatLow := true } } 1 (min 255 (mv / 20))
  else if mv > 2300 && s.paddock.vbatLow then
    paddockLog { s with paddock := { s.paddock with vbatLow := false } } 2 (min 255 (mv / 20))
  else s

/-- The case switch (R538): an opening sets the stop objects of OD B080:06 while the module is powered. -/
def caseSample (s : State) (isOpen : Bool) : State :=
  if isOpen = s.paddock.caseOpen then s
  else
    let s := paddockLog { s with paddock := { s.paddock with caseOpen := isOpen } } (if isOpen then 4 else 5) 0
    if isOpen && s.on then setObjects s (s.rn 0xB080 6) 2 else s

/-- The temperature comparator (R538). -/
def tempSample (s : State) (celsius : Int) : State :=
  let high : Bool := celsius > s.ri 0xB080 3 8
  if high = s.paddock.tempHigh then s
  else paddockLog { s with paddock := { s.paddock with tempHigh := high } } (if high then 6 else 7) 0

/-- VBAT below 2.0 V sets the latch; without PWR_12V the event log is not retained (R537). (DEDUCED, notes/assumptions/108.md) -/
def brownOut (s : State) : State :=
  { s with paddock := { s.paddock with latch := true, log := if s.on then s.paddock.log else [] } }

/-- The 100 ms of WAKE_N from its last event, 3,276.8 clocks of the Paddock, end (R539). (DEDUCED, notes/assumptions/149.md) -/
def wakeEnd (s : State) : State :=
  if s.paddock.wake && (!s.on || s.paddock.wakeAt + 3276 ≤ s.paddock.clock) then ({ s with paddock := { s.paddock with wake := false } }).emit (.pin pinWake 0 true s.clock.tick 0) else s

def clearLog (s : State) : State := { s with paddock := { s.paddock with log := [] } }

/-! Loss of supply and reset (R508 to R510). -/

/-- Registers that the module keeps through a power loss ("ret"), and those of the Paddock. -/
def keptReg (k : Nat) : Bool :=
  let i := k / 256
  let sub := k % 256
  (i = 0xB000 && (sub = 6 || sub = 0x0C)) || (i = 0xB020 && (sub = 1 || sub = 4)) || (i = 0xB040 && sub = 9) ||
    (i = 0xF000 && sub = 3) || (0xA100 ≤ i && i < 0xA168 && sub = 6) || (0xC200 ≤ i && i < 0xC240 && sub = 0x0E) ||
    (i = 0xB080 && (sub = 2 || sub = 3 || sub = 6 || sub = 7)) || (i = 0xB010 && sub = 4) || (i = 0xB030 && sub = 7)

/-- What MRAM holds of each sequencer's current recipe and step (R502): it changes with the step changes, and OD C200+s:0E shows it after a
loss of power. -/
def keepSteps (s : State) : State :=
  s.lay.seqs.foldl (fun s p =>
    if p.2.step = 0xFFFF && p.2.prev = 0xFFFF then s
    else s.setNum (seqIdx p.1) 0x0E (p.2.recipe * 65536 + (layerStep p.2).getD 0xFFFF)) s

/-- Every die but the Paddock is held: what MRAM, the NOR, the fuses, the SSDs and the Paddock hold remains, the rest is at reset. -/
def coldState (s : State) : State :=
  let z := State.reset
  { z with
    regs := (keepSteps s).regs.filter (fun p => keptReg p.1)
    rcd := { z.rcd with nextSeq := s.rcd.nextSeq, prevTick := s.rcd.prevTick }
    ssds := mapVals (fun _ (x : Ssd) => { x with st := 0, link := 0, drain := [] }) s.ssds
    prog := { z.prog with activeRaw := s.prog.activeRaw, bankRaw := s.prog.bankRaw, slots := s.prog.slots, seq := s.prog.seq,
                          xst := if s.prog.bankRaw.isEmpty then bkEmpty else bkLoaded }
    ost := { z.ost with units := s.ost.units.filter (fun p => p.2.st = usRetired) }
    lay := { z.lay with baseRaw := s.lay.baseRaw, ovlRaw := s.lay.ovlRaw, bankRaw := s.lay.bankRaw, bankKind := s.lay.bankKind,
                        bankSt := if s.lay.bankRaw.isEmpty then bkEmpty else bkLoaded }
    health := { z.health with supplied := s.health.supplied, reset := s.health.reset, nor := s.health.nor, bootNext := s.health.bootNext, bootRaw := s.health.bootRaw, pkgRaw := s.health.pkgRaw,
                              pkgSt := if s.health.pkgRaw.isEmpty then bkEmpty else bkLoaded, revoked := s.health.revoked,
                              anchors := s.health.anchors, enrolment := s.health.enrolment }
    paddock := s.paddock
    sent := s.sent
    freeCtr := s.freeCtr
    pending := s.pending }

/-- Start-up begins at step 1 (R508, R512); the Paddock reports a clock lost since the last power-on (R538). -/
def beginStartup (s : State) : State :=
  let s := { s with regs := s.regs.filter fun p => p.1 / 256 ≠ 0xB080 || p.1 % 256 = 2 }
  let lost := s.paddock.latch
  let s := { s with health := { s.health with running := true, reset := false, step := 1, startClk := s.clock.timClk, stepClk := s.clock.timClk },
                    paddock := { s.paddock with latch := false, clockLost := lost } }
  if lost then paddockLog { s with paddock := { s.paddock with clock := 0 } } 9 0 else s

/-- PWR_12V returns (R508): the Paddock clock has run on for a time that no rule gives. Start-up waits for RST_N. -/
def powerOn (s : State) : State :=
  if s.on || s.health.supplied then s
  else
    let f := s.free
    let s := { f.2 with paddock := { s.paddock with clock := s.paddock.clock + f.1 } }
    let s := (coldState s).bump 0xB000 0x0C
    let s := s.setHealth { s.health with supplied := true }
    if s.health.reset then s else beginStartup s

/-- RST_N falls: every die but the Paddock is held, and CX releases the NOR to the QSPI lands (R22, R510). -/
def resetAssert (s : State) : State :=
  let s := if s.on then coldState { s with health := { s.health with supplied := true } } else s
  s.setHealth { s.health with reset := true, nor := .lands }

/-- RST_N rises: CX owns the NOR again, and start-up runs where the supply is there (R22, R510). -/
def resetRelease (s : State) : State :=
  if !s.health.reset then s
  else
    let s := s.setHealth { s.health with reset := false, nor := .cx }
    if s.health.supplied then beginStartup s else s

/-- The dies lose their supply and the Paddock logs it. -/
def supplyLost (s : State) : State :=
  if s.on || s.health.supplied then paddockLog ((coldState s).setHealth { (coldState s).health with supplied := false }) 8 0 else s

/-- Undervoltage lockout (R533). -/
def lockout (s : State) (micros : Nat) : State :=
  let s := if s.on && s.health.pfw.isSome then s.setNum 0xB020 4 (micros % 2 ^ 32) else s
  supplyLost s

/-! Start-up steps (R512 to R515). -/

/-- Functions that report READY at the end of a step, in the numbers of R66. -/
def readyAt : Nat → List Nat
  | 3 => [1]
  | 4 => [0, 11, 13]
  | 5 => [10, 6, 7, 9]
  | 7 => [3, 4, 5]
  | 8 => [2]
  | 9 => [8, 12]
  | _ => []

/-- Functions that a module without a base configuration serves (R515). -/
def bareFunctions : List Nat := [1, 0, 11, 13]

/-- A function reports READY unless it failed or is disabled. -/
def makeReady (s : State) (f : Nat) : State := if (s.ready f).state = 1 then s.setReady f ⟨2, 0, 0⟩ else s

/-- The state of the last completed step in every readiness word still in BRINGUP (R67). -/
def noteStep (s : State) (n : Nat) : State :=
  forNums 14 s fun s f =>
    let r := s.ready f
    if r.state = 1 then s.setReady f { r with step := n } else s

/-- The firmware images of the package that booted give each region its version (R72, R517). -/
def bootVersions (s : State) : State :=
  match Config.firmwarePackage s.health.bootRaw with
  | some p => forNums 8 s fun s r => s.setNum 0x1002 (r + 1) p.version
  | none => s

/-- The slot named in the boot record boots, or the other one (R517). -/
def bootSlot (s : State) (fallback : Bool) : State :=
  let slot := if fallback then 1 - s.health.bootNext else s.health.bootNext
  let h := s.health
  let s := if slot = s.rn 0xB010 4 then s
    else (s.setNum 0xB010 4 slot).setHealth { h with bootRaw := h.pkgRaw, pkgRaw := h.bootRaw,
                                                     pkgSt := if h.bootRaw.isEmpty then bkEmpty else bkLoaded }
  bootVersions (if fallback then s.setNum 0xB010 5 (s.rn 0xB010 5 ||| 1) else s)

/-- The owner anchor is fused at a boot with none (R518). -/
def fuseAnchor (s : State) : State :=
  if s.health.anchors.isEmpty && !s.health.enrolment.isEmpty then
    s.setHealth { s.health with anchors := [Config.sha384 s.health.enrolment] }
  else s

/-- The owner anchor in force. -/
def ownerAnchor (s : State) : List (List Byte) := (s.health.anchors.getLast?).toList

/-- The active base configuration and overlay set are verified and loaded at step 2; without one, every function but those of steps 3
and 4 is DISABLED (R487, R515). `cause` is 3, or 5 for a refused signature. -/
def loadConfig (s : State) (refused : Option Nat) : State :=
  let base := if refused.isNone && Config.chainsTo s.lay.baseRaw (ownerAnchor s) then Config.baseConfig s.lay.baseRaw else none
  match base with
  | none =>
    let cause := refused.getD (if s.lay.baseRaw.isEmpty || (Config.baseConfig s.lay.baseRaw).isNone then 3 else 5)
    let s := s.setNum 0xB010 5 (s.rn 0xB010 5 ||| 2)
    forNums 14 s fun s f => if bareFunctions.contains f then s else s.setReady f ⟨6, 0, cause⟩
  | some c =>
    let ovl := if Config.chainsTo s.lay.ovlRaw c.ovlAnchors then Config.overlaySet s.lay.ovlRaw else none
    let s := loadBase s c
    { s with lay := { s.lay with base := some c, ovl := ovl }, henvy := { s.henvy with number := c.number } }

/-- Time bases start under R90; TB7 takes the Paddock clock or is held in FREE (R95). -/
def startTimeBases (s : State) : State :=
  forNums 8 s fun s n =>
    let t := { TimeBase.init n with st := if s.rn (tbIdx n) 1 = 0 then TbState.free else TbState.acquiring }
    if n ≠ 7 then s.setTb n t
    else if s.paddock.clockLost then s.setTb 7 { t with st := .free, hold := true }
    else s.setTb 7 { t with val := s.paddock.clock * secUnits / 32768 % tbModulus }

/-- Leads take the sources that the configuration names (R106, R109). -/
def startLeads (s : State) : State :=
  forNums 8 s fun s n => if s.rn (leadIdx n) 1 = 0 then s else newSource s n

/-- Triggers, converter ranges and output modes of the configuration take effect (R408, R416, R417). -/
def startAnalogue (s : State) : State :=
  let s := forNums 96 s fun s i => s.setAin i { s.ain i with range := s.rn (ainIdx i) 1 }
  let s := forNums 16 s fun s o =>
    let m := s.rn (aoutIdx o) 1
    if m = 0 then s
    else s.setAout o { AOut.init with code := safeCode s o, last := safeCode s o }
  forNums 64 s fun s t => if s.rn (trigIdx t) 1 = 0 then s else armTrigger s t (s.rn (trigIdx t) 1)

def startField (s : State) : State := { s with field := { s.field with typesDue := true } }

/-- Units other than the retired ones start IDLE, spare counts are restored, the rotation interval runs (R384, R391, R395). -/
def startUnits (s : State) : State :=
  (List.range 13).foldl restoreSpares { s with ost := { s.ost with rotAt := s.now } }

/-- The units of a region whose image was refused are FAILED, reported as SUSPECT; a function left without a unit fails with
CAUSE 5 (R515). (DEDUCED, notes/assumptions/102.md) -/
def regionRefused (s : State) (region : Nat) : State :=
  let s := s.setNum 0xB010 5 (s.rn 0xB010 5 ||| 4)
  let s := forNums 104 s fun s u =>
    if regionOf u = region && (s.unit u).st ≠ usRetired then s.setUnit u { s.unit u with st := usSuspect } else s
  let dead := fun (kind : Nat) => (List.range 104).all fun u =>
    unitKind u ≠ kind || (s.unit u).st = usSuspect || (s.unit u).st = usRetired
  let s := if dead 1 then s.setReady 3 ⟨5, 0, 5⟩ else s
  let s := if dead 2 then (s.setReady 4 ⟨5, 0, 5⟩).setReady 5 ⟨5, 0, 5⟩ else s
  if dead 3 then s.setReady 8 ⟨5, 0, 5⟩ else s

/-- Engines leave bring-up (R515): an engine that failed is SILENT; with both failed OD 3000 reports FAILED. -/
def startEngines (s : State) (na nb : Bool) : State :=
  let s := if na then silence s .na else activate s .na
  let s := if nb then silence s .nb else activate s .nb
  let s := (s.setDie 2 (if na then 5 else 2)).setDie 3 (if nb then 5 else 2)
  let s := if na || nb then s.setNum 0xB010 5 (s.rn 0xB010 5 ||| 8) else s
  let s := if na then forNums 4 s fun s k => s.setRing k { s.ring k with cmd := .nb } else s
  if na && nb then s.setReady 2 ⟨5, 0, 2⟩ else s

/-- Whether acquisition of the tick time base is over (R513). (DEDUCED, notes/assumptions/101.md) -/
def acquired (s : State) : Bool :=
  let t := s.tickTb
  t.st ≠ .acquiring || bit (s.rn 0xB010 5) 4

/-- The step of the tick time base by the last measured offset, and the first line-cycle boundary (R513, R87). (DEDUCED,
notes/assumptions/33.md) -/
def endAcquisition (s : State) : State :=
  let n := s.rn 0x2000 1
  let t := s.tb n
  let s := if t.freqs.isEmpty || t.lastOffset = 0 || t.st = .free then s
    else (stepTb s n ((t.val : Int) - t.lastOffset * 65536).toNat).bump (tbIdx n) 0x0B
  { s.setNum 0x2000 4 0 with clock := { s.clock with lcStarted := true, tick := s.tickTb.val / tickUnits % 2 ^ 64 } }

/-- A channel or an axis that a record of the configuration enables is placed and enabled (R514). An enable is a record of OD 4000+n:03
or 5000+n:03. -/
def enableByRecord (s : State) (r : LayerRec) : State :=
  if r.sub = 3 && leNat r.data = 1 then
    if 0x4000 ≤ r.index && r.index < 0x5000 && s.serves 3 then
      let n := r.index - 0x4000
      let c := chanEnableCauses s n
      if c.isEmpty then enableChannel s n else if c.contains abPlacementRefused then (place s 1 n).2 else s
    else if 0x5000 ≤ r.index && r.index < 0x5800 && s.serves 4 then
      let n := r.index - 0x5000
      let c := axisEnableCauses s n
      if c.isEmpty then enableAxis s n else if c.contains abNoProfiler then (place s 2 n).2 else s
    else s
  else s

/-- Channels and axes that the configuration enables are placed and enabled (R514). -/
def startEnables (s : State) : State := (baseRecs s.lay.base).foldl enableByRecord s

/-- Channels that a failed check of their cluster memory left OFF after a restart, for which the configuration's enable applies again
(R233). -/
def enableAgain (s : State) (l : List Nat) : State :=
  ((baseRecs s.lay.base).filter fun r => 0x4000 ≤ r.index && r.index < 0x5000 && l.contains (r.index - 0x4000)).foldl enableByRecord s

/-- The work of a function when it reports READY (R514). -/
def startFunction (s : State) (f : Nat) : State :=
  if !s.serves f then s
  else
    match f with
    | 1 => startLeads s
    | 2 =>
      let s := forNums 4 s startRing
      if s.rn 0x3080 2 = 1 && henvyState s = hvOff then becomeCandidate s else s
    | 3 => startEnables s
    | 4 => startEnables s
    | 6 => startAnalogue s
    | 7 => startField s
    | 8 => programStart s
    | 12 => { s with lay := { s.lay with mode := some (s.rn 0xC000 3, s.clock.tick + 2, true) } }
    | _ => s

/-- A start-up step ends (R512): its functions report READY, and the next step begins or start-up ends. -/
def endStep (s : State) (n : Nat) : State :=
  let s := (noteStep s n).setNum 0xB010 1 n
  let s := (readyAt n).foldl makeReady s
  let s := (readyAt n).foldl startFunction s
  let s := s.emit (.uart n false)
  if n = 9 then
    let s := s.setNum 0xB010 3 ((s.clock.timClk - s.health.startClk) / 250000 % 2 ^ 32)
    s.setHealth { s.health with step := 0 }
  else s.setHealth { s.health with step := n + 1, stepClk := s.clock.timClk }

/-- What the work of a step leaves before its functions report READY, with the failures of R515. -/
def stepWork (s : State) (n : Nat) (r : StepResult) : State :=
  match n with
  | 2 => loadConfig (fuseAnchor (bootSlot s (r = .slotFallback))) (match r with
      | .noConfig => some 3
      | .signatureRefused => some 5
      | _ => none)
  | 3 => startTimeBases ((s.setDie 4 2).setDie 5 2)
  | 4 => toService ((([6, 7, 8, 9].foldl (fun s d => s.setDie d 2) s)).setDie 1 2)
  | 5 =>
    let s := match r with
      | .regionRefused g => regionRefused s g.val
      | .unitFailed us => us.foldl (fun s u => setRetired s u.val 1) s
      | _ => s
    startUnits s
  | 6 =>
    match r with
    | .engineFailed na nb => startEngines s na nb
    | _ => startEngines s false false
  | 7 => endAcquisition s
  | 9 => if r = .noProgram then s.setProg { s.prog with activeRaw := [] } else s
  | _ => s

/-- A start-up step completes or fails (R512, R515). -/
def startupStep (s : State) (r : StepResult) : State :=
  let n := s.health.step
  if !s.on || n = 0 || s.health.bootRom then s
  else if n = 2 && r = .bootFail then (s.setHealth { s.health with bootRom := true, step := 0 }).emit (.uart 2 true)
  else if n = 7 && !acquired s then s
  else endStep (stepWork s n r) n

/-- The acquisition timeout of OD B010:02 passes in step 7 (R513). -/
def acquisitionTimeout (s : State) : State :=
  if s.on && s.health.step = 7 && s.tickTb.st = .acquiring && s.elapsed s.health.stepClk (wallSec (s.rn 0xB010 2)) then s.setNum 0xB010 5 (s.rn 0xB010 5 ||| 16) else s

/-! Power failure (R533 to R536). -/

/-- What CX does at a fall of PFW_N (R351, R481). -/
def cxWarning (s : State) : State := sealRecorder (retainFlush s)

/-- The governor's step with what it sets (R528, R529). -/
def setStep (s : State) (n : Nat) : State :=
  let s := { s with gov := { s.gov with step := n, stepAt := if n = s.gov.step then s.gov.stepAt else some s.clock.timClk } }
  ((s.setNum 0xB040 1 n).setNum 0xB040 3 (if n ≤ 1 then 1600 else if n = 2 then 1200 else if n = 3 then 800 else 400)).setNum 0xB040 4
    (effortCap n)

/-- PFW_N falls (R511, R533): whether PWR_12V is below 10.2 V, so that the module drives it low itself (R508, R511), or external
equipment pulls it low, the command does not say. (DESIGN CHOICE, notes/assumptions/168.md) -/
def powerFailWarning (s : State) : State :=
  if !s.on || s.health.pfw.isSome then s
  else
    let s := (s.bump 0xB020 1).setNum 0xB020 5 1
    let own := Config.freeBit s.freeCtr
    let s := { s with freeCtr := s.freeCtr + 1 }
    let s := if own then s.emit (.pin pinPfw 0 false s.clock.tick 0) else s
    let s := s.setHealth { s.health with pfw := some s.clock.timClk, pfwOut := own }
    let s := setStep s 4
    if s.cxUp then cxWarning s else s

/-- Local axes start stop_step at the shutdown step (R533, R536). -/
def stopLocals (s : State) : State :=
  forNums 32 s fun s a =>
    let l := s.loc a
    if s.rn (locIdx a) 1 = 0 then s
    else if l.coasting then s.setLoc a { l with coast := l.coast.beginStop }
    else
      match axisOfLocal s a with
      | some n => if stoppable (s.axis n).st && s.cxUp then stopAxis s n scRein else s
      | none => s

/-- Analogue outputs carry their safe code and set SAFE (R533). -/
def safeOutputs (s : State) : State :=
  forNums 16 s fun s o =>
    if s.rn (aoutIdx o) 1 = 0 then s else s.setAout o { s.aout o with safe := true, code := safeCode s o }

/-- The shutdown step (R533): the delay of OD B020:02 from the fall of PFW_N is over, or PWR_12V is below 9.6 V. -/
def shutdownStep (s : State) : State :=
  if !s.on || s.health.shut || s.health.pfw.isNone then s
  else
    let s := if s.cxUp then powerFailStop s else s
    let s := setObjects s (s.rn 0xB020 3) 2
    let s := { s with field := { s.field with sendDecl := true } }
    let s := (stopLocals (safeOutputs s)).setNum 0xB020 5 2
    s.setHealth { s.health with shut := true }

/-- PFW_N returns high (R535). (DEDUCED, notes/assumptions/105.md) -/
def powerFailClear (s : State) : State :=
  if !s.on || s.health.pfw.isNone then s
  else
    let s := if s.health.pfwOut then s.emit (.pin pinPfw 0 true s.clock.tick 0) else s
    unsealRecorder ((s.setHealth { s.health with pfw := none, pfwHigh := s.clock.timClk, pfwOut := false }).setNum 0xB020 5 0)

/-- AX clears DECLARE once PFW_N has been high for 100 ms (R535). -/
def declareClear (s : State) : State :=
  if s.health.shut && s.health.pfw.isNone && s.elapsed s.health.pfwHigh (wallNs 100000000) then
    { s with field := { s.field with sendDecl := false }, health := { s.health with shut := false } }
  else s

/-! CX warm restart (R522 to R525). -/

/-- What a client is told when its watches end at a restart (R70). -/
def endWatches (s : State) : State :=
  let s := s.dict.watches.reverse.foldl (fun s w =>
    match w.client with
    | .station _ =>
      if w.sub = 0 && isFirstEntry w.index then s.emit (.notice w.client w.txn w.index w.sub 0 (leBytes 4 (restartingWord s)))
      else s.emit (.notice w.client w.txn w.index w.sub abNotReady [])
    | _ => s) s
  { s with dict := { s.dict with watches := [] } }

/-- Whether a restart discards an action (R70): every scheduled write that is pending, and one that has fallen due and that CX was to
apply. -/
def isScheduled (due : Bool) (a : Action) : Bool := if due then a.work.isWrite else a.work.who.isSome

/-- The dictionary server at the start of a restart (R70, R523): sessions close, watches end, pending writes and transfers are
discarded. -/
def dropClients (s : State) : State :=
  let s := s.dict.sessions.foldl (fun s p => match p.2 with
    | some _ => if h : p.1 < 16 then s.emit (.closed (.session ⟨p.1, h⟩)) else s
    | none => s) s
  let s := endWatches s
  let station := fun c => match c with
    | ClientId.station _ => true
    | _ => false
  let s := s.dict.atLc.foldl (fun s w => if station w.client then answerWrite s w.client w.txn w.op w.elems abNotReady 0 else s) s
  let gone := (s.actions.armed.filter (isScheduled false)) ++ (s.actions.due.map (·.action)).filter (isScheduled true)
  let s := (gone.filter fun a => (a.work.who.any fun q => station q.1) && !answeredAtArm a.work).foldl
    (fun s a => answerWork s a.work abNotReady 0 0) s
  { s with dict := { s.dict with sessions := [], transfers := [], abandoned := [], atLc := [] },
           actions := { s.actions with armed := s.actions.armed.filter (fun a => !isScheduled false a),
                                       due := s.actions.due.filter fun d => !isScheduled true d.action } }

/-- CX goes down: its regions stop, every migration is abandoned (R389), the scheduler and the recorder stop (R375, R480). -/
def cxDown (s : State) : State :=
  let s := dropClients s
  let s := { s with lay := { s.lay with seqs := mapVals (fun _ (q : Sequencer) => { q with condDue := false }) s.lay.seqs } }
  let s := { s.countBy 0xA000 7 32 s.ost.migs.length with ost := { s.ost with migs := [], plans := [], turning := [] } }
  stopRecorder (toBackpressure s)

/-- A CX warm restart begins (R522, R523). -/
def beginRestart (s : State) (cause : Nat) (planned : Bool) : State :=
  let s := cxDown s
  let s := ((s.setDie 1 4).bump 0xB000 8).setNum 0xB000 0x0A cause
  let s := if planned then s else s.bump 0xB000 9
  s.setHealth { s.health with restart := some ⟨cause, planned, none, s.clock.timClk⟩, down := true }

/-- The fourth unplanned restart within 600 s does not take place (R525). -/
def unplannedRestart (s : State) (cause : Nat) : State :=
  if !s.on || !s.cxUp then s
  else
    let l := s.health.unplanned.filter fun t => s.clock.timClk < t + wallSec 600
    if l.length ≥ 3 then
      let s := cxDown s
      (s.setDie 1 5).setHealth { s.health with restart := none }
    else
      let s := beginRestart s cause false
      s.setHealth { s.health with unplanned := s.clock.timClk :: l }

/-- Why a planned restart is refused (R536): also while one is under way or start-up runs. (DEDUCED, notes/assumptions/104.md) -/
def restartAbort_ (s : State) : Nat :=
  if s.health.pfw.isSome || s.health.restart.isSome || s.health.step ≠ 0 then abLocked else abOk

/-- A planned restart names its entry boundary (R522). -/
def planRestart (s : State) (cause : Nat) : State :=
  let e := s.soonLc
  { s with coast := { s.coast with announced := some e },
           health := { s.health with restart := some ⟨cause, true, some e, s.clock.timClk⟩ } }

/-- The named boundary of a planned restart is reached. -/
def restartAtLc (s : State) : State :=
  match s.health.restart with
  | some r => match r.at_ with
    | some e => if e ≤ s.clock.tick then beginRestart s r.cause true else s
    | none => s
  | none => s

/-- A servo resumes after a restart from the checkpoint, or acquires again without one (R91, R92). -/
def resumeServo (s : State) (good : Bool) : State :=
  forNums 8 s fun s n =>
    let t := { s.tb n with first := true, lastSync := s.clock.timClk, lastAnnounce := s.clock.timClk }
    s.setTb n (if good || t.st = .free || t.st = .holdover then t else { t.acquire with transmitter := none, masters := [] })

/-- The firmware region CB and P0 runs its new image (R520, R72). -/
def regionDone (s : State) (region : Nat) : State :=
  let v := (s.health.pkg.map (·.version)).getD (s.rn 0xB030 6)
  (s.setNum 0x1002 region v).setHealth { s.health with updating := none }

/-- The state that CX reads back from a path engine over its link (R51, R52, R176). -/
def engineDieState (s : State) (e : Engine) : Nat :=
  if (s.link (linkNum (toCx e))).failed then 5
  else match (s.eng e).st with
    | 0 => 1
    | 1 => 2
    | 3 => 3
    | _ => 5

/-- The die states that CX reports after a restart, read back over the links (R52). -/
def readBackDies (s : State) : State :=
  let s := (s.setDie 2 (engineDieState s .na)).setDie 3 (engineDieState s .nb)
  if (s.link (linkNum .axCx)).failed then s.setDie 4 5 else s

/-- CX returns (R523, R524, R536). -/
def warmReturn (s : State) (good taskGood : Bool) : State :=
  match s.health.restart with
  | none => s
  | some r =>
    if !s.health.down || s.health.tripped then s
    else
      let s := readBackDies (clearLinks (s.setDie 1 2) .cx)
      let s := if good then s else (restoreLayered s).setNum 0xB000 0x0A (r.cause + 0x80)
      let s := resumeServo s good
      let lost := (s.chans.filter fun p => p.2.st = chOff && p.2.resumeDue).map (·.1)
      let s := { s with chans := mapVals (fun _ (c : Chan) => { c with resumeDue := c.st ≠ chOff && c.st ≠ chFailed }) s.chans }
      let s := enableAgain s lost
      let s := resumeRecorder (toService (programReturn s taskGood))
      let s := if r.cause = 2 then regionDone s 1 else s
      let s := if s.coast.active then { s with coast := { s.coast with returnAt := some s.soonLc } } else s
      let s := s.setHealth { s.health with down := false, restart := if s.coast.active then some r else none }
      if s.health.pfw.isSome && s.serves 8 then
        let s := cxWarning s
        if s.health.shut then powerFailStop s else s
      else s

/-- The duration of a restart from e to h (OD B000:0B). -/
def restartEnd (s : State) : State :=
  match s.health.restart with
  | some r =>
    if s.health.down || r.at_.isSome then s
    else (s.setNum 0xB000 0x0B ((s.clock.timClk - r.clk) / 250 % 2 ^ 32)).setHealth { s.health with restart := none }
  | none => s

/-! Firmware (R516 to R521). -/

/-- A package lands in the slot that did not boot. -/
def firmwareSegment (s : State) : State := s.setHealth { s.health with pkgSt := bkLoading, pkg := none }
def firmwareImage (s : State) (raw : List Byte) : State := s.setHealth { s.health with pkgRaw := raw, pkgSt := bkLoaded, pkg := none }

def firmwareBusy (s : State) : Bool := s.health.updating.isSome

/-- (DEDUCED, notes/assumptions/103.md) -/
def firmwareVerifyAbort (s : State) : Nat :=
  if (s.health.pkgSt = bkLoaded || s.health.pkgSt = bkPrepared) && !firmwareBusy s then abOk else abLocked

/-- R517 of every image of the package. -/
def packageGood (s : State) (p : FwPackage) : Bool :=
  p.security ≥ s.rn 0xB030 7 && p.images.all fun i => i.signature && i.digest && !bit s.health.revoked i.key

/-- VERIFY: the code it answers with, and the package state. -/
def firmwareVerify (s : State) : Nat × State :=
  match Config.firmwarePackage s.health.pkgRaw with
  | some p =>
    if packageGood s p then (abOk, (s.setNum 0xB030 6 p.version).setHealth { s.health with pkg := some p, pkgSt := bkPrepared })
    else (abSignature, s.setHealth { s.health with pkgSt := bkRefused })
  | none => (abSignature, s.setHealth { s.health with pkgSt := bkRefused })

/-- NOT_VERIFIED (R547); a region whose arithmetic the package changes takes its image at the power cycle only (R521). -/
def commitAbort (s : State) : Nat :=
  match s.health.pkg with
  | some p =>
    if s.health.pkgSt = bkPrepared && !firmwareBusy s &&
        (List.range 8).all (fun r => p.arithmetic.contains (r + 1) || s.rn 0x1002 (r + 1) = p.version) then abOk
    else abNotVerified
  | none => abNotVerified

def firmwareCommit (s : State) (lock : Bool) : State :=
  let s := s.setHealth { s.health with bootNext := 1 - s.rn 0xB010 4 }
  if lock then s.setNum 0xB030 7 (max (s.rn 0xB030 7) ((s.health.pkg.map (·.security)).getD 0)) else s

def firmwareDiscardAbort (s : State) : Nat := if firmwareBusy s then abLocked else abOk

def firmwareDiscard (s : State) : State := s.setHealth { s.health with pkgRaw := [], pkg := none, pkgSt := bkEmpty }

/-- UPDATE_REFUSED (R521, R536). -/
def updateAbort (s : State) (v : Nat) : Nat :=
  let split := (List.range 4).any fun k => (s.ring k).split
  let bad := match s.health.pkg with
    | none => true
    | some p => s.health.pkgSt ≠ bkPrepared || firmwareBusy s || p.arithmetic.contains v ||
      (if v = 1 then !engActive s .na || !engActive s .nb || s.rn 0x3070 1 < 125 || s.health.pfw.isSome || s.health.restart.isSome
       else if v = 7 then !engActive s .nb || split
       else if v = 8 then !engActive s .na || split
       else s.ost.evac.isSome || !headroom s (v - 2))
  if bad then abUpdateRefused else abOk

/-- Functions whose region is under update still serve (R67). -/
def markUpdating (s : State) (fs : List Nat) (on_ : Bool) : State :=
  fs.foldl (fun s f =>
    if on_ && (s.ready f).state = 2 then s.setReady f ⟨3, 0, 0⟩
    else if !on_ && (s.ready f).state = 3 then s.setReady f ⟨2, 0, 0⟩ else s) s

/-- Functions of a region code of OD 1002. -/
def regionFunctions (v : Nat) : List Nat :=
  if v = 6 then [4, 5] else if v = 7 || v = 8 then [2] else if v = 1 then [] else [3]

/-- An update begins (R520). -/
def beginUpdate (s : State) (v : Nat) : State :=
  let s := s.setHealth { s.health with updating := some v }
  if v = 1 then planRestart s 2
  else
    let s := markUpdating s (regionFunctions v) true
    if v = 7 then s.setDie 2 3 else if v = 8 then s.setDie 3 3 else (evacuate s (v - 2) true).setDie 1 3

/-- At the end of its next train an engine under update releases its positions (R520). -/
def updateAtLc (s : State) : State :=
  match s.health.updating with
  | some 7 => if s.na.st = egActive then let s := releaseAll s .na
                                         driveRails (s.setEng .na { s.na with st := 3 }) .na else s
  | some 8 => if s.nb.st = egActive then let s := releaseAll s .nb
                                         driveRails (s.setEng .nb { s.nb with st := 3 }) .nb else s
  | _ => s

/-- A region's update ends (R397, R520). -/
def updateComplete (s : State) (failed : List Nat) : State :=
  match s.health.updating with
  | none => s
  | some v =>
    if v = 1 then s
    else if v = 7 || v = 8 then
      let e : Engine := if v = 7 then .na else .nb
      if (s.eng e).st ≠ 3 then s
      else
        let s := (regionDone (markUpdating s (regionFunctions v) false) v).setDie (if v = 7 then 2 else 3) 2
        engineUp (s.setEng e { s.eng e with st := 0, rejoining := true }) e
    else if !(List.range 104).any (fun u => regionOf u = v - 2 && (s.unit u).st = usUpdating) then s
    else
      let s := forNums 104 s fun s u =>
        if regionOf u = v - 2 && (s.unit u).st = usUpdating then
          if failed.contains u then setRetired (s.bump (unitIdx u) 4) u 5
          else (s.bump (unitIdx u) 3).setUnit u { s.unit u with st := usIdle, why := 0, toSpare := false }
        else s
      let s := (regionDone (markUpdating s (regionFunctions v) false) v).setDie 1 2
      { s with ost := { s.ost with evac := none } }

/-! Errors (R526, R527). -/

/-- A page is retired; beyond the reserve an error in task data stops the program with cause TRAP. -/
def retirePage (s : State) : State :=
  if s.rn 0xF000 3 < 4096 then s.setNum 0xF000 3 (s.rn 0xF000 3 + 1)
  else if progState s = psRun || progState s = psHold then requestStop s 6 else s

def dramUncorrected (s : State) (o : DramOwner) : State :=
  if !s.on then s
  else
    let s := s.bump 0xF000 2
    match o with
    | .taskData i => retirePage (cycleTrap s i.val)
    | .schedulerList =>
      if s.sched.dram.isEmpty then s
      else
        let f := freeIndex s s.sched.dram.length
        (f.2.setSched { f.2.sched with dram := f.2.sched.dram.eraseIdx f.1 }).bump 0xA040 7
    | .recorderBuffer =>
      if s.rcd.chunks.isEmpty then s
      else
        let f := freeIndex s s.rcd.chunks.length
        { f.2 with rcd := { f.2.rcd with chunks := f.2.rcd.chunks.eraseIdx f.1 } }
    | .cbState => unplannedRestart s 4

def mramError (s : State) (k : MramErrorKind) : State :=
  match k with
  | .corrected => s.bump 0xF000 4
  | .copyFailed => s.bump 0xF000 5
  | .retainSlot n => s.setProg { s.prog with slots := setAt s.prog.slots n.val [] }

/-- A corrected error of CE or MP memory is counted; else the item whose state failed enters FAILED (R228, R254); a task's data
are LPDDR5 data behind a cache (R526). (DEDUCED, notes/assumptions/106.md) -/
def clusterError (s : State) (corrected : Bool) (kind item : Nat) : State :=
  if !s.on then s
  else if corrected then if kind = 3 then s else s.bump 0xF000 6
  else if kind = 3 then dramUncorrected s (.taskData (Fin.ofNat 64 item))
  else
    let s := s.bump 0xF000 7
    if (placeOf s kind item).isNone then s
    else if kind = 1 && s.health.down then
      s.setChan item { s.chan item with st := chOff, placed := false, enableAt := false, disableAt := false, latched := false, secs := [],
                                        toCome := none, resumeDue := true }
    else failItem s kind item

/-! The governor (R528, R529). -/

/-- One temperature threshold, in 0.1 °C: held at or above it, released once the hot spot has been 5 K below it for 1 s.
(DEDUCED, notes/assumptions/107.md) -/
def thresholdStep (clk : Nat) (hot thr : Int) (x : Bool × Option Nat) : Bool × Option Nat :=
  if hot ≥ thr then (true, none)
  else if !x.1 then (false, none)
  else if hot > thr - 50 then (true, none)
  else
    match x.2 with
    | none => (true, some clk)
    | some t => if clk ≥ t + wallSec 1 then (false, none) else (true, some t)

/-- The temperature step: the highest threshold held. -/
def tempStep (g : Governor) : Nat :=
  [4, 3, 2, 1].foldl (fun n k => if n = 0 && (getAt (false, none) g.thr k).1 then k else n) 0

/-- The peak allowance and the power step; times are TIM clocks, the allowance is in half clocks. -/
def powerStep (g : Governor) (clk powerTenths : Nat) : Governor :=
  let dt := clk - g.lastClk
  let full := wallSec 240
  if powerTenths > 600 then
    let a := g.allowance - 2 * dt
    let g := { g with allowance := a, lowFrom := none, lastClk := clk, powerAt := if g.lowFrom.isSome then clk else g.powerAt }
    if a = 0 && g.power = 0 then { g with power := 1, powerAt := clk }
    else if 0 < g.power && g.power < 4 && clk ≥ g.powerAt + wallSec 5 then { g with power := g.power + 1, powerAt := clk }
    else g
  else
    let since := g.lowFrom.getD clk
    let g := { g with allowance := min full (g.allowance + dt), lowFrom := some since, lastClk := clk }
    if 0 < g.power && clk ≥ max since g.powerAt + wallSec 5 then { g with power := g.power - 1, powerAt := clk } else g

/-- The governor recomputes its steps; the step in force moves by at most one per second (R529). -/
def governorUpdate (s : State) (hot : Int) (powerTenths : Nat) : State :=
  if !s.on then s
  else
    let clk := s.clock.timClk
    let s := (s.setNum 0xB000 2 (min powerTenths 65535)).setNum 0xB000 4 (ofSigned 16 hot)
    let g := powerStep s.gov clk powerTenths
    let g := [1, 2, 3, 4].foldl (fun (g : Governor) k =>
      { g with thr := updAt (false, none) g.thr k (thresholdStep clk hot (950 + 50 * (k : Int))) }) g
    let want := if s.health.pfw.isSome then 4 else max (tempStep g) g.power
    let now := g.step
    let s := ({ s with gov := g }).setNum 0xB040 2 (g.allowance / 2 / 25000000)
    let may := s.gov.stepAt.all fun t => s.elapsed t (wallSec 1)
    setStep s (if s.health.pfw.isSome then 4 else if !may then now else if want > now then now + 1 else if want < now then now - 1 else now)

/-- A thermal trip (R532). -/
def thermalTrip (s : State) (d : Die) : State :=
  if !s.on then s
  else
    let s := s.bump 0xB040 9
    match d with
    | .cx =>
      let s := unplannedRestart s 6
      s.setHealth { s.health with tripped := true }
    | .na => silence s .na
    | .nb => silence s .nb
    | .ax => axDieFailed s
    | .fx => fxFailedNow s

def tripRelease (s : State) : State := s.setHealth { s.health with tripped := false }

/-! The health word (R541). -/

def healthWord (s : State) : Nat :=
  let step := s.gov.step
  let single : Bool := !engActive s .na || !engActive s .nb
  let deficit := (List.range 13).any fun c => s.rn (clusterIdx c) 5 ≠ 0
  let retired := s.ost.units.any fun p => p.2.st = usRetired
  let pages : Bool := s.rn 0xF000 3 > 3584
  let ssd : Bool := !(ssdActive s 0 && ssdActive s 1)
  let mixed := (List.range 7).any fun r => s.rn 0x1002 (r + 2) ≠ s.rn 0x1002 1
  let low := s.paddock.vbatLow
  let open_ := s.paddock.caseOpen
  let degraded := single || deficit || retired || pages || ssd || low || open_ || mixed || step = 1 || step = 2
  let critical := ([1, 2, 3, 4, 5].any fun d => s.dieState d = 5) || s.coast.active || s.health.pfw.isSome || step ≥ 3
  (if critical then 2 else if degraded then 1 else 0) * 2 ^ 28 + step * 2 ^ 25 + b2n (s.rn 0xB000 2 > 600) * 2 ^ 24 +
    b2n single * 2 ^ 23 + b2n deficit * 2 ^ 22 + b2n retired * 2 ^ 21 + b2n pages * 2 ^ 20 + b2n ssd * 2 ^ 19 + b2n low * 2 ^ 18 +
    b2n open_ * 2 ^ 17 + b2n s.health.pfw.isSome * 2 ^ 16 + b2n mixed * 2 ^ 15

end Sys2Proof.Machine
end

