-- ==== Sys2Proof/Machine/Entries.lean ====
section
/-! DEFINITION. What a read of each dictionary entry gives (R53, R54, R58): the register itself, or the value that the state holds
elsewhere. -/

namespace Sys2Proof.Machine

/-- The readiness word of function f (R67, R70, R525): during a restart with the last start-up step completed. (DEDUCED,
notes/assumptions/14.md) -/
def readinessWord (s : State) (f : Nat) : Nat :=
  if s.dieState 1 = 4 then restartingWord s
  else if s.dieState 1 = 5 then 0x50000100
  else (s.ready f).word

/-- A measured value of w bits: the module's own at each read. -/
def measured (s : State) (index sub w : Nat) : Val := .num (Config.measured s.freeCtr (regKey index sub) % 2 ^ w)

/-- Base corrections of R98 in ps. -/
def baseIngress (s : State) (p : Nat) : Int := if p ≥ 8 then -61600 else if s.rn (0x3010 + p % 4) 1 = 0 then -352000 else -1312000
def baseEgress (s : State) (p : Nat) : Int := if p ≥ 8 then 44800 else if s.rn (0x3010 + p % 4) 1 = 0 then 184000 else 864000

/-- Remaining time in ms or distance in lu of a sequencer's step (OD C200+s:07). -/
def seqRemaining (s : State) (k : Nat) : Int :=
  let q := s.seq k
  match q.held with
  | some h => if (stepOf s q.recipe q.step).any (fun r => r.dkind = 0) then h / ((1000000 : Int) * 2 ^ 32) else h
  | none =>
    match q.endAct.bind fun i => s.actions.armed.find? fun a => a.id = i with
    | some a =>
      match a.kind with
      | .tb n t => ((t : Int) - (s.tb n).val) / ((1000000 : Int) * 2 ^ 32)
      | .lead n t => diff64 t (s.lead n).pos64
      | .nextBoundary => 0
    | none => 0

def seqStatus (s : State) (k : Nat) : Nat :=
  let q := s.seq k
  q.st * 2 ^ 28 + b2n q.late * 2 ^ 27 + b2n q.actionRef * 2 ^ 26 + b2n q.discarded * 2 ^ 25 + b2n q.rein * 2 ^ 24 +
    (layerStep q).getD 0xFFFF

/-- The producer of a stream FIFO (R458). -/
def fifoProducer (s : State) (f : Nat) : Nat :=
  if (traceOfFifo s f).isSome then 1 else if (imageOf s).streams.contains f then 2 else 0

def paddockStatus (s : State) : Nat :=
  b2n s.paddock.vbatLow + b2n s.paddock.clockLost * 2 + b2n s.paddock.caseOpen * 4 + b2n s.paddock.tempHigh * 8

def oneInt (i : Int) : Val := .num (ofSigned 64 i)

/-- Identity, dies, DAZ service. -/
def read1 (s : State) (index sub : Nat) : Option Val :=
  if index = 0x1010 && 1 ≤ sub then some (.num (sub * 2 ^ 28 + s.dieState sub * 2 ^ 24))
  else if index = 0x1000 then
    match sub with
    | 3 => some (.oct serialText)
    | 4 => some (.num (Config.revisionWord 0).toNat)
    | 5 => some (.num (Config.revisionWord 1).toNat)
    | 6 => some (.num (Config.revisionWord 2).toNat)
    | 7 => some (.num (Config.revisionWord 3).toNat)
    | 8 => some (.num (Config.revisionWord 4).toNat)
    | 9 => some (.num (Config.revisionWord 5).toNat)
    | 0x0A => some (.num Config.manufactureDays.toNat)
    | _ => none
  else if index = 0x1100 && sub = 4 then some (.num (s.dict.sessions.filter fun p => p.2.isSome).length)
  else none

/-- Time bases, ports, Leads, actions. -/
def read2 (s : State) (index sub : Nat) : Option Val :=
  if index = 0x2000 && sub = 2 then some (.num s.clock.tick)
  else if 0x2010 ≤ index && index < 0x2018 then
    let t := s.tb (index - 0x2010)
    match sub with
    | 3 => some (.num ((match t.st with
        | .free => 0
        | .acquiring => 1
        | .locked => 2
        | .holdover => 3) + b2n t.stepDenied * 16))
    | 4 => some (.num (toTbtime t.atTick))
    | 6 => some (.num (ofSigned 32 (((t.inc : Int) - nominalInc) * 1000000000000 / nominalInc)))
    | _ => none
  else if 0x2020 ≤ index && index < 0x202A then
    match sub with
    | 5 => some (.num (ofSigned 32 (baseIngress s (index - 0x2020))))
    | 6 => some (.num (ofSigned 32 (baseEgress s (index - 0x2020))))
    | _ => none
  else if 0x2040 ≤ index && index < 0x2048 then
    let n := index - 0x2040
    match sub with
    | 2 => if leadSource s n = 2 then some (.num (s.rn index 2 - (s.rn index 2 &&& 0x7C00))) else none
    | 6 => some (.num (s.lead n).pos64)
    | 7 => some (oneInt (s.lead n).vel)
    | 8 => some (.num (leadStatus s n))
    | _ => none
  else if index = 0x2050 && sub = 1 then some (.num s.actions.armed.length)
  else none

/-- Line bus, engines, Hobble, coast. -/
def read3 (s : State) (index sub : Nat) : Option Val :=
  if 0x3010 ≤ index && index < 0x3014 then
    let k := index - 0x3010
    match sub with
    | 3 => some (.num (s.ring k).st)
    | 4 => some (.num (s.ring k).frames)
    | 5 => some (.num (trainBytes s k))
    | 6 => some (.num (ringDelay s k / 80))
    | 7 => some (.num (ofSigned 32 (marginNs s (cyclicSum s k))))
    | 8 => some (.num (ofSigned 32 (marginNs s (splitSum s k))))
    | _ => none
  else if 0x3800 ≤ index && index < 0x4000 && sub = 8 then some (.num (s.station (index - 0x3800)).st)
  else if index = 0x3060 then
    match sub with
    | 1 => some (.num s.na.st)
    | 2 => some (.num s.nb.st)
    | 7 => some (.num (((s.link 4).crc + (s.link 4).bulkRetries + (s.link 5).crc + (s.link 5).bulkRetries) % 2 ^ 32))
    | _ => none
  else if 0x3068 ≤ index && index < 0x306C then
    let k := index - 0x3068
    match sub with
    | 1 => some (.num (boundA s k))
    | 2 => some (.num (boundB s k))
    | 3 => some (.num (pathMode s k))
    | _ => none
  else if index = 0x3070 && sub = 2 then some (.num (b2n s.coast.active))
  else none

/-- The active mantissas and exponent of section k as single entries (R246). -/
def readSection (s : State) (index sub : Nat) : Option Val :=
  let k := (sub - 0x40) / 8
  let r := (s.reg index (0x30 + k)).octets
  match (sub - 0x40) % 8 with
  | 5 => some (.num (ofSigned 8 (toSigned 6 (leNat (slice r 15 1)))))
  | 6 => none
  | 7 => some (.oct (stateRecord (getAt SecState.init (s.chan (index - 0x4000)).secs k)))
  | j => some (.num (ofSigned 32 (toSigned 24 (leNat (slice r (3 * j) 3)))))

def read4 (s : State) (index sub : Nat) : Option Val :=
  let n := index - 0x4000
  let c := s.chan n
  if sub = 2 then some (.num (chanStatus s n))
  else if sub = 0x1A then some (.num c.x.toBits)
  else if sub = 0x1B then some (.num c.u.toBits)
  else if sub = 0x1C then some (.num c.y.toBits)
  else if 0x40 ≤ sub && sub < 0xC0 then readSection s index sub
  else none

/-- Axes and groups, homing. -/
def read5 (s : State) (index sub : Nat) : Option Val :=
  if index < 0x5800 then
    let n := index - 0x5000
    let x := s.axis n
    match sub with
    | 2 => some (.num (axisStatus s n))
    | 9 => if axisLocal s n then none else some (.num s.lcLen)
    | 0x0A => if axisLocal s n then none else some (.num s.lcPhase)
    | 0x0B => some (oneInt (x.sp.getD x.p))
    | 0x0C => some (oneInt (toFix x.v))
    | 0x0D => some (oneInt (toFix x.a))
    | 0x0E => some (oneInt ((axisActual s n).1.getD x.actual))
    | 0x0F => some (oneInt ((x.prof.bind (·.target)).getD (x.sp.getD x.p)))
    | 0x1F => some (.num ((x.gear.map (·.lead)).getD 0xFF))
    | 0x20 => some (.num (ofSigned 32 ((x.gear.map (·.num)).getD 0)))
    | 0x21 => some (.num ((x.gear.map (·.den)).getD 0))
    | 0x22 => some (.num ((x.gear.map (·.lRef)).getD 0))
    | 0x23 => some (oneInt ((x.gear.map (·.pRef)).getD 0))
    | _ => none
  else if index < 0x5900 then
    match sub with
    | 2 => some (.num (groupStatus s (index - 0x5800)))
    | 7 => some (.num (s.group (index - 0x5800)).lam.toBits)
    | _ => none
  else none

/-- Analogue. -/
def read6 (s : State) (index sub : Nat) : Option Val :=
  if index = 0x6000 then
    match sub with
    | 1 => some (.num (sumReg s 0x6020 32 3))
    | 2 => some (.num (sumReg s 0x6020 32 4))
    | 3 => some (.num (sumReg s 0x6020 32 5))
    | 4 => some (.num (sumReg s 0x6200 64 0x0E))
    | _ => none
  else if 0x6020 ≤ index && index < 0x6040 then if sub = 1 then some (.num (convStatus s (index - 0x6020))) else none
  else if 0x6100 ≤ index && index < 0x6160 then
    match sub with
    | 2 => some (.num (s.ain (index - 0x6100)).atCx)
    | 3 => some (.num (ainVoltage s (index - 0x6100)))
    | _ => none
  else if 0x6200 ≤ index && index < 0x6240 then
    let kind := s.rn index 1
    if sub = 0x0C then some (.num (s.trig (index - 0x6200)).st)
    else if sub = 2 && (kind = tkTb || kind = tkLead) then some (.num (s.rn index 2 % 8))
    else none
  else if 0x6300 ≤ index && index < 0x6310 then
    match sub with
    | 2 => some (.num (ofSigned 16 (s.aout (index - 0x6300)).code))
    | 7 => some (.num (aoutStatus s (index - 0x6300)))
    | _ => none
  else none

/-- Field I/O, PWM, encoders, capture, local axes. -/
def read7 (s : State) (index sub : Nat) : Option Val :=
  if index = 0x7000 then
    match sub with
    | 1 => some (.num (fxState s))
    | 2 => some (.num (inputBits s))
    | 3 => some (.num (driveBits s))
    | _ => none
  else if 0x7100 ≤ index && index < 0x7140 then
    let i := index - 0x7100
    match sub with
    | 3 => some (.num (b2n (s.din i).cur))
    | 4 => some (.num (diStatus s i))
    | 5 => some (.num (toTbtime ((s.din i).stamp * 20 * 2 ^ 32 % tbModulus)))
    | _ => none
  else if 0x7200 ≤ index && index < 0x7204 then
    match sub with
    | 2 => some (.num (supplyStatus s (index - 0x7200)))
    | 3 => some (measured s index sub 16)
    | _ => none
  else if 0x7300 ≤ index && index < 0x7320 then
    match sub with
    | 8 => some (.num (doStatus s (index - 0x7300)))
    | 0x0A => some (measured s index sub 16)
    | _ => none
  else if 0x7400 ≤ index && index < 0x7460 then
    let c := index - 0x7400
    match sub with
    | 1 => some (.num (pwmMode s c))
    | 0x0C => some (.num (ofSigned 16 (s.pwm c).duty))
    | _ => none
  else if 0x7500 ≤ index && index < 0x7510 then
    let e := index - 0x7500
    match sub with
    | 4 => some (oneInt (s.enc e).atTick)
    | 5 => some (.num (encStatus s e))
    | 9 => some (oneInt ((s.enc e).lastIndex.getD 0))
    | _ => none
  else if 0x7520 ≤ index && index < 0x7530 then
    match sub with
    | 8 => some (.num (s.cap (index - 0x7520)).fifo.length)
    | 0x0B => some (.num ((s.cap (index - 0x7520)).seq % 2 ^ 32))
    | _ => none
  else if 0x7580 ≤ index && index < 0x75A0 then
    match sub with
    | 0x16 => some (.num (localStatus s (index - 0x7580)))
    | 0x17 => some (oneInt (s.loc (index - 0x7580)).x)
    | _ => none
  else none

/-- Program runtime and tasks. -/
def read8 (s : State) (index sub : Nat) : Option Val :=
  if index = 0x8000 then if sub = 0x0A then some (.num 400) else none
  else if index = 0x8010 then
    match sub with
    | 1 => some (.num (digest8 s.prog.activeRaw))
    | 2 => some (.num (digest8 s.prog.bankRaw))
    | 4 => some (.num s.prog.xst)
    | _ => none
  else if index = 0x8020 then if sub = 1 then some (.num (retainSize (imageOf s))) else none
  else if 0x8100 ≤ index && index < 0x8140 then
    let i := index - 0x8100
    let t := s.task i
    let d : TaskDecl := t.decl.getD ⟨i, 0, 0, 0, 0, 0, [], 0, 0, 0, 0, 0, 0, 0⟩
    match sub with
    | 1 => some (.num (b2n t.decl.isSome))
    | 2 => some (.num (taskStatus s i))
    | 3 => some (.num d.kind)
    | 4 => some (.num d.prio)
    | 5 => some (.num d.period)
    | 6 => some (.num d.offset)
    | 7 => some (.num d.source)
    | 8 => some (.oct (slice (d.positions.flatMap (leBytes 8)) 0 128))
    | 9 => some (.num d.options)
    | 0x0A => some (.num d.deadline)
    | 0x0B => some (.num d.interval)
    | 0x0C => some (.num d.budget)
    | 0x11 => some (.num (t.core.getD 0xFF))
    | _ => none
  else none

/-! The declared raw rate (R453, R454, OD 9000:04). -/

/-- Conversions per second that one armed trigger of a periodic kind makes with each of its converters, as a fraction. -/
def triggerRate (s : State) (t : Nat) : Nat × Nat :=
  let i := trigIdx t
  let k := s.rn i 1
  let p := max 1 (s.rn i 3)
  let c := s.rn i 2 % 128
  if (s.trig t).st ≠ 1 then (0, 1)
  else if k = tkTick then (160000, p)
  else if k = tkTb then (1000000000, p)
  else if k = tkPwm && pwmMode s c ≠ 0 then (400000000, max 1 (s.rn (pwmIdx c) 2) * p)
  else (0, 1)

/-- Bytes per second of one class, from record bytes and records per second; none where the class is not enabled. -/
def classRate (s : State) (c : Nat) (l : List (Nat × Nat × Nat)) : Nat :=
  if !bit (s.rn 0x9000 3) c then 0
  else l.foldl (fun n r => n + r.1 * r.2.1 / (max 1 r.2.2 * max 1 (s.rn 0x9008 c))) 0

/-- Raw bytes per second of the classes with a rate of their own: ticks, stations, channels, axes, triggered conversions,
encoders. (DEDUCED, notes/assumptions/148.md) -/
def declaredRate (s : State) : Nat :=
  let tps := 160000
  let st := (List.range 4).flatMap (ringStations s)
  92 * tps +
    classRate s 2 (st.map fun a => (8 + s.rn (stIdx a) 6, tps, s.lcLen)) +
    classRate s 3 (st.map fun a => (8 + s.rn (stIdx a) 5, tps, s.lcLen)) +
    classRate s 4 ((s.chans.filter fun p => chanEnabled s p.1).map fun p => (23, tps, s.rn (chIdx p.1) 4)) +
    classRate s 5 ((s.axes.filter fun p => axisLocked s p.1).map fun p => (40, tps, axisPeriod s p.1)) +
    classRate s 6 ((List.range 64).map fun t =>
      let r := triggerRate s t
      (12 * ((List.range 32).filter (bit (s.rn (trigIdx t) 8))).length, r.1, r.2)) +
    classRate s 9 (((List.range 16).filter fun e => s.rn (encIdx e) 1 ≠ 0).map fun _ => (14, tps, 1))

/-- Recorder, FIFOs, SSDs. -/
def read9 (s : State) (index sub : Nat) : Option Val :=
  if index = 0x9000 then
    let clk := s.clock.timClk
    match sub with
    | 2 => some (.num (recorderState s))
    | 4 => some (.num (declaredRate s))
    | 5 => some (.num (meterSum clk s.rcd.intake))
    | 6 => some (.num (meterSum clk s.rcd.output))
    | 8 => some (.num (effortInForce s))
    | 9 => some (.num (bufferFill s))
    | 0x0D => some (.num (s.rcd.shed.foldl (fun n c => n ||| 2 ^ c) 0))
    | 0x12 => some (.num (oldestTick s))
    | 0x13 => some (.num (backlog s))
    | 0x14 =>
      let o := meterSum clk s.rcd.output
      some (if o = 0 then measured s index sub 16 else .num (min 65535 (meterSum clk s.rcd.intake * 100 / o)))
    | _ => none
  else if 0x9100 ≤ index && index < 0x9200 then
    let f := index - 0x9100
    match sub with
    | 1 => some (.num (fifoProducer s f))
    | 6 => some (.num ((s.fifo f).fill.length + (s.fifo f).drain.length))
    | _ => none
  else if 0x9200 ≤ index && index < 0x9202 then
    let x := s.ssd (index - 0x9200)
    match sub with
    | 1 => some (.num x.st)
    | 3 => some (.num x.link)
    | 4 => some (.oct (slice x.model 0 40))
    | 5 => some (.num x.capacity)
    | 6 => some (.num x.volume)
    | 7 => some (.num x.oldest)
    | 8 => some (.num x.newest)
    | 0x0B => some (.num (meterSum s.clock.timClk x.drain))
    | 0x0C => some (.num x.wear)
    | _ => none
  else none

/-- Placement and the scheduler. -/
def readA (s : State) (index sub : Nat) : Option Val :=
  if index = 0xA000 then if sub = 0x0A then some (.num (headroomBits s)) else none
  else if index = 0xA040 then
    match sub with
    | 2 => some (.num s.sched.shared.length)
    | 4 => some (.num s.sched.dram.length)
    | 9 => some (measured s index sub 32)
    | _ => none
  else if 0xA100 ≤ index && index < 0xA168 then
    match sub with
    | 1 => some (.num (unitStatus s (index - 0xA100)))
    | 2 => some (.num (unitLoad s (index - 0xA100)))
    | _ => none
  else if 0xA200 ≤ index && index < 0xA20D then
    let c := index - 0xA200
    match sub with
    | 2 => some (.num (sparesOf s c).length)
    | 3 => some (.num ((unitsOf c).foldl (fun m u => max m (unitLoad s u)) 0))
    | 4 => some (.num (clusterPeak s c))
    | _ => none
  else if sub = 1 then
    if index = 0xA020 then some (.oct (locationMap s 1 4096))
    else if index = 0xA021 then some (.oct (locationMap s 2 2048))
    else if index = 0xA022 then some (.oct (locationMap s 3 64))
    else if index = 0xA030 then some (.oct (declarationMap s))
    else none
  else none

/-- Health, layers, diagnostics. -/
def readB (s : State) (index sub : Nat) : Option Val :=
  if index = 0xB000 then
    match sub with
    | 1 => some (.num (healthWord s))
    | 3 => some (measured s index sub 16)
    | 5 => some (measured s index sub 16)
    | _ => none
  else if index = 0xB030 then
    match sub with
    | 4 => some (.num s.health.pkgSt)
    | 5 => some (.num (s.health.updating.getD 0))
    | _ => none
  else if index = 0xB040 then if 5 ≤ sub && sub ≤ 8 then some (measured s index sub 16) else none
  else if index = 0xB080 then
    match sub with
    | 1 => some (.num (paddockStatus s))
    | 4 => some (.oct s.paddock.log.flatten)
    | _ => none
  else none

def readC (s : State) (index sub : Nat) : Option Val :=
  if index = 0xC000 then
    match sub with
    | 4 => some (.num (digest8 s.lay.baseRaw))
    | 5 => some (.num (digest8 s.lay.ovlRaw))
    | _ => none
  else if index = 0xC010 then
    match sub with
    | 2 => some (.num s.lay.bankSt)
    | 4 => some (.num s.lay.bankKind)
    | _ => none
  else if 0xC200 ≤ index && index < 0xC240 then
    let k := index - 0xC200
    match sub with
    | 1 => some (.num (seqStatus s k))
    | 5 => some (.num (toTbtime (s.seq k).startTb))
    | 6 => some (.num (s.seq k).startLead)
    | 7 => some (oneInt (seqRemaining s k))
    | _ => none
  else none

/-- The traces. -/
def readF (s : State) (index sub : Nat) : Option Val :=
  if 0xF400 ≤ index && index < 0xF408 then
    let x := s.trace (index - 0xF400)
    match sub with
    | 9 => some (.num (x.st + b2n (traceAbsent s (index - 0xF400)) * 8))
    | 0x0B => some (.oct (traceBuffer x))
    | _ => none
  else none

/-- The present value of an entry outside OD 8800 to 8FFF. -/
def entryVal (s : State) (index sub : Nat) : Val :=
  let special :=
    if sub = 0 then
      (if isFirstEntry index then (functionOf index).map fun f => Val.num (readinessWord s f) else some (.num (highestSub index)))
    else
      match index / 4096 with
      | 1 => read1 s index sub
      | 2 => read2 s index sub
      | 3 => read3 s index sub
      | 4 => read4 s index sub
      | 5 => read5 s index sub
      | 6 => read6 s index sub
      | 7 => read7 s index sub
      | 8 => read8 s index sub
      | 9 => read9 s index sub
      | 0xA => readA s index sub
      | 0xB => readB s index sub
      | 0xC => readC s index sub
      | 0xF => readF s index sub
      | _ => none
  special.getD (s.reg index sub)

/-- What a read answers: an RWC entry gives the value latched at the most recent line-cycle boundary (R58). -/
def readVal (s : State) (e : Entry) (index : Nat) : Val :=
  if e.acc = .rwc then getAt (s.reg index e.sub) s.dict.latched (regKey index e.sub) else entryVal s index e.sub

/-- Type, access, role and capacity of an entry, exported variables among them (R53, R55, R367). (DESIGN CHOICE,
notes/assumptions/152.md) -/
def entryDef (s : State) (index sub : Nat) : Option Entry :=
  if 0x8800 ≤ index && index ≤ 0x8FFF then
    (exportOf s index sub).map fun x =>
      let ty : Ty := match x.tyCode with
        | 0x01 => .bool
        | 0x02 => .int8
        | 0x03 => .int16
        | 0x04 => .int32
        | 0x05 => .int64
        | 0x06 => .uint8
        | 0x07 => .uint16
        | 0x08 => .uint32
        | 0x09 => .uint64
        | 0x0A => .real32
        | 0x0B => .real64
        | 0x0C => .bits8
        | 0x0D => .bits16
        | 0x0E => .bits32
        | 0x0F => .leadpos
        | 0x10 => .leadvel
        | 0x11 => .tbtime
        | 0x12 => .bfp
        | 0x13 => .string x.cap
        | _ => .octets x.cap
      let acc : Acc := match x.access with
        | 0 => .ro
        | 1 => .rw
        | 2 => .wo
        | _ => .rwc
      { ent sub ty acc with operate := x.operate }
  else if sub = 0 && isFirstEntry index then some (ent 0 .uint32 .ro)
  else entryOf index sub

/-- Whether an index is defined now (R55). -/
def indexDefined (s : State) (index : Nat) : Bool :=
  if 0x8800 ≤ index && index ≤ 0x8FFF then (imageOf s).exports.any fun x => x.index = index else (tableOf index).isSome

end Sys2Proof.Machine
end

