-- ==== Sys2Proof/Machine/Check.lean ====
section
/-! DEFINITION. Why a write is refused (R55 to R65, and the conditions that each chapter's tables state): every cause of one element of
a request, and the one that the response carries. -/

namespace Sys2Proof.Machine

def abOutputClaimed : Nat := 0x7401
def abTableInUse : Nat := 0x7402
def abSsiTiming : Nat := 0x7403

/-- A code that a check found, if it found one. -/
def codeOf_ (code : Nat) : List Nat := if code = abOk then [] else [code]

/-- The general codes in the order of R65. -/
def abortOrder : List Nat :=
  [abMalformed, abNoEntry, abNoSub, abNotReady, abDenied, abUndeclared, abNoTransaction, abReadOnly, abWriteOnly, abTimeout,
   abBusy, abSequence, abLocked, abLength, abBadValue, abRangeLow, abRangeHigh, abSignature, abDependency, abNoResource, abPastDue]

/-- Place of a code in the order of R65: function-specific codes follow the general ones, the lowest first. -/
def abortRank (c : Nat) : Nat :=
  match abortOrder.findIdx? (fun a => a = c) with
  | some k => k
  | none => 100 + c

/-- The code that the device returns of several (R65), with what goes with it. -/
def firstBy {α : Type} : List (Nat × α) → Option (Nat × α)
  | [] => none
  | p :: t =>
    match firstBy t with
    | none => some p
    | some q => if abortRank q.1 < abortRank p.1 then some q else some p

/-! Clients (R63, R81, R82). -/

/-- The role of a client; the program's requests and a recipe's actions carry ENGINEER (R334, R499). -/
def roleOf (s : State) (c : ClientId) : Role :=
  match c with
  | .session n => ((getAt none s.dict.sessions n.val).map (·.role)).getD .observe
  | .station a =>
    match s.rn (stIdx a.val) 0x17 with
    | 1 => .operate
    | 2 => .engineer
    | _ => .observe
  | .program => .engineer

/-- Whether a client's role permits a write of an entry (R63). -/
def mayWrite (r : Role) (e : Entry) : Bool :=
  match r with
  | .engineer => true
  | .operate => e.operate
  | .observe => false

/-- Whether the active configuration declares the instance that an entry belongs to; a declaration's own subindex is exempt
(R56). (DESIGN CHOICE, notes/assumptions/153.md) -/
def declaredHere (s : State) (index sub : Nat) : Bool :=
  if sub = 1 || (sub = 0 && isFirstEntry index) then true
  else if 0x3800 ≤ index && index < 0x4000 then stDeclared s (index - 0x3800)
  else if 0x4000 ≤ index && index < 0x5000 then s.rn index 1 = 1
  else if 0x5000 ≤ index && index < 0x5800 then s.rn index 1 = 1
  else if 0x5800 ≤ index && index < 0x5900 then s.rn index 1 = 1
  else if 0x8100 ≤ index && index < 0x8140 then (s.task (index - 0x8100)).decl.isSome
  else true

/-- Whether the function of an index serves it (R68). Without a base configuration OD C010 is served (R515). (DEDUCED,
notes/assumptions/34.md) -/
def servesIndex (s : State) (index : Nat) : Bool :=
  match functionOf index with
  | some f => s.cxUp && (s.serves f || (index = 0xC010 && s.lay.base.isNone && s.health.step = 0 && s.serves 0))
  | none => true

/-! Conditions of each function. `v` is the written number, `d` the written bytes. -/

/-- Time bases, ports, Leads (R26, R87, R96, R100, R109, R111). -/
def check2 (s : State) (index sub v : Nat) : List Nat :=
  if index = 0x2000 then
    match sub with
    | 3 => codeIf (!ringsHold s v || !tasksHold s v || !unitsHold s v ||
        (v < 10 && s.axes.any fun p => axisLocked s p.1 && !axisLocal s p.1)) abDependency
    | 7 => codeOf_ (refAbort s v)
    | _ => []
  else if 0x2010 ≤ index && index < 0x2018 then
    if sub = 0x0D then codeOf_ (setTimeAbort s (index - 0x2010)) else []
  else if 0x2020 ≤ index && index < 0x202A then
    if sub = 2 && index - 0x2020 < 8 then codeIf (v ≠ 1) abDependency else []
  else if 0x2040 ≤ index && index < 0x2048 then
    match sub with
    | 0x15 => codeOf_ (resumeAbort s (index - 0x2040))
    | _ => if 1 ≤ sub && sub ≤ 5 then codeOf_ (leadLocked s (index - 0x2040)) else []
  else []

/-- Whether a Henvy member is joined: this module, or one that it hears (R205, R209). (DEDUCED, notes/assumptions/50.md) -/
def henvyJoined (s : State) : Bool := henvyState s = hvJoined || s.henvy.members.any fun m => m.2.isSome

/-- Line bus, engines, Henvy (R172 to R175, R187, R205). -/
def check3 (s : State) (index sub v : Nat) : List Nat :=
  let idle := fun k => (s.ring k).st = rgIdle
  let allIdle := (List.range 4).all idle
  if index = 0x3000 then
    match sub with
    | 1 => codeIf (!allIdle) abLocked ++ codeIf ([0x0800, 0x0806, 0x8100, 0x86DD, 0x88F7].contains v) abBadValue
    | 2 => codeIf (!allIdle) abLocked
    | _ => []
  else if 0x3010 ≤ index && index < 0x3014 then
    if sub = 1 || sub = 0x0F then codeIf (!idle (index - 0x3010)) abLocked else []
  else if 0x3020 ≤ index && index < 0x3060 then
    if sub = 1 then codeIf (objectSourceBad s v) abDependency else []
  else if index = 0x3060 then
    if sub = 3 then codeIf (((s.eng (if v = 1 then .na else .nb)).st ≠ egSilent : Bool)) abRejoinRefused else []
  else if index = 0x3080 then
    if sub = 1 || sub = 2 || sub = 6 then codeIf (henvyJoined s) abLocked else []
  else if 0x3800 ≤ index && index < 0x4000 then
    let a := index - 0x3800
    let held := codeIf (!idle (a / 512)) abLocked
    match sub with
    | 5 => held ++ codeIf (areaBad s a 5 v) abDependency
    | 6 => held ++ codeIf (areaBad s a 6 v) abDependency
    | 7 => held ++ codeIf (!([0, 32, 64, 128, 256].contains v)) abBadValue
    | _ => if (2 ≤ sub && sub ≤ 4) || sub = 0x0E || sub = 0x17 then held else []
  else []

/-- Whether a subindex of channel n belongs to the target of an armed commit (R240). -/
def heldByCommit (s : State) (n sub : Nat) : Bool :=
  inCommitTarget s n sub ||
    (scheduledTargets s n).any fun t =>
      inCommitTarget (s.setChan n { s.chan n with commits := [⟨t, false, 0, .program, 0⟩] }) n sub

/-- Whether a stored datum exceeds another. -/
def bfpAbove (a b : Bfp) : Bool := bfpCmp a b > 0

/-- Control channels (R212, R213, R223, R230, R238 to R240, R244). (DEDUCED, notes/assumptions/56.md) -/
def check4 (s : State) (index sub v : Nat) : List Nat :=
  let n := index - 0x4000
  let locked := codeIf (chanLocked s n) abLocked
  let w := (bfpStore (Bfp.ofBits v)).getD Bfp.zero
  let held := codeIf (heldByCommit s n sub) abCommitPending
  match sub with
  | 3 => if v = 1 then chanEnableCauses s n else []
  | 4 => locked ++ codeIf (s.rn index 5 ≠ 0xFFFF && s.rn index 5 ≥ v) abDependency
  | 5 => locked ++ codeIf (v ≠ 0xFFFF && v ≥ s.rn index 4) abDependency
  | 6 => locked
  | 7 => locked ++ codeIf (!sourceValid v false) abSourceInvalid
  | 8 => locked ++ codeIf (!sourceValid v true) abSourceInvalid
  | 0x0B => locked ++ codeIf (!destValid v) abSourceInvalid
  | 0x0F => held
  | 0x10 => held ++ codeIf (bfpAbove (s.rBfp index 0x11) w) abDependency
  | 0x11 => held ++ codeIf (bfpAbove w (s.rBfp index 0x10)) abDependency
  | 0x14 => codeIf (w.m ≤ 0) abRangeLow
  | 0x19 =>
    let t := bits v 4 0
    codeIf (t > 0x10) abBadValue ++
      codeIf (t = 0 && bfpAbove (s.rBfp index 0xD2) (s.rBfp index 0xD1)) abDependency ++
      codeIf ((armedTargets s n).any fun a =>
        (a = t : Bool) || (a = 0 && t ≤ s.rn index 6) || (t = 0 && a ≤ s.rn index 6)) abCommitPending
  | _ =>
    if 0x40 ≤ sub && sub < 0xC0 && (sub - 0x40) % 8 = 6 then locked
    else if (0x30 ≤ sub && sub < 0xD3) then held
    else []

/-- Whether an axis stands, as R261 and R282 ask. -/
def axisAtRest (s : State) (n : Nat) : Bool := (s.axis n).st = axDisabled || (s.axis n).st = axStandstill

/-- An axis with a written P or φ; the φ of a placed axis follows it (R252, R254). -/
def shapedAxis (s : State) (n sub : Nat) (x : Val) : State :=
  let s := s.setReg (axIdx n) sub x
  let a := s.axis n
  let f := s.rn (axIdx n) 0x0A
  if a.placed then s.setAxis n { a with phase := if f = 0xFFFF then a.phase % s.rn (axIdx n) 9 else f } else s

/-- A write of P or φ of an axis (R252, R254): checked at once where the axis is placed, with the values to be. (DEDUCED,
notes/assumptions/72.md) -/
def axisShapeCauses (s : State) (n sub v : Nat) : List Nat :=
  let i := axIdx n
  if !axisLocal s n then [abDependency]
  else
    let p := if sub = 9 then v else s.rn i 9
    let f := if sub = 0x0A then v else s.rn i 0x0A
    codeIf (f ≠ 0xFFFF && f ≥ p) abDependency ++
      (let t := shapedAxis s n sub (.num v)
       codeIf ((s.axis n).placed && (!stillFits t 2 n || groupUneven t n)) abNoProfiler)

/-- A command record of axis n that is written (R257, R259, R281): `direct` says that it has no apply block. What depends on the axis's
state is checked when it is taken up (R256). -/
def axisCommandCauses (s : State) (n : Nat) (d : List Byte) (direct : Bool) : List Nat :=
  let r := axisOfRecord d
  codeIf (r.1 < 1 || r.1 > 8 || axisFieldsBad r.1 r.2) abBadValue ++
    codeIf (axisDistZero r.1 r.2) abRangeLow ++
    codeIf (moveLimitAbort s n r.1 r.2) abLimit ++
    codeIf (direct && r.1 = 8 && (s.axis n).st = axDropout && (s.station (axisInst s n)).st ≠ stOperational) abStationNotReady

/-- Axes (R248 to R282). -/
def check5 (s : State) (index sub v : Nat) (d : List Byte) (direct : Bool) : List Nat :=
  let n := index - 0x5000
  let locked := codeIf (axisLocked s n) abLocked
  let rest := codeIf (!axisAtRest s n) abLocked
  match sub with
  | 3 => if v = 1 then axisEnableCauses s n else []
  | 4 => locked
  | 5 => locked ++ codeIf (axisLocal s n && v > 31) abRangeHigh
  | 6 | 7 | 8 => locked
  | 9 | 0x0A => axisShapeCauses s n sub v
  | 0x10 | 0x11 => rest
  | 0x12 => rest ++ codeIf (v > s.rn index 0x14) abDependency
  | 0x13 => rest ++ codeIf (v > s.rn index 0x15) abDependency
  | 0x14 => codeIf (v < s.rn index 0x12) abDependency
  | 0x15 => codeIf (v < s.rn index 0x13) abDependency
  | 0x16 => rest
  | 0x17 => codeIf (toSigned 64 v < s.ri index 0x18 64) abDependency
  | 0x18 => codeIf (toSigned 64 v > s.ri index 0x17 64) abDependency
  | 0x1C => axisCommandCauses s n d direct
  | _ => []

/-- A member list of group g (R266, R379). -/
def memberCauses (s : State) (g : Nat) (d : List Byte) : List Nat :=
  let ms := membersOf d
  let others := (List.range 256).filter fun h => h ≠ g && (groupMembers s h).any ms.contains
  let groups := (ms.map fun n => couplingOf s 2 n).filter (· ≠ 0xFFFF)
  codeIf ((s.group g).st ≠ 0 || ((groupMembers s g) ++ ms).any fun n => !axisAtRest s n) abLocked ++
    codeIf (ms.any (fun n => n ≥ 2048 || s.rn (axIdx n) 1 ≠ 1) || !others.isEmpty ||
      ms.any (fun n => ms.any fun m => axisPeriod s n ≠ axisPeriod s m) || ms.any (fun n => ms.count n > 1) ||
      groups.any (fun a => groups.any fun b => a ≠ b)) abDependency

/-- Opcode and targets of a group command record (R284). -/
def groupRecord (d : List Byte) : Nat × List Int :=
  (leNat (slice d 0 1), (List.range 16).map fun i => toSigned 64 (leNat (slice d (8 + 8 * i) 8)))

/-- Groups and homing (R266, R284, R311, R320). -/
def check58 (s : State) (index sub v : Nat) (d : List Byte) : List Nat :=
  if index < 0x5900 then
    let g := index - 0x5800
    match sub with
    | 3 => memberCauses s g d
    | 4 =>
      let r := groupRecord d
      codeIf (!([1, 2, 4].contains r.1) || leNat (slice d 1 7) ≠ 0) abBadValue
    | _ => []
  else
    let a := index - 0x5A00
    let held := codeIf ((axisOfLocal s a).any fun n => (s.axis n).st = axHoming) abLocked
    let vMax := match axisOfLocal s a with
      | some n => s.rn (axIdx n) 0x10
      | none => s.rn (axIdx 0) 0x10
    match sub with
    | 3 => held ++ codeIf ((axisOfLocal s a).isSome && v > vMax) abDependency
    | 4 => held ++ codeIf (v > s.rn index 3) abDependency
    | 0x0C => codeOf_ (homingAbort s a)
    | _ => if 1 ≤ sub && sub ≤ 0x0B then held else []

/-- Analogue (R406, R408, R417, R418, R425, R426). -/
def check6 (s : State) (index sub v : Nat) : List Nat :=
  if 0x6200 ≤ index && index < 0x6240 then
    let t := index - 0x6200
    let kind := s.rn index 1
    let off := codeIf (kind ≠ tkOff) abLocked
    match sub with
    | 1 => if v = tkOff then [] else codeOf_ (triggerAbort s t v)
    | 5 => if kind = tkLead && (s.trig t).st = 2 then codeOf_ (triggerAbort (s.setNum index 5 v) t tkLead) else off
    | 8 => off ++ codeIf (selectionBad v (s.rn index 9)) abBadValue
    | 9 => off ++ codeIf (selectionBad (s.rn index 8) v) abBadValue
    | 0x0B => codeIf (kind ≠ tkSoftware) abLocked
    | _ => if 2 ≤ sub && sub ≤ 0x0A then off else []
  else if 0x6300 ≤ index && index < 0x6310 then
    if sub = 1 || sub = 4 then
      codeIf ((aoutChan s (index - 0x6300)).isSome || ownsAout s (index - 0x6300)) abLocked
    else []
  else []

/-- Whether a Lead, a local axis or a capture line uses encoder e (R316). -/
def encUsed (s : State) (e : Nat) : Bool :=
  (List.range 8).any (fun n => s.rn (0x2040 + n) 1 = 1 && s.rn (0x2040 + n) 2 = e) ||
    (List.range 32).any (fun a => s.rn (locIdx a) 0x0E = e) ||
    (List.range 16).any fun c => s.rn (capIdx c) 1 ≠ 3 && s.rn (capIdx c) 5 = e

/-- PWM channels, encoders, capture lines (R287, R290, R304, R315 to R317). -/
def check74 (s : State) (index sub v : Nat) : List Nat :=
  if index < 0x7460 then
    let c := index - 0x7400
    let held := codeIf (pwmDriven s c) abLocked
    match sub with
    | 1 => held ++ codeIf (v = 4 || (v = 2 && c % 2 = 1)) abBadValue
    | 2 => held ++ codeIf (!periodValid v) abBadValue ++ codeIf (s.rn index 3 ≥ v) abDependency
    | 3 => held ++ codeIf (v ≥ s.rn index 2) abDependency
    | _ => if (4 ≤ sub && sub ≤ 9) then held else []
  else if index < 0x7510 then
    let e := index - 0x7500
    let held := codeIf (encUsed s e) abLocked
    let ssi := fun h n r k m => codeIf ((m = 2 : Bool) && ssiTooLong h n r (bit k 2)) abSsiTiming
    let g := fun q => s.rn index q
    match sub with
    | 1 => held ++ ssi (g 0x0A) (g 0x0B) (g 0x0D) (g 0x10) v
    | 0x0A => held ++ ssi v (g 0x0B) (g 0x0D) (g 0x10) (g 1)
    | 0x0B => held ++ ssi (g 0x0A) v (g 0x0D) (g 0x10) (g 1)
    | 0x0D => held ++ ssi (g 0x0A) (g 0x0B) v (g 0x10) (g 1)
    | 0x10 => held ++ ssi (g 0x0A) (g 0x0B) (g 0x0D) v (g 1)
    | _ => if 0x0A ≤ sub && sub ≤ 0x10 then held else []
  else
    if 1 ≤ sub && sub ≤ 6 then codeIf (s.rn index 1 ≠ 3) abLocked else []

/-- OUTPUT_CLAIMED of a mode and outputs of local axis a (R294). -/
def outputsClaimed (s : State) (a m outA outB : Nat) : Bool :=
  (List.range 96).any fun c => claims m outA outB c &&
    (((List.range 32).any fun b => b ≠ a && claims (s.rn (locIdx b) 1) (s.rn (locIdx b) 2) (s.rn (locIdx b) 3) c) ||
      (pwmDriver s c).any fun n =>
        !(m = 2 && c % 2 = 0 && ((outA = c / 2 && s.rn (locIdx a) 0x0B = n) || (outB = c / 2 && s.rn (locIdx a) 0x0C = n))))

/-- Local axes and microstep tables (R294, R297, R305, R318, R319). -/
def check75 (s : State) (index sub v : Nat) (d : List Byte) : List Nat :=
  if index < 0x7600 then
    let a := index - 0x7580
    let held := codeIf (!localFree s a) abLocked
    let g := fun q => s.rn index q
    match sub with
    | 1 => held ++ codeIf (outputsClaimed s a v (g 2) (g 3)) abOutputClaimed
    | 2 => held ++ codeIf (outputsClaimed s a (g 1) v (g 3)) abOutputClaimed
    | 3 => held ++ codeIf (outputsClaimed s a (g 1) (g 2) v) abOutputClaimed
    | 0x0F => held ++ codeIf (v = 0) abRangeLow
    | _ => if (4 ≤ sub && sub ≤ 7) || sub = 0x0B || sub = 0x0C || (0x0E ≤ sub && sub ≤ 0x13) then held else []
  else
    let used := (List.range 32).any fun a => s.rn (locIdx a) 1 = 2 && s.rn (locIdx a) 7 = index - 0x7600 && !localFree s a
    codeIf ((sub = 1 : Bool) && (List.range 256).any fun i => leNat (slice d (2 * i) 2) = 0x8000) abBadValue ++
      codeIf used abTableInUse

/-- Field I/O (R436, R439, R442, R450, R452). -/
def check7 (s : State) (index sub v : Nat) (d : List Byte) : List Nat :=
  if 0x7300 ≤ index && index < 0x7320 then
    let o := index - 0x7300
    let lock := (sub = 2 && ownsField s o) || ((sub = 1 || (5 ≤ sub && sub ≤ 7)) && doLocked s o)
    let hold : Bool := (sub = 1 && v = 2 && s.rn index 5 &&& 3 ≠ 0) || (sub = 5 && v &&& 3 ≠ 0 && s.rn index 1 = 2)
    codeIf lock abLocked ++ codeIf hold abDependency ++ codeIf (fxFailed s) abFieldUnavailable
  else if 0x7400 ≤ index && index < 0x7530 then check74 s index sub v
  else if 0x7580 ≤ index && index < 0x7608 then check75 s index sub v d
  else []

/-- Program runtime and tasks (R344, R354, R361 to R365, R341). -/
def check8 (s : State) (index sub v : Nat) (d : List Byte) : List Nat :=
  if index = 0x8000 then
    match sub with
    | 3 => codeOf_ (if v = 1 then runAbort s else if v = 2 then stopAbort s else abOk)
    | 4 => codeOf_ (if v = 1 then holdAbort s else if v = 2 || v = 3 then inHoldAbort s else abOk)
    | _ => []
  else if index = 0x8010 then
    match sub with
    | 3 => codeIf (bankBusy s) abLocked
    | 5 => codeOf_ (match v with
      | 1 => verifyAbort s
      | 2 => exchangeAbort s
      | 3 => downloadAbort s
      | 4 => discardAbort s
      | _ => abOk)
    | _ => []
  else if index = 0x8020 then if sub = 0x0A then codeIf (progState s ≠ psStop) abLocked else []
  else if index = 0x8030 then codeIf ((s.prog.xst = bkExchanging : Bool)) abLocked
  else if 0x8100 ≤ index && index < 0x8140 then
    let i := index - 0x8100
    match sub with
    | 8 => codeOf_ (positionsAbort s i d)
    | 0x0C => codeOf_ (budgetAbort s i v)
    | 0x1B => codeOf_ (restartAbort s i)
    | _ => []
  else []

/-- Recorder, FIFOs, SSDs (R453, R459, R482 to R485). -/
def check9 (s : State) (index sub v : Nat) (d : List Byte) : List Nat :=
  if index = 0x9000 then
    match sub with
    | 3 => codeIf (!bit v 1) abBadValue
    | 0x0A => codeIf (s.rn index 0x0B ≥ v) abDependency
    | 0x0B => codeIf (v ≥ s.rn index 0x0A) abDependency
    | 0x0C => codeIf (d.any fun b => !([0x02, 0x03, 0x04, 0x05, 0x06, 0x09, 0x0F, 0xFF].contains b.toNat)) abBadValue
    | _ => []
  else if index = 0x9008 then codeIf (v ≠ 1 && !decimable sub) abBadValue
  else if 0x9100 ≤ index && index < 0x9200 then
    let f := index - 0x9100
    let held := codeIf (fifoProducer s f ≠ 0 || !(s.fifo f).fill.isEmpty || !(s.fifo f).drain.isEmpty) abLocked
    match sub with
    | 3 => held ++ codeIf (s.rn index 4 > v) abDependency ++ codeIf (fifoSpace s f v > 262144) abFifoSpace
    | 4 => held ++ codeIf (v > s.rn index 3) abDependency
    | _ => if sub = 2 || sub = 5 then held else []
  else if 0x9200 ≤ index && index < 0x9202 then
    if sub = 2 then codeOf_ (ssdCommandAbort s (index - 0x9200) v) else []
  else []

/-- The Ostler (R378, R379, R399). -/
def checkA (s : State) (index sub : Nat) (d : List Byte) : List Nat :=
  let w := fun off len => leNat (slice d off len)
  if index = 0xA000 && sub = 0x0B then
    codeIf (declBad d) abBadValue ++
      codeIf ((placeOf s (w 0 1) (w 2 2)).isSome) abLocked ++
      codeIf (mixesKinds s (w 0 1) (w 4 2)) abDependency
  else if index = 0xA010 && sub = 1 then
    codeIf (w 5 3 ≠ 0) abBadValue ++
      codeOf_ (match w 0 1 with
        | 1 => migrateAbort s (w 1 1) (w 2 2) (w 4 1)
        | 2 => retestAbort s (w 4 1)
        | 3 => evacuateAbort s (w 4 1)
        | 4 => rebalanceAbort s (w 1 1)
        | _ => abBadValue)
  else []

/-- Health (R519 to R521, R536). -/
def checkB (s : State) (index sub v : Nat) : List Nat :=
  if index = 0xB000 && sub = 7 then codeOf_ (restartAbort_ s)
  else if index = 0xB030 then
    match sub with
    | 1 => codeIf (firmwareBusy s) abLocked
    | 2 => codeOf_ (match v with
      | 1 => firmwareVerifyAbort s
      | 2 => commitAbort s
      | 3 => firmwareDiscardAbort s
      | 4 => commitAbort s
      | _ => abOk)
    | 3 => codeOf_ (updateAbort s v)
    | _ => []
  else []

/-- Whether a masked Rein bit of sequencer k is set as known to CX (R500). -/
def seqRein (s : State) (k : Nat) : Bool := s.reinHit (s.rn (seqIdx k) 8) (s.rn (seqIdx k) 9)

/-- Entries that a recipe holds in any of its steps (R491). -/
def recipeEntries (s : State) (n : Nat) : List (Nat × Nat) :=
  match s.lay.ovl.bind fun o => recipeOf o n with
  | some r => (recipeSteps r.1 r.2).flatMap fun t => t.values.map fun q => (q.index, q.sub)
  | none => []

/-- Whether a sequencer holds, or is about to hold, a step layer (R491). -/
def seqActive (st : Nat) : Bool := st ≠ sqIdle && st ≠ sqDone

/-- The recipe whose entries sequencer j holds or is about to hold (R491): that of a START which waits counts. -/
def seqHeldRecipe (s : State) (j : Nat) : Option Nat :=
  let q := s.seq j
  if seqActive q.st then some q.recipe else if q.cmds.any (fun c => c.1 = 1) then some (s.rn (seqIdx j) 3) else none

/-- Why a command of sequencer k is refused (R491, R500, R507). -/
def seqCommandCauses (s : State) (k cmd : Nat) : List Nat :=
  let q := s.seq k
  match cmd with
  | 1 =>
    let n := s.rn (seqIdx k) 3
    let es := recipeEntries s n
    codeIf (!(q.st = sqIdle || q.st = sqDone || q.st = sqAborting)) abLocked ++
      codeIf ((List.range 64).any fun j => j ≠ k && ((seqHeldRecipe s j).map fun r => (recipeEntries s r).any es.contains).getD false)
        abLayerConflict ++
      codeIf ((s.lay.ovl.bind fun o => recipeOf o n).isNone || (stepOf s n (s.rn (seqIdx k) 4)).isNone) abRecipeUnknown ++
      codeIf (seqRein s k) abRecipeHalted
  | 2 => codeIf (!(q.st = sqRunning || q.st = sqAborting || q.st = sqRearm)) abLocked
  | 3 => codeIf (!((q.st = sqPaused && !seqRein s k) || q.st = sqFaulted)) abLocked
  | 4 => codeIf (!(q.st = sqRunning || q.st = sqPaused || q.st = sqFaulted || q.st = sqAborting || q.st = sqRearm)) abLocked
  | _ => codeIf (q.st ≠ sqRunning) abLocked

/-- Why VERIFY, ACTIVATE and DISCARD of the configuration bank are refused (R489, R490). -/
def configAbort (s : State) (v : Nat) : List Nat :=
  let l := s.lay
  match v with
  | 1 => codeIf (!(l.bankSt = bkLoaded || l.bankSt = bkPrepared)) abLocked
  | 2 =>
    codeIf (l.bankSt ≠ bkPrepared) abLocked ++
      codeIf (l.bankKind = 2 && (List.range 64).any fun k => seqActive (s.seq k).st) abLocked
  | 4 => codeIf (l.bankSt = bkArmed || l.bankSt = bkExchanging) abLocked
  | _ => [abBadValue]

/-- Layers and recipes (R489, R490, R496, R500, R506). -/
def checkC (s : State) (index sub v : Nat) (d : List Byte) : List Nat :=
  if index = 0xC000 then
    if sub = 1 then codeIf (v ≠ 0xFF && !((s.lay.ovl.map fun o => o.modes.any fun m => m.1 = v).getD false)) abBadValue else []
  else if index = 0xC010 then
    match sub with
    | 1 =>
      codeIf (s.lay.bankSt = bkArmed || s.lay.bankSt = bkExchanging ||
        (s.lay.bankKind ≠ 0 && s.lay.bankSt ≠ bkEmpty && leNat (d.take 1) ≠ s.lay.bankKind)) abLocked
    | 3 => configAbort s v
    | _ => []
  else if 0xC200 ≤ index && index < 0xC240 then
    let k := index - 0xC200
    if sub = 2 then seqCommandCauses s k v
    else if sub = 3 || sub = 4 || (8 ≤ sub && sub ≤ 0x0A) then codeIf (seqActive (s.seq k).st) abLocked
    else []
  else []

/-- The traces (R241, R242). -/
def checkF (s : State) (index sub v : Nat) : List Nat :=
  if 0xF400 ≤ index && index < 0xF408 then
    let t := index - 0xF400
    let idle := codeIf ((s.trace t).st ≠ 0) abLocked
    if sub = 8 then
      codeIf ((v = 1 : Bool) && s.rn index 1 = 2 &&
        (let f := s.rn index 0x0C
         (imageOf s).streams.contains f ||
          (List.range 8).any fun u => u ≠ t && s.rn (0xF400 + u) 1 = 2 && s.rn (0xF400 + u) 0x0C = f && (s.trace u).st ≠ 0)) abStreamTaken
    else if (1 ≤ sub && sub ≤ 7) || sub = 0x0C then idle
    else if 0x10 ≤ sub && sub ≤ 0x1F then idle ++ codeIf (bits v 19 16 > 7) abBadValue
    else []
  else []

/-- The conditions that the owning chapter of an entry states for a write. -/
def ownCauses (s : State) (index sub : Nat) (d : List Byte) (direct : Bool) : List Nat :=
  let v := match entryDef s index sub with
    | some e => leNat d - (leNat d &&& e.resv)
    | none => leNat d
  match index / 4096 with
  | 2 => check2 s index sub v
  | 3 => check3 s index sub v
  | 4 => check4 s index sub v
  | 5 => if index < 0x5800 then check5 s index sub v d direct else check58 s index sub v d
  | 6 => check6 s index sub v
  | 7 => check7 s index sub v d
  | 8 => check8 s index sub v d
  | 9 => check9 s index sub v d
  | 0xA => checkA s index sub d
  | 0xB => checkB s index sub v
  | 0xC => checkC s index sub v d
  | 0xF => checkF s index sub v
  | _ => []

/-- Whether a segmented write of the entry is under way (R79). -/
def heldBySegments (s : State) (index sub : Nat) : Bool := s.dict.transfers.any fun t => t.index = index && t.sub = sub

/-- The causes that every access shares, before those of reading or writing (R55, R56, R68); none where the entry is there. -/
def accessCauses (s : State) (index sub : Nat) : List Nat :=
  if !indexDefined s index then [abNoEntry]
  else if (entryDef s index sub).isNone then [abNoSub]
  else
    codeIf (!servesIndex s index) abNotReady ++ codeIf (!declaredHere s index sub) abUndeclared

/-- Every cause for which one element of a write is refused (R65). -/
def writeCauses (s : State) (r : Role) (index sub : Nat) (d : List Byte) (direct : Bool) : List Nat :=
  let a := accessCauses s index sub
  if a.contains abNoEntry || a.contains abNoSub then a
  else
    match entryDef s index sub with
    | none => a
    | some e =>
      if e.acc = .ro then a ++ codeIf (!mayWrite r e) abDenied ++ [abReadOnly]
      else
        a ++ codeIf (!mayWrite r e) abDenied ++ codeIf (heldBySegments s index sub) abBusy ++ (valueAbort e d).toList ++
          (if a.isEmpty then ownCauses s index sub d direct else [])

/-- Whether an element is an enable of a channel or an axis. -/
def isEnable (e : Elem) : Bool := e.sub = 3 && 0x4000 ≤ e.index && e.index < 0x5800

/-- What later elements of one request must keep with an element: an enable's placement, and the value of any other entry. -/
def trialElem (s : State) (e : Elem) : State :=
  if isEnable e then
    if leNat e.val.octets ≠ 1 then s
    else if e.index < 0x5000 then enableChannel s (e.index - 0x4000) else enableAxis s (e.index - 0x5000)
  else
    match entryDef s e.index e.sub with
    | some d => if d.acc = .wo then s else s.setReg e.index e.sub (storedVal d e.val.octets)
    | none => s

/-- Causes that lie between the elements of one request: a value in conflict with one that an earlier element sets (R223), and an
enable for which the earlier ones leave no destination or no room (R214, R227, R254). -/
def jointCauses : State → List Elem → List (Nat × Elem)
  | _, [] => []
  | t, e :: l =>
    ((ownCauses t e.index e.sub e.val.octets false).filter fun c =>
      if isEnable e then c = abDestTaken || c = abPlacementRefused || c = abNoProfiler else c = abDependency).map (fun c => (c, e)) ++
      jointCauses (trialElem t e) l

/-- The first cause of a list of elements, with the element that it names (R65, R76). -/
def firstCause (s : State) (r : Role) (elems : List Elem) (direct : Bool) : Option (Nat × Elem) :=
  let own := elems.flatMap fun e => (writeCauses s r e.index e.sub e.val.octets direct).map fun c => (c, e)
  firstBy (own ++ if own.isEmpty then (match elems with
    | e :: l => jointCauses (trialElem s e) l
    | [] => []) else [])

end Sys2Proof.Machine
end

