-- ==== Sys2Proof/Machine/Write.lean ====
section
/-! DEFINITION. What a written value does (R58 to R61, and the effects that each chapter's tables state), for every entry outside OD
C000 to CFFF. -/

namespace Sys2Proof.Machine

/-- How a write is carried out: its client, TRANSACTION and opcode, whether its answer waits for the take-up of a command record (R257),
the tick and offset at which an apply block has fired, and whether it fired late (R119). -/
structure Origin where
  client : ClientId
  txn    : Nat
  op     : Nat
  direct : Bool
  fired  : Option (Nat × Nat)
  late   : Bool
  deriving DecidableEq, Repr

/-- Bytes of a write as the entry stores them. -/
def storedFor (s : State) (index sub : Nat) (d : List Byte) : Val :=
  match entryDef s index sub with
  | some e => storedVal e d
  | none => .oct d

/-- A live datum is stored at once and taken up at the next pickup; one that applies at a boundary is there for the pickup of that boundary
(R78, R234). -/
def storeLive (s : State) (o : Origin) (index sub : Nat) (v : Val) : State :=
  let s := s.setReg index sub v
  if o.fired.isSome then { s with taken := setAt s.taken (regKey index sub) v }
  else { s with stored := s.stored ++ [⟨index, sub, v⟩] }

/-- An RWC value changes; off a line-cycle boundary a read keeps giving the value latched there (R58). -/
def storeRwc (s : State) (index sub : Nat) (v : Val) : State :=
  let k := regKey index sub
  let l := if s.atLc || s.dict.latched.any (fun p => p.1 = k) then s.dict.latched else setAt s.dict.latched k (s.reg index sub)
  { s.setReg index sub v with dict := { s.dict with latched := l } }

/-- The boundary from which what was written without an apply block may take effect (R60, R87), or that of an apply block. -/
def fromTick (s : State) (o : Origin) : Nat :=
  match o.fired with
  | some _ => s.clock.tick
  | none => s.clock.tick + 2

/-- Time bases, ports, Leads, PPS. -/
def apply2 (s : State) (o : Origin) (index sub : Nat) (x : Val) : State :=
  let v := x.toNat
  let n := index % 16 % 8
  if index = 0x2000 && sub = 3 then { s with clock := { s.clock with lcPending := some (v, fromTick s o) } }
  else if index = 0x2000 && sub = 7 then refSelect s v
  else if 0x2010 ≤ index && index < 0x2018 && sub = 1 then tbModeWrite s n v
  else if 0x2010 ≤ index && index < 0x2018 && sub = 0x0D then setTime s n v
  else if 0x2040 ≤ index && index < 0x2048 && (sub = 1 || sub = 2) then newSource (s.setReg index sub x) n
  else if 0x2040 ≤ index && index < 0x2048 && sub = 0x0A then rereference s n v
  else if 0x2040 ≤ index && index < 0x2048 && sub = 0x15 then resumeLead s n
  else if index = 0x2060 && sub = 1 then ppsSelect (s.setReg index sub x)
  else s.setReg index sub x

/-- Line bus, engines, Henvy. -/
def apply3 (s : State) (index sub : Nat) (x : Val) : State :=
  let v := x.toNat
  if index = 0x3018 && sub = 3 then setObjects s v 2
  else if index = 0x3018 && sub = 4 then resetObjects s v
  else if index = 0x3060 && sub = 3 then rejoinEngine s (if v = 1 then .na else .nb)
  else if index = 0x3080 && sub = 2 then
    let old := s.rn 0x3080 2
    let s := s.setReg index sub x
    if v = 0 then setHenvy s hvOff else if old = 0 then becomeCandidate s else s
  else if 0x3800 ≤ index && index < 0x4000 && 0x0A ≤ sub && sub ≤ 0x0D then stationConfigured (s.setReg index sub x) (index - 0x3800)
  else s.setReg index sub x

/-- A commit is armed (R238, R239): at the next sample boundary, or at the first one from the boundary at which its apply block fires. -/
def armCommit (s : State) (o : Origin) (n v : Nat) : State :=
  let c := s.chan n
  let from_ := match o.fired with
    | some _ => s.clock.tick
    | none => s.clock.tick + 1
  let s := s.setChan n { c with commits := c.commits ++ [⟨bits v 4 0, bit v 8, from_, o.client, o.txn⟩] }
  if o.fired.isSome && !c.placed && (c.st = chOff || c.st = chFailed) then dueCommits s n else s

/-- Control channels. -/
def apply4 (s : State) (o : Origin) (index sub : Nat) (x : Val) : State :=
  let n := index - 0x4000
  let v := x.toNat
  if sub = 3 then if v = 1 then enableChannel s n else disableChannel s n
  else if sub = 0x0E then storeRwc s index sub x
  else if sub = 0x19 then armCommit s o n v
  else if liveSub sub then storeLive s o index sub x
  else if 0x40 ≤ sub && sub < 0xC0 && (sub - 0x40) % 8 ≤ 5 then
    let k := (sub - 0x40) / 8
    storeLive s o index (0x30 + k) (.oct (writeCoef (s.reg index (0x30 + k)).octets ((sub - 0x40) % 8) v))
  else s.setReg index sub x

/-- Axes. -/
def apply5 (s : State) (o : Origin) (index sub : Nat) (x : Val) : State :=
  let n := index - 0x5000
  if sub = 3 then if x.toNat = 1 then enableAxis s n else disableAxis s n
  else if sub = 9 || sub = 0x0A then shapedAxis s n sub x
  else if sub = 0x1C then
    let r := axisOfRecord x.octets
    s.setAxis n { s.axis n with orders := (s.axis n).orders ++ [⟨r.1, r.2, o.client, o.txn, o.op, o.direct⟩] }
  else s.setReg index sub x

/-- Groups and homing. -/
def apply58 (s : State) (o : Origin) (index sub : Nat) (x : Val) : State :=
  if index < 0x5900 && sub = 4 then
    let g := index - 0x5800
    let r := groupRecord x.octets
    let order : GroupOrder := ⟨r.1, r.2.take (groupMembers s g).length, o.client, o.txn, o.op, o.direct⟩
    if (groupMembers s g).isEmpty then groupTakeUp s g order
    else s.setGroup g { s.group g with orders := (s.group g).orders ++ [order] }
  else if 0x5A00 ≤ index && sub = 0x0C then homingStart s (index - 0x5A00)
  else s.setReg index sub x

/-- Fires at once where an apply block has fired, else arms an action of the first boundary that the pipeline reaches (R115). -/
def fineTimed (s : State) (o : Origin) (w : Work) (now : State → Nat → Nat → State) : State :=
  match o.fired with
  | some f => now s f.1 f.2
  | none => armAction s .nextBoundary false 0 false w

/-- Analogue. -/
def apply6 (s : State) (o : Origin) (index sub : Nat) (x : Val) : State :=
  let v := x.toNat
  if 0x6100 ≤ index && index < 0x6160 && sub = 1 then rangeWritten (s.setReg index sub x) (index - 0x6100)
  else if 0x6200 ≤ index && index < 0x6240 then
    let t := index - 0x6200
    if sub = 1 then armTrigger (s.setReg index sub x) t v
    else if sub = 5 && s.rn index 1 = tkLead then armTrigger (s.setReg index sub x) t tkLead
    else if sub = 0x0B then fineTimed s o (.trigger t none) fun s tick off => triggerByAction s t tick off
    else s.setReg index sub x
  else if 0x6300 ≤ index && index < 0x6310 then
    if sub = 1 then aoutMode s (index - 0x6300) v
    else if sub = 4 then storeRwc s index sub x
    else s.setReg index sub x
  else s.setReg index sub x

/-- An edge of a field output that an apply block brings together with other writes goes with the next downlink frame (R438). -/
def edgeNow (s : State) (out : Nat) (level : Bool) : State :=
  { s with field := { s.field with carried := s.field.carried ++ [⟨out, level, s.clock.tick + 1, 0, false⟩] } }

/-- Field I/O, PWM, encoders, capture, local axes. (DEDUCED, notes/assumptions/169.md) -/
def apply7 (s : State) (o : Origin) (index sub : Nat) (x : Val) : State :=
  let v := x.toNat
  if 0x7008 ≤ index && index < 0x7010 && sub = 1 then { s.setReg index sub x with field := { s.field with typesDue := true } }
  else if 0x7300 ≤ index && index < 0x7320 then
    let q := index - 0x7300
    if sub = 2 then storeRwc s index sub x
    else if sub = 3 then fineTimed s o (.fieldEdge q (v = 1) none) fun s _ _ => edgeNow s q (v = 1)
    else if sub = 9 then outputReset s q
    else s.setReg index sub x
  else if 0x7400 ≤ index && index < 0x7460 then
    let c := index - 0x7400
    if sub = 1 then
      let s := if s.rn index 1 = 0 || v = 0 then s.setPwm c { s.pwm c with periods := 0 } else s
      s.setReg index sub x
    else if sub = 9 then storeRwc s index sub x
    else if sub = 0x0B then fineTimed s o (.pulse c none) fun s tick off => firePulse s c (tick * 2500 + nsToPwm off)
    else s.setReg index sub x
  else if 0x7500 ≤ index && index < 0x7510 && sub = 6 then encClear s (index - 0x7500) v
  else if 0x7500 ≤ index && index < 0x7510 && sub = 1 then
    let e := index - 0x7500
    (s.setEnc e { s.enc e with ssiWord := none }).setReg index sub x
  else if 0x7520 ≤ index && index < 0x7530 && sub = 0x0A then
    s.setCap (index - 0x7520) { s.cap (index - 0x7520) with reref := some v }
  else s.setReg index sub x

/-- What an action of OD 8010:05 does: its answer and the state. -/
def programAction (s : State) (o : Origin) (v : Nat) : Nat × State :=
  match v with
  | 1 => verifyImage s
  | 2 => (abOk, armExchange s (some (o.client, o.txn)) o.fired.isSome)
  | 3 => (abOk, download s)
  | _ => (abOk, discardImage s)

/-- Program runtime, tasks and exported variables. -/
def apply8 (s : State) (o : Origin) (index sub : Nat) (x : Val) : Nat × State :=
  let v := x.toNat
  if index = 0x8000 && sub = 3 then (abOk, if v = 1 then progRun s else progStop s)
  else if index = 0x8000 && sub = 4 then (abOk, if v = 1 then progHold s 0 else if v = 2 then progResume s else progStep s)
  else if index = 0x8010 && sub = 3 then (abOk, bankImage (bankSegment s) x.octets)
  else if index = 0x8010 && sub = 5 then programAction s o v
  else if index = 0x8020 && sub = 0x0A then (abOk, resetRetained s (v = 2))
  else if 0x8100 ≤ index && index < 0x8140 then
    let i := index - 0x8100
    (abOk, match sub with
      | 8 => writePositions s i x.octets
      | 0x0C => writeBudget s i v
      | 0x1A => clearStatistics s i
      | 0x1B => restartTask s i
      | _ => s.setReg index sub x)
  else (abOk, s.setReg index sub x)

/-- A write of an exported variable (R367). -/
def applyExport (s : State) (index sub : Nat) (d : List Byte) : State :=
  match exportOf s index sub with
  | some x => if x.access = 3 then storeExport s x d else queueExport s x d
  | none => s

/-- Recorder, FIFOs, SSDs. -/
def apply9 (s : State) (index sub : Nat) (x : Val) : State :=
  if index = 0x9008 then restartDecimation (s.setReg index sub x) sub
  else if 0x9200 ≤ index && index < 0x9202 && sub = 2 then ssdCommand s (index - 0x9200) x.toNat
  else s.setReg index sub x

/-- The Ostler (R378, R399, R403). -/
def applyA (s : State) (index sub : Nat) (x : Val) : State :=
  let w := fun off len => leNat (slice x.octets off len)
  if index = 0xA000 && sub = 0x0B then
    { s with ost := { s.ost with decls := setAt s.ost.decls (w 0 1 * 4096 + w 2 2) (slice x.octets 0 8) } }
  else if index = 0xA010 && sub = 1 then
    match w 0 1 with
    | 1 => migrate s (w 1 1) (w 2 2) (w 4 1)
    | 2 => retest s (w 4 1)
    | 3 => evacuate s (w 4 1) false
    | _ => rebalance s (w 1 1)
  else if 0xA200 ≤ index && index < 0xA20D && sub = 1 then spareCount (s.setReg index sub x) (index - 0xA200)
  else s.setReg index sub x

/-- Health, firmware, the Paddock. -/
def applyB (s : State) (index sub : Nat) (x : Val) : Nat × State :=
  let v := x.toNat
  if index = 0xB000 && sub = 7 then (abOk, planRestart s 1)
  else if index = 0xB030 then
    match sub with
    | 1 => (abOk, firmwareImage (firmwareSegment s) x.octets)
    | 2 =>
      match v with
      | 1 => firmwareVerify s
      | 2 => (abOk, firmwareCommit s false)
      | 3 => (abOk, firmwareDiscard s)
      | _ => (abOk, firmwareCommit s true)
    | 3 => (abOk, beginUpdate s v)
    | _ => (abOk, s.setReg index sub x)
  else if index = 0xB080 && sub = 5 then (abOk, clearLog s)
  else (abOk, s.setReg index sub x)

/-- A trace is armed (R242): nothing in OFF, streaming in STREAM, else ARMED with an empty RAM. -/
def armTrace (s : State) (t : Nat) : State :=
  match s.rn (0xF400 + t) 1 with
  | 3 => s
  | 2 => s.setTrace t { Trace.init with st := 4, out := (s.trace t).out }
  | _ => s.setTrace t { Trace.init with st := 1 }

/-- A trace is disarmed: IDLE, with the words it holds (R243). -/
def disarmTrace (s : State) (t : Nat) : State := s.setTrace t { s.trace t with st := 0 }

/-- The traces. -/
def applyF (s : State) (index sub : Nat) (x : Val) : State :=
  if 0xF400 ≤ index && index < 0xF408 && sub = 8 then
    let t := index - 0xF400
    match x.toNat with
    | 0 => disarmTrace s t
    | 1 => armTrace s t
    | _ => triggerTrace s t
  else s.setReg index sub x

/-- One element of a write outside OD C000 to CFFF is applied: the answer of an action that answers by itself, and the state. -/
def applyOne (s : State) (o : Origin) (e : Elem) : Nat × State :=
  let index := e.index
  let sub := e.sub
  if 0x8800 ≤ index && index ≤ 0x8FFF then (abOk, applyExport s index sub e.val.octets)
  else
    let x := storedFor s index sub e.val.octets
    match index / 4096 with
    | 2 => (abOk, apply2 s o index sub x)
    | 3 => (abOk, apply3 s index sub x)
    | 4 => (abOk, apply4 s o index sub x)
    | 5 => (abOk, if index < 0x5800 then apply5 s o index sub x else apply58 s o index sub x)
    | 6 => (abOk, apply6 s o index sub x)
    | 7 => (abOk, apply7 s o index sub x)
    | 8 => apply8 s o index sub x
    | 9 => (abOk, apply9 s index sub x)
    | 0xA => (abOk, applyA s index sub x)
    | 0xB => applyB s index sub x
    | 0xF => (abOk, applyF s index sub x)
    | _ => (abOk, s.setReg index sub x)

end Sys2Proof.Machine
end

