-- ==== Sys2Proof/Machine/Layers.lean ====
section
/-! DEFINITION. Configurations, modes and recipes as they act (R487 to R503): overlay changes, ACTIVATE, mode changes, sequencers, and
the capture of live values. -/

namespace Sys2Proof.Machine

/-! Applying a change (R493, R495). -/

/-- What an EVENT of code 0x0007 names: layer, source, recipe and step. -/
structure Change where
  layer  : Nat
  source : Nat
  recipe : Nat
  step   : Nat
  deriving DecidableEq, Repr

def noteChange (s : State) (c : Change) (result entries : Nat) : State :=
  s.event 7 0 (leBytes 1 c.layer ++ leBytes 1 c.source ++ leBytes 2 c.recipe ++ leBytes 2 c.step ++ leBytes 1 result ++ [0] ++
    leBytes 2 entries)

/-- A refused change: OD C000:06, 08 and 0C, and its EVENT. -/
def refuseChange (s : State) (c : Change) (code index sub : Nat) : State :=
  noteChange (((s.bump 0xC000 8).setNum 0xC000 6 (code * 65536 + index)).setNum 0xC000 0x0C sub) c 1 0

/-- An applied change, with the number of entries whose live value changed. -/
def appliedChange (s : State) (c : Change) (late : Bool) (entries : Nat) : State :=
  noteChange (s.bump 0xC000 7) c (if late then 2 else 0) (entries % 65536)

/-- Bytes of a layered value. -/
def layeredBytes (s : State) (index sub : Nat) : List Byte :=
  match exportOf s index sub with
  | some x => ((layerRecOf s index sub).map (·.data)).getD x.init
  | none =>
    match entryDef s index sub with
    | some e => encodeVal e.ty (layeredVal s index sub)
    | none => []

/-- Bytes of a live value. -/
def liveBytes (s : State) (index sub : Nat) : List Byte :=
  match exportOf s index sub with
  | some x => exportValue s x
  | none =>
    match entryDef s index sub with
    | some e => encodeVal e.ty (entryVal s index sub)
    | none => []

def coveredBy (l : List LayerRec) : List (Nat × Nat) := (l.map fun r => (r.index, r.sub)).eraseDups

/-- The origin of what a layer or a step action writes at the present boundary. -/
def layerOrigin (s : State) : Origin := ⟨.program, 0, 0x02, false, some (s.clock.tick, 0), false⟩

def applyElems (s : State) (elems : List Elem) : State :=
  elems.foldl (fun s e => (applyOne s (layerOrigin s) e).2) s

/-- The covered entries take their layered values in a state that already holds the changed layer, all or none (R492, R493). -/
def takeLayered (s : State) (cover : List (Nat × Nat)) : Except (Nat × Elem) State :=
  let els := cover.map fun p => (⟨p.1, p.2, .oct (layeredBytes s p.1 p.2)⟩ : Elem)
  match firstCause s .engineer (els.filter fun e => !isEnable e) false with
  | some c => .error c
  | none =>
    let s := applyElems s (els.filter fun e => !isEnable e)
    match firstCause s .engineer (els.filter isEnable) false with
    | some c => .error c
    | none => .ok (applyElems s (els.filter isEnable))

/-- Entries of a list whose live value differs between two states. -/
def changedCount (old s : State) (cover : List (Nat × Nat)) : Nat :=
  (cover.filter fun p => liveBytes old p.1 p.2 ≠ liveBytes s p.1 p.2).length

/-- A change whose layer stands in `new`: applied, or refused with the state as it was. -/
def overlayChange (s new : State) (cover : List (Nat × Nat)) (c : Change) (late : Bool) : State × Bool :=
  match takeLayered new cover with
  | .ok t => (appliedChange t c late (changedCount s t cover), true)
  | .error e => (refuseChange s c e.1 e.2.index e.2.sub, false)

/-! Modes (R496). -/

def modeDefined (s : State) (v : Nat) : Bool :=
  v = 0xFF || ((s.lay.ovl.map fun o => o.modes.any fun m => m.1 = v).getD false)

/-- The mode change at its boundary; a power-on mode that the overlay set does not define is refused here. -/
def changeMode (s : State) (v : Nat) (late : Bool) : State :=
  let c : Change := ⟨1, v, 0xFFFF, 0xFFFF⟩
  if !modeDefined s v then refuseChange s c abBadValue 0xC000 1
  else
    let cover := coveredBy (modeRecs s.lay.ovl (s.rn 0xC000 2) ++ modeRecs s.lay.ovl v)
    (overlayChange s (s.setNum 0xC000 2 v) cover c late).1

/-! Images (R487 to R490). -/

/-- Segments arrive in the inactive bank. -/
def configSegment (s : State) : State :=
  { s with lay := { s.lay with bankSt := bkLoading, bankBase := none, bankOvl := none } }

/-- A whole image stands in the inactive bank; its kind is byte 0. -/
def configImage (s : State) (raw : List Byte) : State :=
  let k := leNat (raw.take 1)
  { s with lay := { s.lay with bankRaw := raw, bankSt := bkLoaded, bankKind := if k = 1 || k = 2 then k else 0, bankBase := none,
                               bankOvl := none } }

/-- Why a value record of an overlay set is refused at VERIFY (R488). -/
def recordAbort (s : State) (r : LayerRec) : Nat :=
  let may := layerable r.index r.sub || (exportOf s r.index r.sub).any fun x => x.access = 1 || x.access = 3
  match entryDef s r.index r.sub with
  | some e =>
    if !may then abNotLayerable
    else match valueAbort e r.data with
      | some c => if c = abLength then abBadValue else c
      | none => abOk
  | none => abNotLayerable

/-- Whether a condition entry has a type that R497 permits. -/
def condTypeGood (s : State) (index sub : Nat) : Bool :=
  match entryDef s index sub with
  | some e => [Ty.bool, .bits8, .bits16, .bits32, .int8, .int16, .int32, .uint8, .uint16, .uint32].contains e.ty
  | none => false

/-- Whether an action record names a writable entry outside OD C000 to CFFF. -/
def actionRecordGood (s : State) (r : LayerRec) : Bool :=
  !(0xC000 ≤ r.index && r.index ≤ 0xCFFF) && (entryDef s r.index r.sub).any fun e => e.acc ≠ .ro

/-- Whether step k of a recipe with n steps keeps R497. -/
def stepGood (s : State) (b : List Byte) (n : Nat) (t : StepRec) : Bool :=
  t.endKind ≤ 3 && t.dkind ≤ 1 && t.condOp ≤ 1 && t.values.length ≤ 256 && t.actions.length ≤ 16 &&
    (t.next = 0xFFFF || t.next < n) &&
    (if t.endKind = 1 || t.endKind = 2 then condTypeGood s t.condIndex t.condSub else true) &&
    (if t.endKind = 0 || t.endKind = 2 then
      t.dur ≠ 0 && (if t.dkind = 0 then t.dur < 2 ^ 32 && recipeTb b < 8 else recipeLead b < 8) else true) &&
    t.actions.all (actionRecordGood s)

/-- Whether a recipe keeps R497. -/
def recipeGood (s : State) (r : Nat × List Byte) : Bool :=
  let steps := recipeSteps r.1 r.2
  let n := leNat (slice r.2 2 2)
  leNat (slice r.2 0 2) < 256 && 1 ≤ n && n ≤ 1024 && steps.length = n && (recipeAbort r.2 = 0xFFFF || recipeAbort r.2 < n) &&
    steps.all (stepGood s r.2 n) && (List.range n).all fun k => steps.any fun t => t.number = k

/-- Every value record of an overlay set in the order of the image. -/
def overlayRecs (o : OverlaySet) : List LayerRec :=
  o.modes.flatMap (·.2) ++ o.recipes.flatMap fun r => (recipeSteps r.1 r.2).flatMap (·.values)

/-- Why an overlay set is refused at VERIFY, with the offset for OD C010:05. -/
def overlayAbort (s : State) (o : OverlaySet) : Nat × Nat :=
  match (overlayRecs o).find? fun r => recordAbort s r ≠ abOk with
  | some r => (recordAbort s r, r.off)
  | none =>
    let total := (o.recipes.map fun r => leNat (slice r.2 2 2)).foldl (· + ·) 0
    if o.modes.all (fun m => m.1 < 32) && o.recipes.length ≤ 256 && total ≤ 65536 && o.recipes.all (recipeGood s) then (abOk, 0)
    else (abBadValue, 0)

/-- The value that a base configuration gives an entry. -/
def baseValue (c : BaseConfig) (index sub : Nat) : Option Nat :=
  ((c.decls ++ c.records).filter fun r => r.index = index && r.sub = sub).getLast?.map fun r => leNat r.data

/-- A station declared at a position that its ring does not have (R130). -/
def stationBeyond (c : BaseConfig) (r : LayerRec) : Bool :=
  0x3800 ≤ r.index && r.index < 0x4000 && r.sub = 1 && leNat r.data ≠ 0 &&
    (baseValue c (0x3010 + (r.index - 0x3800) / 512) 2).getD 0 ≤ (r.index - 0x3800) % 512

/-- What VERIFY refuses in a base configuration, with the offset of the record (R130, R201): 16 gate entries with the reserved
window at most. (DESIGN CHOICE, notes/assumptions/151.md) -/
def baseAbort (c : BaseConfig) : Nat × Nat :=
  match (c.decls ++ c.records).find? (stationBeyond c) with
  | some r => (abDependency, r.off)
  | none =>
    if c.gates.any (gateBad ((baseValue c 0x3080 3).getD 12000)) then (abDependency, 0)
    else if (List.range 2).any fun u => 15 < (c.gates.filter fun g => g.uplink = u).length then (abBadValue, 0)
    else (abOk, 0)

/-- VERIFY: the bank becomes PREPARED, or REFUSED with an abort code (R354, R487 to R489); a base configuration has at most
4,194,304 bytes. (DEDUCED, notes/assumptions/97.md) -/
def configVerify (s : State) : Nat × State :=
  let raw := s.lay.bankRaw
  let refused := fun (code off : Nat) =>
    (code, { (s.setNum 0xC010 5 off) with lay := { s.lay with bankSt := bkRefused, bankBase := none, bankOvl := none } })
  if s.lay.bankKind = 1 then
    if !Config.chainsTo raw (ownerAnchor s) then refused abSignature 0
    else if 4194304 < raw.length then refused abBadValue 0
    else match Config.baseConfig raw with
      | some c =>
        let a := baseAbort c
        if a.1 = abOk then (abOk, { (s.setNum 0xC010 5 0) with lay := { s.lay with bankSt := bkPrepared, bankBase := some c } })
        else refused a.1 a.2
      | none => refused abBadValue 0
  else if s.lay.bankKind = 2 then
    if !Config.chainsTo raw ((s.lay.base.map (·.ovlAnchors)).getD []) then refused abSignature 0
    else match Config.overlaySet raw with
      | some o =>
        let a := overlayAbort s o
        if a.1 = abOk then (abOk, { (s.setNum 0xC010 5 0) with lay := { s.lay with bankSt := bkPrepared, bankOvl := some o } })
        else refused a.1 a.2
      | none => refused abBadValue 0
  else refused abBadValue 0

def configDiscard (s : State) : State :=
  { s with lay := { s.lay with bankRaw := [], bankSt := bkEmpty, bankKind := 0, bankBase := none, bankOvl := none, activate := none } }

/-- ACTIVATE stored without an apply block: the first line-cycle boundary at least 2 base ticks later (R490). -/
def armActivate (s : State) : State :=
  { s with lay := { s.lay with bankSt := bkArmed, activate := some (s.clock.tick + 2, true) } }

/-- ACTIVATE accepted with an apply block waits for its instant in ARMED. -/
def holdActivate (s : State) : State := { s with lay := { s.lay with bankSt := bkArmed, activate := none } }

/-- An ACTIVATE that is withdrawn or refused at its boundary leaves both banks unchanged. -/
def dropActivate (s : State) : State :=
  if s.lay.bankSt = bkArmed then { s with lay := { s.lay with bankSt := bkPrepared, activate := none } } else s

/-- The inactive bank after the swap: it holds the image that was active. -/
def swappedBank (l : Layers) (old : List Byte) : Layers :=
  { l with bankRaw := old, bankSt := if old.isEmpty then bkEmpty else bkLoaded, bankKind := if old.isEmpty then 0 else l.bankKind,
           bankBase := none, bankOvl := none, activate := none }

/-- Whether a declaration may be removed (R490): the instance is OFF, DISABLED or unplaced, or a station on an IDLE ring. -/
def removable (s : State) (r : LayerRec) : Bool :=
  if 0x3800 ≤ r.index && r.index < 0x4000 then (s.ring ((r.index - 0x3800) / 512)).st = rgIdle
  else if 0x4000 ≤ r.index && r.index < 0x5000 then (s.chan (r.index - 0x4000)).st = chOff || !(s.chan (r.index - 0x4000)).placed
  else if 0x5000 ≤ r.index && r.index < 0x5800 then (s.axis (r.index - 0x5000)).st = axDisabled || !(s.axis (r.index - 0x5000)).placed
  else if 0x5800 ≤ r.index && r.index < 0x5900 then (s.group (r.index - 0x5800)).active.isEmpty
  else true

/-- Why the declarations of a new base configuration are refused (R490), with the declaration. -/
def declAbort (s : State) (old new : List LayerRec) : Option (Nat × LayerRec) :=
  (old.find? fun r => (!(new.any fun q => q.index = r.index && q.sub = r.sub && q.data = r.data)) && !removable s r).map
    fun r => (abLocked, r)

/-- Functions that a refused configuration disabled start with the new one (R515). -/
def enableDisabled (s : State) : State :=
  forNums 14 s fun s f => if (s.ready f).state = 6 then s.setReady f ⟨2, 0, 0⟩ else s

/-- Whether a configuration names a successor of the owner anchor for which no anchor slot is left (R518). -/
def noAnchorSlot (s : State) (c : BaseConfig) : Bool :=
  c.successor.any fun a => !(s.health.anchors.contains (Config.sha384 a)) && s.health.anchors.length ≥ 4

/-- The successor that a configuration names is fused into the next anchor slot and is in force (R518). -/
def fuseSuccessor (s : State) (c : BaseConfig) : State :=
  match c.successor with
  | some a =>
    if s.health.anchors.contains (Config.sha384 a) then s
    else { s with health := { s.health with anchors := s.health.anchors ++ [Config.sha384 a] } }
  | none => s

/-- ACTIVATE of a base configuration (R490). -/
def activateBase (s : State) (new : BaseConfig) (late : Bool) : State :=
  let c : Change := ⟨0, 0, 0xFFFF, 0xFFFF⟩
  let oldDecls := (s.lay.base.map (·.decls)).getD []
  let fail := fun (code index sub : Nat) => dropActivate (refuseChange s c code index sub)
  if (s.lay.base.isSome && new.number ≠ s.henvy.number && henvyJoined s) || noAnchorSlot s new then fail abDependency 0xC010 3
  else
    match declAbort s oldDecls new.decls with
    | some d => fail d.1 d.2.index d.2.sub
    | none =>
      let gone := oldDecls.filter fun r => !(new.decls.any fun q => q.index = r.index && q.sub = r.sub)
      let goneAt := fun (p : Nat × Nat) => gone.any fun r => r.index = p.1
      let cover := coveredBy (baseRecs s.lay.base ++ new.records)
      let was := (List.range 14).filter fun f => (s.ready f).state = 6
      let l := s.lay
      let t := enableDisabled s
      let t := new.decls.foldl (fun t r => t.setReg r.index r.sub (recVal r)) t
      let ovl := if l.base.isSome then l.ovl
        else if Config.chainsTo l.ovlRaw new.ovlAnchors then Config.overlaySet l.ovlRaw else none
      let t := { t with lay := { swappedBank l l.baseRaw with base := some new, baseRaw := l.bankRaw, ovl := ovl } }
      match takeLayered t (cover.filter fun p => !goneAt p) with
      | .error e => fail e.1 e.2.index e.2.sub
      | .ok t =>
        let t := (cover.filter goneAt).foldl (fun t p => t.setReg p.1 p.2 (defaultVal p.1 p.2)) t
        let t := gone.foldl (fun t r => t.setReg r.index r.sub (defaultVal r.index r.sub)) t
        let renumbered := new.number ≠ t.henvy.number
        let t := { t with henvy := { t.henvy with number := new.number } }
        let t := if renumbered && t.rn 0x3080 2 = 1 then becomeCandidate t else t
        let t := was.foldl startFunction t
        let t := if t.serves 2 then forNums 4 t startRing else t
        appliedChange (fuseSuccessor t new) c late (changedCount s t cover)

/-- ACTIVATE of an overlay set: the mode in force takes its values from the new set (R490). -/
def activateOverlay (s : State) (new : OverlaySet) (late : Bool) : State :=
  let m := s.rn 0xC000 2
  let c : Change := ⟨1, m, 0xFFFF, 0xFFFF⟩
  if (List.range 64).any fun k => seqActive (s.seq k).st then dropActivate (refuseChange s c abLocked 0xC010 3)
  else
    let t := { s with lay := { swappedBank s.lay s.lay.ovlRaw with ovl := some new, ovlRaw := s.lay.bankRaw } }
    let r := overlayChange s t (coveredBy (modeRecs s.lay.ovl m ++ modeRecs (some new) m)) c late
    if r.2 then r.1 else dropActivate r.1

/-- ACTIVATE at its boundary. (DEDUCED, notes/assumptions/98.md) -/
def doActivate (s : State) (late : Bool) : State :=
  match s.lay.bankBase, s.lay.bankOvl with
  | some c, _ => activateBase s c late
  | none, some o => activateOverlay s o late
  | none, none => dropActivate s

/-! Sequencers (R498 to R502). -/

/-- How the end action of a step is armed at a remainder (2^-32 ns, or lu): its kind and direction, or none. -/
def endAction (s : State) (b : List Byte) (t : StepRec) (left : Int) : Option (ActionKind × Bool) :=
  if t.endKind ≠ 0 && t.endKind ≠ 2 then none
  else if t.dkind = 0 then some (.tb (recipeTb b) ((s.tb (recipeTb b)).val + left).toNat, false)
  else some (.lead (recipeLead b) (ofSigned 64 ((s.lead (recipeLead b)).pos64 + left)), toSigned 64 t.dur < 0)

/-- The whole length of a step. -/
def stepLength (t : StepRec) : Int :=
  if t.dkind = 0 then ((t.dur % 2 ^ 32 * 1000000 * 2 ^ 32 : Nat) : Int) else toSigned 64 t.dur

/-- The end action of sequencer k is armed with LATE_FIRE (R498). -/
def armEnd (s : State) (k : Nat) (a : Option (ActionKind × Bool)) : State :=
  match a with
  | none => s
  | some (kind, back) =>
    let id := s.actions.nextId
    let s := armAction s kind back 0 false (.stepEnd k)
    s.setSeq k { s.seq k with endAct := some id }

/-- The end action of sequencer k is withdrawn (R501). -/
def withdrawEnd (s : State) (k : Nat) : State :=
  match (s.seq k).endAct with
  | none => s
  | some i =>
    let s := { s with actions := { s.actions with armed := s.actions.armed.filter (fun a => a.id ≠ i),
                                                  due := s.actions.due.filter (fun d => d.action.id ≠ i) } }
    s.setSeq k { s.seq k with endAct := none }

/-- What remains of the step of sequencer k, in 2^-32 ns or lu. -/
def endLeft (s : State) (k : Nat) : Option Int :=
  (s.seq k).endAct.bind fun i =>
    ((s.actions.armed ++ s.actions.due.map (·.action)).find? fun a => a.id = i).bind fun a =>
      match a.kind with
      | .tb n t => some ((t : Int) - (s.tb n).val)
      | .lead n t => some (diff64 t (s.lead n).pos64)
      | .nextBoundary => none

/-- Sequencer k goes to a step in a state, or leaves its layer; a refused change leaves it FAULTED with the previous step's values
(R492, R499). -/
def changeStep (s : State) (k st : Nat) (n : Option Nat) (late : Bool) : State × Bool :=
  let s := withdrawEnd s k
  let q := s.seq k
  let was := (layerStep q).getD 0xFFFF
  let b := seqRecipe s k
  let step := n.bind fun n => stepOf s q.recipe n
  let clear := { q with step := n.getD 0xFFFF, prev := was, held := none, endAct := none, endDue := none, condDue := false }
  let q' := { clear with st := st, late := late, startTb := (s.tb (recipeTb b)).val, startLead := (s.lead (recipeLead b)).pos64 }
  let c : Change := ⟨2, k, q.recipe, n.getD 0xFFFF⟩
  let new := s.setSeq k q'
  let cover := coveredBy (seqRecs s q ++ seqRecs new q')
  let fin := step.bind fun t => endAction s b t (stepLength t)
  let code := match fin with
    | some (kind, back) => actionAbort s kind back 0 false
    | none => abOk
  let failed := (s.bump (seqIdx k) 0x0C).setSeq k { clear with st := sqFaulted }
  if code ≠ abOk then (refuseChange failed c code (seqIdx k) 1, false)
  else
    match takeLayered new cover with
    | .error e => (refuseChange failed c e.1 e.2.index e.2.sub, false)
    | .ok t => (appliedChange ((armEnd t k fin).bump (seqIdx k) 0x0B) c late (changedCount s t cover), true)

/-- Actions of a step that a change has begun: sequencer and step. -/
def begun (r : State × Bool) (k n : Nat) : State × List (Nat × Nat) := (r.1, if r.2 then [(k, n)] else [])

/-- Whether a START that takes effect finds its recipe, no conflict with an active sequencer, and no masked Rein bit. -/
def startHolds (s : State) (k : Nat) : Bool :=
  let r := s.rn (seqIdx k) 3
  (stepOf s r (s.rn (seqIdx k) 4)).isSome && !seqRein s k &&
    !((List.range 64).any fun j => j ≠ k && seqActive (s.seq j).st && (recipeEntries s (s.seq j).recipe).any (recipeEntries s r).contains)

/-- RUNNING at the start step (R500). -/
def startSeq (s : State) (k : Nat) (late : Bool) : State × List (Nat × Nat) :=
  let n := s.rn (seqIdx k) 4
  let s := s.setSeq k { s.seq k with recipe := s.rn (seqIdx k) 3, actionRef := false, discarded := false, rein := false }
  begun (changeStep s k sqRunning (some n) late) k n

/-- The current step of sequencer k ends (R498 to R500). -/
def stepEnds (s : State) (k : Nat) (late : Bool) : State × List (Nat × Nat) :=
  let q := s.seq k
  if q.st = sqRunning then
    match stepOf s q.recipe q.step with
    | none => (s, [])
    | some t =>
      if t.next = 0xFFFF then ((changeStep s k sqDone none late).1, [])
      else begun (changeStep s k sqRunning (some t.next) late) k t.next
  else if q.st = sqAborting then ((changeStep s k sqIdle none late).1, [])
  else if q.st = sqRearm then
    if seqRein s k then
      let r := changeStep s k sqIdle none late
      (((r.1.bump (seqIdx k) 0x0F).setSeq k { r.1.seq k with discarded := true }), [])
    else startSeq s k late
  else (s, [])

/-- ABORT (R500): ABORT_STEP, or IDLE at once. -/
def abortSeq (s : State) (k : Nat) : State × List (Nat × Nat) :=
  let a := recipeAbort (seqRecipe s k)
  if a = 0xFFFF then ((changeStep s k sqIdle none false).1, []) else begun (changeStep s k sqAborting (some a) false) k a

/-- PAUSE (R501). -/
def pauseSeq (s : State) (k : Nat) : State :=
  let left := endLeft s k
  let s := withdrawEnd s k
  s.setSeq k { s.seq k with st := sqPaused, held := left, condDue := false }

/-- RESUME (R500, R501). -/
def resumeSeq (s : State) (k : Nat) : State × List (Nat × Nat) :=
  let q := s.seq k
  if q.st = sqPaused then
    let s := s.setSeq k { q with st := sqRunning, held := none, rein := false }
    match q.held, stepOf s q.recipe q.step with
    | some h, some t => (armEnd s k (endAction s (seqRecipe s k) t h), [])
    | _, _ => (s, [])
  else
    let s := s.setSeq k { q with rein := false }
    if q.step = 0xFFFF then ((changeStep s k sqDone none false).1, [])
    else begun (changeStep s k sqRunning (some q.step) false) k q.step

/-- A stored command takes effect; one that its state no longer lists has none (R500). -/
def seqCommand (s : State) (k cmd : Nat) : State × List (Nat × Nat) :=
  let q := s.seq k
  match cmd with
  | 1 =>
    if (q.st = sqIdle || q.st = sqDone) && startHolds s k then startSeq s k false
    else if q.st = sqAborting then (s.setSeq k { q with st := sqRearm }, [])
    else (s, [])
  | 2 => if q.st = sqRunning then (pauseSeq s k, []) else (s, [])
  | 3 => if (q.st = sqPaused && !seqRein s k) || q.st = sqFaulted then resumeSeq s k else (s, [])
  | 4 => if q.st = sqRunning || q.st = sqPaused || q.st = sqFaulted then abortSeq s k else (s, [])
  | _ => if q.st = sqRunning then stepEnds s k false else (s, [])

/-- The commands of sequencer k that are due, in the order stored. -/
def seqCommands (s : State) (k : Nat) : State × List (Nat × Nat) :=
  let due := (s.seq k).cmds.filter fun c => c.2 ≤ s.clock.tick
  let s := s.setSeq k { s.seq k with cmds := (s.seq k).cmds.filter fun c => !(c.2 ≤ s.clock.tick) }
  due.foldl (fun (r : State × List (Nat × Nat)) c =>
    let t := seqCommand r.1 k c.1
    (t.1, r.2 ++ t.2)) (s, [])

/-- The reaction of sequencer k to a masked Rein bit (R500). -/
def seqReinAct (s : State) (k : Nat) : State × List (Nat × Nat) :=
  let q := s.seq k
  let due := match q.reinFrom with
    | some f => f ≤ s.clock.tick
    | none => q.reinSeen && seqRein s k
  if !due then (s, [])
  else
    let s := s.setSeq k { q with reinFrom := none }
    if q.st ≠ sqRunning then (s, [])
    else
      let r := if s.rn (seqIdx k) 0x0A = 0 then (pauseSeq s k, []) else abortSeq s k
      (r.1.setSeq k { r.1.seq k with rein := true }, r.2)

/-- CX learns of a masked Rein bit of each sequencer. -/
def noteSeqReins (s : State) : State :=
  if !s.cxUp then s
  else s.lay.seqs.foldl (fun s p =>
    let hit := seqRein s p.1
    let q := s.seq p.1
    if hit && !q.reinSeen then s.setSeq p.1 { q with reinSeen := true, reinFrom := some (s.clock.tick + 2) }
    else if !hit && q.reinSeen then s.setSeq p.1 { q with reinSeen := false }
    else s) s

/-- The end actions that have come to their boundary (R114, R498). -/
def endsDue (s : State) : List Due :=
  s.actions.due.filter fun d =>
    (match d.action.work with
     | .stepEnd _ => true
     | _ => false) && d.boundary ≤ s.clock.tick

/-- The end action of sequencer k at its boundary, taken from the table: whether it is still the sequencer's, and whether it is late. -/
def takeEnd (s : State) (k : Nat) : State × Option Bool :=
  match (endsDue s).find? fun d => d.action.work = .stepEnd k with
  | none => (s, none)
  | some d =>
    let s := { s with actions := { s.actions with due := s.actions.due.filter fun x => x ≠ d } }
    if (s.seq k).endAct ≠ some d.action.id then (s, none)
    else (s.setSeq k { s.seq k with endAct := none }, some (bit d.action.status 0))

/-- Sequencer k at a line-cycle boundary: the end of its step, its commands, its Rein bits. -/
def seqAtLc (s : State) (k : Nat) : State × List (Nat × Nat) :=
  let e := takeEnd s k
  let s := e.1
  let q := s.seq k
  let a := match e.2, q.endDue with
    | some late, _ => stepEnds s k late
    | none, some e => stepEnds s k e.2
    | none, none => if q.condDue then stepEnds s k false else (s, [])
  let b := seqCommands a.1 k
  let c := seqReinAct b.1 k
  (c.1, a.2 ++ b.2 ++ c.2)

/-- The actions of a step that has begun (R499). -/
def runActions (s : State) (k n : Nat) : State :=
  match stepOf s (s.seq k).recipe n with
  | none => s
  | some t => t.actions.foldl (fun s r =>
      let e : Elem := ⟨r.index, r.sub, .oct r.data⟩
      let refused := fun (s : State) (code : Nat) =>
        (s.setNum (seqIdx k) 0x0D (code * 65536 + n)).setSeq k { s.seq k with actionRef := true }
      match firstCause s .engineer [e] false with
      | some c => refused s c.1
      | none =>
        let a := applyOne s (layerOrigin s) e
        if a.1 = abOk then a.2 else refused a.2 a.1) s

def runAll (r : State × List (Nat × Nat)) : State := r.2.foldl (fun s p => runActions s p.1 p.2) r.1

/-- Whether the condition of a step holds on the value in force (R498). -/
def condHolds (s : State) (t : StepRec) : Bool :=
  let v := match exportOf s t.condIndex t.condSub with
    | some x => leNat (exportValue s x)
    | none => match entryDef s t.condIndex t.condSub with
      | some e => leNat (encodeVal e.ty (readVal s e t.condIndex))
      | none => 0
  let eq : Bool := v % 2 ^ 32 &&& t.condMask = t.condValue
  if t.condOp = 0 then eq else !eq

/-- Conditions are evaluated at each line-cycle boundary while the step runs (R498, R501). (DEDUCED, notes/assumptions/99.md) -/
def evalConditions (s : State) : State :=
  s.lay.seqs.foldl (fun s p =>
    let q := s.seq p.1
    if !(q.st = sqRunning || q.st = sqAborting || q.st = sqRearm) then s
    else
      match stepOf s q.recipe q.step with
      | some t => if (t.endKind = 1 || t.endKind = 2) && condHolds s t then s.setSeq p.1 { q with condDue := true } else s
      | none => s) s

/-- A stored ACTIVATE at a line-cycle boundary (R490); without a base configuration it needs no function (R515). -/
def activateAtLc (s : State) : State :=
  match s.lay.activate with
  | some a => if a.1 ≤ s.clock.tick && (s.serves 12 || s.lay.base.isNone) then doActivate s false else s
  | none => s

/-- A stored mode request at a line-cycle boundary (R496). -/
def modeAtLc (s : State) : State :=
  match s.lay.mode with
  | some m =>
    if m.2.1 ≤ s.clock.tick && s.serves 12 then changeMode { s with lay := { s.lay with mode := none } } m.1 false else s
  | none => s

/-- The step changes of a line-cycle boundary in sequencer-number order, then the actions of the steps begun (R494). -/
def stepsAtLc (s : State) : State :=
  if !s.serves 12 then s
  else
    runAll (s.lay.seqs.foldl (fun (r : State × List (Nat × Nat)) p =>
      let t := seqAtLc r.1 p.1
      (t.1, r.2 ++ t.2)) (s, []))

/-- The conditions on the values in force once every change of the boundary is applied (R494, R498). -/
def conditionsAtLc (s : State) : State := if s.serves 12 then evalConditions s else s

/-- The end of the step of sequencer k by its action; while CX or the layers do not serve, the end waits for the first line-cycle
boundary after it (R502). -/
def endByAction (s : State) (k : Nat) : State × List (Nat × Nat) :=
  let r := takeEnd s k
  match r.2 with
  | none => (r.1, [])
  | some late =>
    if s.cxUp && s.serves 12 then stepEnds r.1 k late
    else (r.1.setSeq k { r.1.seq k with endDue := some (s.clock.tick, true) }, [])

/-- Every step end of the present base-tick boundary, in sequencer-number order, then the actions of the steps begun (R494). -/
def stepEndsDue (s : State) : State :=
  runAll (s.lay.seqs.foldl (fun (r : State × List (Nat × Nat)) p =>
    let t := endByAction r.1 p.1
    (t.1, r.2 ++ t.2)) (s, []))

/-- The end action of sequencer k fires (R498), with every other of its boundary; at a tick that opens a line cycle it waits for the order
of R494 there. -/
def stepEndFires (s : State) (k : Nat) : State :=
  if (s.cxUp && s.serves 12 && lcAhead s) || !((endsDue s).any fun d => d.action.work = .stepEnd k) then s else stepEndsDue s

/-! Capturing live values (R503). -/

/-- A layer entry record (R488). -/
def layerRecord (index sub : Nat) (data : List Byte) : List Byte :=
  leBytes 2 index ++ leBytes 1 sub ++ [0] ++ leBytes 4 data.length ++ data ++
    List.replicate ((data.length + 3) / 4 * 4 - data.length) 0

/-- Records taken while they fit, and whether one did not. -/
def fitRecords : Nat → List (List Byte) → List Byte × Bool
  | _, [] => ([], false)
  | room, r :: t =>
    if r.length ≤ room then
      let x := fitRecords (room - r.length) t
      (r ++ x.1, x.2)
    else ([], true)

/-- Keys of every entry that may differ from its layered value, in index order. -/
def captureKeys (s : State) : List Nat :=
  let recs := s.lay.seqs.flatMap (fun p => seqRecs s p.2) ++ modeRecs s.lay.ovl (s.rn 0xC000 2) ++ baseRecs s.lay.base
  let typed := s.chans.map (fun p => regKey (chIdx p.1) 3) ++ s.axes.map (fun p => regKey (axIdx p.1) 3)
  let keys := s.regs.map (·.1) ++ recs.map (fun r => regKey r.index r.sub) ++ typed ++
    (imageOf s).exports.map fun x => regKey x.index x.sub
  (keys.foldl (fun m k => setAt m k ()) ([] : Map Unit)).map (·.1)

/-- The capture of OD C000:09. -/
def captureLive (s : State) : State :=
  let may := fun (i sub : Nat) => layerable i sub || (exportOf s i sub).any fun x => x.access = 1 || x.access = 3
  let recs := (captureKeys s).filterMap fun k =>
    let i := k / 256
    let sub := k % 256
    if may i sub && declaredHere s i sub && liveBytes s i sub ≠ layeredBytes s i sub then
      some (layerRecord i sub (liveBytes s i sub)) else none
  let r := fitRecords 1048576 recs
  (s.setReg 0xC000 0x0A (.oct r.1)).setNum 0xC000 0x0B (b2n r.2)

/-! Writes of OD C000 to CFFF. -/

/-- What an action of OD C010:03 does. -/
def configAction (s : State) (o : Origin) (v : Nat) : Nat × State :=
  match v with
  | 1 => configVerify s
  | 2 => (abOk, if o.fired.isSome then doActivate s o.late else armActivate s)
  | _ => (abOk, configDiscard s)

/-- One element of a write is applied, of any entry: the answer of an action that answers by itself, and the state. -/
def applyAny (s : State) (o : Origin) (e : Elem) : Nat × State :=
  if 0xC000 ≤ e.index && e.index ≤ 0xCFFF then
    let x := storedFor s e.index e.sub e.val.octets
    let v := x.toNat
    if e.index = 0xC000 && e.sub = 1 then
      (abOk, if o.fired.isSome then changeMode (s.setNum 0xC000 1 v) v o.late else requestMode s v)
    else if e.index = 0xC000 && e.sub = 9 then (abOk, captureLive s)
    else if e.index = 0xC010 && e.sub = 1 then (abOk, configImage s x.octets)
    else if e.index = 0xC010 && e.sub = 3 then configAction s o v
    else if 0xC200 ≤ e.index && e.index < 0xC240 && e.sub = 2 then
      let k := e.index - 0xC200
      (abOk, s.setSeq k { s.seq k with cmds := (s.seq k).cmds ++ [(v, s.clock.tick + 2)] })
    else (abOk, s.setReg e.index e.sub x)
  else applyOne s o e

end Sys2Proof.Machine
end

