-- ==== Sys2Proof/Machine/Service.lean ====
section
/-! DEFINITION. The dictionary server (R55 to R82, R571): clients, reads, writes with and without an apply block, writes that wait for a
line-cycle boundary, segmented transfers, INFO, watches and CANCEL. -/

namespace Sys2Proof.Machine

/-! Clients (R70, R81, R82). -/

/-- Whether a client can send a request now. While CX is down its sessions are closed and its program stands, and the engines
answer the stations (R70). (DESIGN CHOICE, notes/assumptions/155.md) -/
def clientLive (s : State) (c : ClientId) : Bool :=
  s.on &&
    match c with
    | .session n => s.cxUp && (getAt none s.dict.sessions n.val).isSome
    | .station a => stDeclared s a.val && (s.station a.val).st = stOperational && s.rn (stIdx a.val) 7 > 4
    | .program => s.cxUp && s.serves 8

/-- A session's idle time starts again with each request (R73). -/
def touch (s : State) (c : ClientId) : State :=
  match c with
  | .session n =>
    match getAt none s.dict.sessions n.val with
    | some x => { s with dict := { s.dict with sessions := setAt s.dict.sessions n.val (some { x with lastRequest := s.clock.timClk }) } }
    | none => s
  | _ => s

/-- Requests of a client that have no answer yet (R81, R82). (DEDUCED, notes/assumptions/20.md) -/
def outstanding (s : State) (c : ClientId) : Nat :=
  let armed := (s.actions.armed ++ s.actions.due.map (·.action)).filter fun a =>
    (a.work.who.map (·.1)) = some c && !answeredAtArm a.work
  (s.dict.atLc.filter fun w => w.client = c).length + armed.length +
    (s.axes.map fun p => (p.2.orders.filter fun o => o.direct && o.client = c).length).foldl (· + ·) 0 +
    (s.groups.map fun p => (p.2.orders.filter fun o => o.direct && o.client = c).length).foldl (· + ·) 0

/-- Whether a client has used up its outstanding requests. The program's requests have no limit. -/
def atLimit (s : State) (c : ClientId) : Bool :=
  match c with
  | .session _ => outstanding s c ≥ 8
  | .station _ => outstanding s c ≥ 1
  | .program => false

/-- Most bytes of data in one message (R81, R82). -/
def messageLimit : ClientId → Nat
  | .station _ => 240
  | _ => 65536

/-- A response (R76). -/
def respond (s : State) (c : ClientId) (op txn index sub count abort : Nat) (data : List Byte) : State :=
  if hears s c then s.emit (.response c op txn index sub count abort data) else s

/-- A readiness word as a read of subindex 00 of a first entry gives it (R67). -/
def readyBytes (s : State) (index sub : Nat) : Option (List Byte) :=
  if sub = 0 && isFirstEntry index then some (leBytes 4 ((functionOf index).elim 0 (readinessWord s))) else none

/-- A DAZ message is stamped in software as its interrupt is taken on CX (R99); the program's requests are no network events. -/
def stampRequest (s : State) (c : ClientId) : State :=
  match c with
  | .session _ => softStamp s .uplinkDaz
  | .station _ => softStamp s .mailboxDaz
  | .program => s

/-- The state in which a request is examined: stamped, and its session's idle time begun again. -/
def asked (s : State) (c : ClientId) : State := stampRequest (touch s c) c

/-- A request of a client: ignored from one that is not there, answered by the engines while CX is down, refused with BUSY before it is
examined, else handled (R65, R70). `away` is what the engines answer in place of CX: readiness words where the request reads nothing
else. -/
def request (s : State) (c : ClientId) (op txn index sub count : Nat) (away : Option (List Byte)) (handle : State → State) : State :=
  if !clientLive s c then s
  else if !s.cxUp then
    match away with
    | some b => respond s c op txn index sub count abOk b
    | none => respond s c op txn index sub count abNotReady []
  else
    let s := asked s c
    if atLimit s c then respond s c op txn index sub count abBusy [] else handle s

/-! Reads (R55 to R58, R68). -/

/-- Why a read is refused (R65). -/
def readCauses (s : State) (index sub : Nat) : List Nat :=
  if sub = 0 && isFirstEntry index then []
  else accessCauses s index sub ++ codeIf ((entryDef s index sub).any fun e => e.acc = .wo) abWriteOnly

/-- Bytes of an entry as a read gives them; nothing is taken from a FIFO. -/
def peek (s : State) (index sub : Nat) : List Byte :=
  match readyBytes s index sub with
  | some b => b
  | none =>
    match exportOf s index sub with
    | some x => exportValue s x
    | none =>
      match entryDef s index sub with
      | some e => encodeVal e.ty (readVal s e index)
      | none => []

/-- Bytes of an entry, with what the read takes away (R306, R462); what is measured is measured anew. -/
def take (s : State) (index sub : Nat) : List Byte × State :=
  let s := { s with freeCtr := s.freeCtr + 1 }
  if 0x7520 ≤ index && index < 0x7530 && sub = 7 then popRecord s (index - 0x7520)
  else if 0x9100 ≤ index && index < 0x9200 && sub = 9 then streamRead s (index - 0x9100)
  else (peek s index sub, s)

/-- A READ (R77). -/
def serveRead (s : State) (c : ClientId) (op txn index sub : Nat) : State :=
  let no := fun (code : Nat) => respond s c op txn index sub 1 code []
  match firstBy ((readCauses s index sub).map fun a => (a, ())) with
  | some a => no a.1
  | none =>
    if (peek s index sub).length > messageLimit c then no abLength
    else
      let r := take s index sub
      respond r.2 c op txn index sub 1 abOk r.1

/-- An element with its value (R77). -/
def elementBytes (index sub : Nat) (data : List Byte) : List Byte := layerRecord index sub data

/-- A READ_MULTI: every value, or a refusal that names the element. -/
def serveReadMulti (s : State) (c : ClientId) (txn : Nat) (list : List (Nat × Nat)) : State :=
  let first := list.headD (0, 0)
  match firstBy (list.flatMap fun p => (readCauses s p.1 p.2).map fun a => (a, p)) with
  | some a => respond s c 0x03 txn a.2.1 a.2.2 list.length a.1 []
  | none =>
    if ((list.map fun p => (elementBytes p.1 p.2 (peek s p.1 p.2)).length).foldl (· + ·) 0) > messageLimit c then
      respond s c 0x03 txn first.1 first.2 list.length abLength []
    else
      let r := list.foldl (fun (r : List Byte × State) p =>
        let x := take r.2 p.1 p.2
        (r.1 ++ elementBytes p.1 p.2 x.1, x.2)) ([], s)
      respond r.2 c 0x03 txn first.1 first.2 list.length abOk r.1

/-- A READ_SEGMENT: a part of the value from an offset. (DEDUCED, notes/assumptions/17.md) -/
def serveReadSegment (s : State) (c : ClientId) (txn index sub off len : Nat) : State :=
  let no := fun (code : Nat) => respond s c 0x05 txn index sub 1 code []
  match firstBy ((readCauses s index sub).map fun a => (a, ())) with
  | some a => no a.1
  | none =>
    if len + 4 > messageLimit c then no abLength
    else if off > (peek s index sub).length then no abRangeHigh
    else
      let r := take s index sub
      respond r.2 c 0x05 txn index sub 1 abOk (leBytes 4 off ++ (r.1.drop off).take len)

/-! Writes (R58 to R65, R78). -/

/-- The kind of action that an apply block asks for (R78). -/
def applyKind (a : Apply) : ActionKind :=
  match a.kind.toNat with
  | 2 => .tb a.n.toNat (ofTbtime a.due.toNat)
  | 3 => .lead a.n.toNat (a.due.toNat % 2 ^ 64)
  | _ => .nextBoundary

/-- Whether the fields of an apply block hold values that R78 lists. -/
def applyGood (a : Apply) : Bool :=
  1 ≤ a.kind.toNat && a.kind.toNat ≤ 3 && a.attr.toNat ≤ 2 && (a.kind = 1 || a.n.toNat < 8) &&
    (a.kind ≠ 2 || bits a.due.toNat 47 16 ≤ 999999999)

/-- Scheduled writes that have not fallen due (R78). -/
def pendingWrites (s : State) : Nat := (s.actions.armed.filter fun a => a.work.who.isSome).length

/-- Why an apply block is refused. (DEDUCED, notes/assumptions/18.md) -/
def applyCauses (s : State) (a : Apply) : List Nat :=
  codeIf (a.rsv ≠ 0) abMalformed ++
    (if applyGood a then
      codeOf_ (actionAbort s (applyKind a) false (if a.kind = 1 then 0 else a.attr.toNat) false) ++
        codeIf (pendingWrites s ≥ 256) abNoResource
     else [abBadValue])

/-- Whether an element acts with fine timing as one action (R114, R291, R408, R436). -/
def isFine (e : Elem) : Bool :=
  (0x7400 ≤ e.index && e.index < 0x7460 && e.sub = 0x0B) || (0x6200 ≤ e.index && e.index < 0x6240 && e.sub = 0x0B) ||
    (0x7300 ≤ e.index && e.index < 0x7320 && e.sub = 3)

def isRwc (s : State) (e : Elem) : Bool := (entryDef s e.index e.sub).any fun d => d.acc = .rwc

/-- What a refusal leaves behind: a past-due action is counted (R125), an enable without room is noted (R381). -/
def noteWriteRefusal (s : State) (code : Nat) (e : Elem) : State :=
  if code = abPastDue then s.bump 0x2050 6
  else if code = abPlacementRefused && 0x4000 ≤ e.index && e.index < 0x5000 then (place s 1 (e.index - 0x4000)).2
  else if code = abNoProfiler && 0x5000 ≤ e.index && e.index < 0x5800 then (place s 2 (e.index - 0x5000)).2
  else s

/-- The elements of a write with the refused one in front, which its answer names (R76). -/
def naming (e : Elem) (elems : List Elem) : List Elem := e :: elems.drop 1

/-- Elements applied in their order, or the first one that refuses by itself, a VERIFY, with its code and the state that it leaves: then no
other element is applied (R78). `last` marks the command record whose take-up answers the request. -/
def applyList (s : State) (o : Origin) (elems : List Elem) (last : Option Elem) : Option (Nat × Elem) × State :=
  let r := elems.foldl (fun (r : Option (Nat × Elem) × State) e =>
    let a := applyAny r.2 { o with direct := o.direct && last = some e } e
    (if r.1.isNone && a.1 ≠ abOk then some (a.1, e) else r.1, a.2)) (none, s)
  match r.1 with
  | none => r
  | some q =>
    let a := applyAny s o q.2
    (some q, if a.1 = abOk then s else a.2)

/-- A write applied as its request completes. -/
def applyDirect (s : State) (op : Nat) (c : ClientId) (txn : Nat) (elems : List Elem) : State :=
  let last := (elems.filter fun e => isCommandRecord e.index e.sub).getLast?
  let r := applyList s ⟨c, txn, op, true, none, false⟩ elems last
  match r.1 with
  | some q => answerDirect r.2 c txn op (naming q.2 elems) q.1
  | none => if last.isSome then r.2 else answerDirect r.2 c txn op elems abOk

/-- What a scheduled write does as it is accepted: an EXCHANGE and an ACTIVATE arm their bank (R354, R489). -/
def holdBanks (s : State) (c : ClientId) (txn : Nat) (elems : List Elem) : State :=
  elems.foldl (fun s e =>
    if e.index = 0x8010 && e.sub = 5 && leNat e.val.octets = 2 then holdExchange s (c, txn)
    else if e.index = 0xC010 && e.sub = 3 && leNat e.val.octets = 2 then holdActivate s
    else s) s

/-- The work of a scheduled write: one fine-timed element against a time base or a Lead fires with its offset. (DEDUCED,
notes/assumptions/113.md) -/
def scheduledWork (a : Apply) (op : Nat) (c : ClientId) (txn : Nat) (elems : List Elem) : Work :=
  match elems with
  | [e] =>
    if a.kind = 1 || !isFine e then .writes c txn op elems
    else if e.index < 0x7000 then .trigger (e.index - 0x6200) (some (c, txn))
    else if e.index < 0x7400 then .fieldEdge (e.index - 0x7300) (leNat e.val.octets = 1) (some (c, txn))
    else .pulse (e.index - 0x7400) (some (c, txn))
  | _ => .writes c txn op elems

/-- A scheduled write is accepted (R78). -/
def acceptScheduled (s : State) (a : Apply) (op : Nat) (c : ClientId) (txn : Nat) (elems : List Elem) : State :=
  let w := scheduledWork a op c txn elems
  let status := if pastDue s (applyKind a) false then (if a.attr = 2 then statNextLap else statLate) else 0
  let s := armAction s (applyKind a) false (if a.kind = 1 then 0 else a.attr.toNat) false w
  let s := holdBanks s c txn elems
  if answeredAtArm w then answerWrite s c txn op elems abOk status else s

/-- The first cause of R65 that refuses a write, with the element it names. `extra` are causes that the message itself has. -/
def writeRefusal (s : State) (c : ClientId) (ap : Option Apply) (elems : List Elem) (extra : List Nat) : Option (Nat × Elem) :=
  let e0 := elems.headD ⟨0, 0, .oct []⟩
  let fine := ap.isNone && elems.any isFine && s.actions.armed.length ≥ 4096
  let own := extra ++ (ap.map (applyCauses s)).getD [] ++ codeIf fine abNoResource
  firstBy (own.map (fun a => (a, e0)) ++ (firstCause s (roleOf s c) elems ap.isNone).toList)

/-- A write that nothing refuses: accepted as scheduled, kept for its line-cycle boundary, or applied. -/
def acceptWrite (s : State) (op : Nat) (c : ClientId) (txn : Nat) (ap : Option Apply) (elems : List Elem) : State :=
  match ap with
  | some a => acceptScheduled s a op c txn elems
  | none =>
    if elems.any (isRwc s) then
      { s with dict := { s.dict with atLc := s.dict.atLc ++ [⟨c, txn, op, elems, s.clock.tick + 2, 0, false⟩] } }
    else applyDirect s op c txn elems

/-- A write: refused whole for the first cause of R65, or accepted. -/
def writeElems (s : State) (op : Nat) (c : ClientId) (txn : Nat) (ap : Option Apply) (elems : List Elem) (extra : List Nat) : State :=
  match writeRefusal s c ap elems extra with
  | some r => respond (noteWriteRefusal s r.1 r.2) c op txn r.2.index r.2.sub (max 1 elems.length) r.1 []
  | none => acceptWrite s op c txn ap elems

/-- Bytes of data that a write of one element takes in a message. -/
def writeLength (ap : Option Apply) (data : List Byte) : Nat := (if ap.isSome then 16 else 0) + data.length

/-- A WRITE of one entry (R77). -/
def serveWrite (s : State) (w : WriteCtx) (index sub : Nat) (data : List Byte) : State :=
  request s w.client 0x02 w.txn.toNat index sub 1 none fun s =>
    writeElems s 0x02 w.client w.txn.toNat w.apply [⟨index, sub, .oct data⟩]
      (codeIf (writeLength w.apply data > messageLimit w.client) abMalformed)

/-! Writes that fall due (R60, R61, R78). -/

/-- Why a write that falls due cannot be applied any more, with the element refused: its function stopped serving (R69), the
Lead's state refuses a resume (R108), or an enable finds its destination or its room gone (R214, R227, R254). (DEDUCED,
notes/assumptions/138.md) -/
def dueAbort (s : State) (elems : List Elem) : Option (Nat × Elem) :=
  firstBy (elems.flatMap fun e =>
    (codeIf (!servesIndex s e.index) abNotReady ++
      (if (0x2040 ≤ e.index && e.index < 0x2048 && e.sub = 0x15) || isEnable e then ownCauses s e.index e.sub e.val.octets false
       else [])).map fun c => (c, e))

/-- The scheduled writes that have come to their boundary, in the order in which they apply (R114, R123). -/
def dueWrites (s : State) : List Due :=
  sortDue (s.actions.due.filter fun d => d.action.work.isWrite && d.boundary ≤ s.clock.tick)

/-- A scheduled write of the present boundary. -/
def boundaryOf (d : Due) : List BoundaryWrite :=
  match d.action.work with
  | .writes c txn op elems => [⟨c, txn, op, elems, d.boundary, d.action.status, true⟩]
  | _ => []

/-- Elements of the writes that apply at one boundary, the earliest first: an RWC value that a later one overwrites is discarded and
counted (R60). -/
def supersede (s : State) : List (Nat × Elem) → List (Nat × Elem) × State
  | [] => ([], s)
  | p :: t =>
    let r := supersede s t
    if isRwc s p.2 && t.any fun q => q.2.index = p.2.index && q.2.sub = p.2.sub then (r.1, r.2.bump 0x1100 7) else (p :: r.1, r.2)

/-- One write of a boundary, of which `kept` are the elements that no later one supersedes: applied and answered, or refused. A refused
command record with an apply block has its answer already (R257). -/
def boundaryWrite (s : State) (w : BoundaryWrite) (kept : List Elem) : State :=
  let told := w.scheduled && answeredAtArm (.writes w.client w.txn w.op w.elems)
  let answer := fun (s : State) (l : List Elem) (code status : Nat) => if told then s else answerWrite s w.client w.txn w.op l code status
  match dueAbort s w.elems with
  | some q => answer s (naming q.2 w.elems) q.1 0
  | none =>
    let r := applyList s ⟨w.client, w.txn, w.op, false, some (s.clock.tick, 0), bit w.status 0⟩ kept none
    match r.1 with
    | some q => answer r.2 (naming q.2 w.elems) q.1 0
    | none => answer r.2 w.elems abOk w.status

/-- Writes that apply at one boundary, in their order. -/
def applyBoundary (s : State) (order : List BoundaryWrite) : State :=
  let idx := (List.range order.length).zip order
  let list := (idx.filter fun p => (dueAbort s p.2.elems).isNone).flatMap fun p => p.2.elems.map fun e => (p.1, e)
  let r := supersede s list
  idx.foldl (fun s p => boundaryWrite s p.2 ((r.1.filter fun q => q.1 = p.1).map (·.2))) r.2

/-- The scheduled writes of the present boundary leave the table and apply together (R123). -/
def applyDue (s : State) (direct : List BoundaryWrite) (l : List Due) : State :=
  applyBoundary { s with actions := { s.actions with due := s.actions.due.filter fun d => !l.contains d } } (direct ++ l.flatMap boundaryOf)

/-- Whether an element is an ACTIVATE, or a mode request: changes of a layer, which come before the step changes of their boundary
(R494). -/
def isActivate (e : Elem) : Bool := e.index = 0xC010 && e.sub = 3
def isModeRequest (e : Elem) : Bool := e.index = 0xC000 && e.sub = 1

/-- The scheduled writes of the present boundary that hold an element of a kind apply before the others; those with an RWC element
only where `rwc` says that the boundary opens a line cycle. -/
def applyFirst (s : State) (p : Elem → Bool) (rwc : Bool) : State :=
  applyDue s [] ((dueWrites s).filter fun d => (boundaryOf d).any fun w => w.elems.any p && (rwc || !w.elems.any (isRwc s)))

/-- A scheduled write of a client comes to its boundary, and with it every other one of that boundary, in the order of R494 (R61, R123). At a tick that opens a line cycle they wait for the overlay changes of its boundary, and one with an RWC element waits for a
line-cycle boundary (R58, R60). -/
def scheduledDue (s : State) (c : ClientId) (txn : Nat) : State :=
  if !s.cxUp || lcAhead s || !((dueWrites s).any fun d => d.action.work.who = some (c, txn)) then s
  else
    let s := stepEndsDue (applyFirst (applyFirst s isActivate false) isModeRequest false)
    applyDue s [] ((dueWrites s).filter fun d => !((boundaryOf d).any fun w => w.elems.any (isRwc s)))

/-- Dictionary writes at a line-cycle boundary (R60, R78): scheduled ones overwrite direct ones (R80). (DEDUCED,
notes/assumptions/13.md) -/
def boundaryWrites (s : State) : State :=
  let direct := s.dict.atLc.filter fun w => w.from_ ≤ s.clock.tick
  let s := { s with dict := { s.dict with atLc := s.dict.atLc.filter fun w => !(w.from_ ≤ s.clock.tick) } }
  applyDue s direct (dueWrites s)

/-- The overlay changes and dictionary writes of a line-cycle boundary in the order of R494. -/
def layersAtLc (s : State) : State :=
  let s := applyFirst (activateAtLc s) isActivate true
  let s := applyFirst (modeAtLc s) isModeRequest true
  conditionsAtLc (boundaryWrites (stepsAtLc s))

/-! Actions that are no dictionary writes (R113, R114, R119). -/

/-- A REPEAT action that fired late is armed again at the first lap beyond its target that is not past due (R119). -/
def rearmLate (s : State) (a : Action) : State :=
  match a.kind with
  | .lead n t =>
    if a.repeats && bit a.status 0 then
      let laps := max 1 (if pastDue s a.kind a.backward then lapsToMove s n t a.backward else 0)
      keepArmed s { a with kind := .lead n (moveLaps t laps a.backward), status := 0, accepted := s.clock.tick, laps := 0 }
    else s
  | _ => s

/-- What an action does as it fires. -/
def fireWork (s : State) (d : Due) : State :=
  match d.action.work with
  | .taskRelease i => taskAction s i d.action.kind d.action.status d.offset
  | .trigger t _ => answerWork (triggerByAction s t d.tick d.offset) d.action.work abOk ((s.tb 0).val + d.offset * 2 ^ 32) d.action.status
  | .pps level => ppsEdge s level d.action.kind d.tick d.offset
  | .pulse ch _ => answerWork (firePulse s ch (d.tick * 2500 + nsToPwm d.offset)) d.action.work abOk ((s.tb 0).val + d.offset * 2 ^ 32) d.action.status
  | _ => s

/-- Whether an action fires through ACTION_FIRE: scheduled writes, step ends and field edges have their own commands. -/
def firesHere (w : Work) : Bool :=
  match w with
  | .taskRelease _ | .trigger _ _ | .pps _ | .pulse _ _ => true
  | _ => false

/-- An action fires (R114). A task release is tick-aligned; the others fire in the tick of their crossing. -/
def fireAction (s : State) (id : Nat) : State :=
  match s.actions.due.find? fun d => d.action.id = id && firesHere d.action.work &&
      (match d.action.work with
       | .taskRelease _ => d.boundary
       | _ => d.tick) ≤ s.clock.tick with
  | none => s
  | some d =>
    let s := { s with actions := { s.actions with due := s.actions.due.filter fun x => x ≠ d } }
    rearmLate (fireWork s d) d.action

/-! CANCEL (R77, R78, R354). -/

/-- A pending scheduled write of a client that can still be withdrawn. -/
def cancellable (s : State) (c : ClientId) (txn : Nat) : Option Action :=
  match s.actions.armed.find? fun a => a.work.who = some (c, txn) with
  | some a => some a
  | none => (s.actions.due.find? fun d => d.action.work.who = some (c, txn) && d.tick > s.clock.tick + 1).map (·.action)

/-- The banks of a withdrawn EXCHANGE or ACTIVATE return to PREPARED. -/
def dropBanks (s : State) (w : Work) : State :=
  match w with
  | .writes _ _ _ elems => elems.foldl (fun s e =>
      if e.index = 0x8010 && e.sub = 5 && leNat e.val.octets = 2 then cancelExchange s
      else if e.index = 0xC010 && e.sub = 3 && leNat e.val.octets = 2 then dropActivate s
      else s) s
  | _ => s

/-- A CANCEL. (DESIGN CHOICE, notes/assumptions/156.md) -/
def serveCancel (s : State) (c : ClientId) (txn index sub target : Nat) : State :=
  let done := fun (s : State) => respond s c 0x09 txn index sub 1 abOk []
  match s.dict.watches.find? fun w => w.client = c && w.txn = target with
  | some w => done { s with dict := { s.dict with watches := s.dict.watches.filter fun x => x ≠ w } }
  | none =>
    match cancellable s c target with
    | some a =>
      let s := { s with actions := { s.actions with armed := s.actions.armed.filter (fun x => x.id ≠ a.id),
                                                    due := s.actions.due.filter (fun d => d.action.id ≠ a.id) } }
      let s := dropBanks s a.work
      done (if answeredAtArm a.work then s else answerWork s a.work abCancelled 0 0)
    | none =>
      if s.prog.xst = bkArmed && s.prog.xWho = some (c, target) then done (cancelExchange s)
      else respond s c 0x09 txn index sub 1 abNoTransaction []

/-! Segmented writes (R79). -/

/-- Causes of a segment that come before its bytes are complete. -/
def segmentCauses (s : State) (c : ClientId) (index sub off : Nat) (sofar bytes : List Byte) : List Nat :=
  let held := s.dict.transfers.any fun t => t.index = index && t.sub = sub && t.client ≠ c
  let early := [abNoEntry, abNoSub, abNotReady, abDenied, abUndeclared, abReadOnly, abLocked]
  (writeCauses s (roleOf s c) index sub (sofar ++ bytes) true).filter early.contains ++
    codeIf (s.dict.abandoned.contains (c, index, sub)) abTimeout ++ codeIf held abBusy ++
    codeIf (off ≠ sofar.length) abSequence ++
    codeIf ((entryDef s index sub).any fun e => (sofar ++ bytes).length > e.ty.capacity) abLength

/-- What the first segment of an image does to its bank. -/
def firstSegment (s : State) (index sub : Nat) : State :=
  if index = 0x8010 && sub = 3 then bankSegment s
  else if index = 0xC010 && sub = 1 then configSegment s
  else if index = 0xB030 && sub = 1 then firmwareSegment s
  else s

def dropTransfer (s : State) (index sub : Nat) : State :=
  { s with dict := { s.dict with transfers := s.dict.transfers.filter fun t => !(t.index = index && t.sub = sub) } }

/-- A segment; the LAST one writes the entry. (DEDUCED, notes/assumptions/19.md) -/
def serveSegment (s : State) (c : ClientId) (txn index sub off : Nat) (bytes : List Byte) (last : Bool) : State :=
  let mine := s.dict.transfers.find? fun t => t.index = index && t.sub = sub && t.client = c
  let sofar := (mine.map (·.bytes)).getD []
  let all := sofar ++ bytes
  match firstBy ((segmentCauses s c index sub off sofar bytes).map fun a => (a, ())) with
  | some a =>
    let s := if a.1 = abTimeout then
        { s with dict := { s.dict with abandoned := s.dict.abandoned.filter fun t => t ≠ (c, index, sub) } }
      else if a.1 = abLength && mine.isSome then dropTransfer s index sub else s
    respond s c 0x06 txn index sub 1 a.1 []
  | none =>
    let s := if mine.isNone then firstSegment s index sub else s
    let s := dropTransfer s index sub
    if last then writeElems s 0x06 c txn none [⟨index, sub, .oct all⟩] []
    else
      let s := { s with dict := { s.dict with transfers := s.dict.transfers ++ [⟨c, index, sub, all, s.clock.timClk⟩] } }
      respond s c 0x06 txn index sub 1 abOk []

/-- A segmented write without a segment for more than 10 s is abandoned (R74). -/
def segmentTimeout (s : State) (c : ClientId) (index sub : Nat) : State :=
  match s.dict.transfers.find? fun t => t.client = c && t.index = index && t.sub = sub with
  | some t =>
    if s.clock.timClk > t.last + wallSec 10 then
      let s := dropTransfer s index sub
      { s with dict := { s.dict with abandoned := s.dict.abandoned ++ [(c, index, sub)] } }
    else s
  | none => s

/-! INFO (R571). -/

/-- A number of thousandths as binary32. -/
def thousandths32 (e : Int) : Nat :=
  if e = 0 then 0
  else
    let m := e.natAbs
    let l : Int := (Nat.log2 (m * 2 ^ 200 / 1000) : Int) - 200
    let k := 23 - l
    let mant := (if 0 ≤ k then rneDiv ((m : Int) * 2 ^ k.toNat) 1000 else rneDiv m (1000 * 2 ^ (-k).toNat)).toNat
    let up := mant = 2 ^ 24
    (if e < 0 then 2 ^ 31 else 0) + ((l + 127).toNat + b2n up) * 2 ^ 23 + (if up then 0 else mant - 2 ^ 23)

/-- Bytes of a range end as the type encodes it. -/
def endBytes (t : Ty) (e : Int) : List Byte :=
  match t with
  | .real32 => leBytes 4 (thousandths32 e)
  | .real64 => leBytes 8 (F64.toBits ((F64.ofInt e).div (F64.ofInt 1000)))
  | t => leBytes t.capacity (ofSigned (8 * t.capacity) e)

/-- The extremes of a type without a range. -/
def typeEnds (t : Ty) : List Byte × List Byte :=
  let n := t.capacity
  match t with
  | .bool => (leBytes 1 0, leBytes 1 1)
  | .real32 => (leBytes 4 0xFF7FFFFF, leBytes 4 0x7F7FFFFF)
  | .real64 => (leBytes 8 0xFFEFFFFFFFFFFFFF, leBytes 8 0x7FEFFFFFFFFFFFFF)
  | .bfp => (leBytes 8 0x7F80000000, leBytes 8 0x7F7FFFFFFF)
  | t => if t.signed then (leBytes n (2 ^ (8 * n - 1)), leBytes n (2 ^ (8 * n - 1) - 1)) else (leBytes n 0, leBytes n (2 ^ (8 * n) - 1))

/-- Smallest and largest accepted value of an entry of fixed size. A BFP range has only the lower end "above 0". -/
def infoEnds (e : Entry) : List Byte × List Byte :=
  let t := typeEnds e.ty
  if e.ty = .bfp then (if e.lo.isSome then (leBytes 8 0x8140000000, t.2) else t)
  else
    let lo := e.lo.map fun l => e.also.foldl min l
    let hi := e.hi.map fun h => e.also.foldl max h
    ((lo.map (endBytes e.ty)).getD t.1, (hi.map (endBytes e.ty)).getD t.2)

def padFour (b : List Byte) : List Byte := b ++ List.replicate ((b.length + 3) / 4 * 4 - b.length) 0

/-- The default of an entry as INFO reports it; none for "—". (DESIGN CHOICE, notes/assumptions/158.md) -/
def infoDefault (s : State) (index sub : Nat) (e : Entry) : Option Val :=
  match exportOf s index sub with
  | some x => some (if (e.ty.size).isSome then .num (leNat x.init) else .oct x.init)
  | none => if e.dflt.isSome then some (defaultVal index sub) else if e.fromCfg then some (.num 0) else none

/-- The highest subindex defined in an entry, exported variables among them. -/
def infoHighest (s : State) (index : Nat) : Nat :=
  if 0x8800 ≤ index && index ≤ 0x8FFF then
    (((imageOf s).exports.filter fun x => x.index = index).map (·.sub)).foldl max 0
  else highestSub index

/-- The INFO record. (DEDUCED, notes/assumptions/109.md) -/
def infoRecord (s : State) (index sub : Nat) (e : Entry) : List Byte :=
  let acc := match e.acc with
    | .ro => 0
    | .rw => 1
    | .wo => 2
    | .rwc => 3
  let d := infoDefault s index sub e
  let head := leBytes 1 e.ty.code ++ leBytes 1 acc ++ leBytes 1 (if e.operate then 0 else 1) ++ leBytes 1 (infoHighest s index) ++
    leBytes 1 (b2n d.isNone) ++ leBytes 3 0 ++ leBytes 4 e.ty.capacity
  match e.ty.size with
  | some n =>
    let ends := infoEnds e
    head ++ padFour (leBytes n ((d.map (·.toNat)).getD 0)) ++ padFour ends.1 ++ padFour ends.2
  | none =>
    let text := ((d.map (·.octets)).getD []).reverse
    let len := match e.ty with
      | .string _ => (text.dropWhile fun b => b = 0).length
      | _ => text.length
    head ++ leBytes 4 len ++ leBytes 4 e.minLen ++ leBytes 4 e.ty.capacity

/-- (DEDUCED, notes/assumptions/15.md) -/
def serveInfo (s : State) (c : ClientId) (txn index sub : Nat) : State :=
  match firstBy ((accessCauses s index sub).map fun a => (a, ())) with
  | some a => respond s c 0x07 txn index sub 1 a.1 []
  | none =>
    match entryDef s index sub with
    | some e => respond s c 0x07 txn index sub 1 abOk (infoRecord s index sub e)
    | none => respond s c 0x07 txn index sub 1 abNoSub []

/-! Watches (R80). -/

def watchLimit : ClientId → Nat
  | .station _ => 16
  | _ => 256

/-- (DESIGN CHOICE, notes/assumptions/154.md) -/
def serveWatch (s : State) (c : ClientId) (txn index sub : Nat) : State :=
  let full := (s.dict.watches.filter fun w => w.client = c).length ≥ watchLimit c
  match firstBy ((readCauses s index sub ++ codeIf ((peek s index sub).length > messageLimit c) abLength ++
      codeIf full abNoResource).map fun a => (a, ())) with
  | some a => respond s c 0x08 txn index sub 1 a.1 []
  | none =>
    let s := { s with freeCtr := s.freeCtr + 1 }
    let v := peek s index sub
    let s := { s with dict := { s.dict with watches := s.dict.watches ++ [⟨c, txn, index, sub, v⟩] } }
    respond s c 0x08 txn index sub 1 abOk v

def notify (s : State) (w : Watch) (abort : Nat) (data : List Byte) : State :=
  if hears s w.client then s.emit (.notice w.client w.txn w.index w.sub abort data) else s

/-- Why a watch ends by itself: its function stopped serving, or the exported variable it watches is gone. -/
def watchEnds (s : State) (w : Watch) : Option Nat :=
  if w.sub = 0 && isFirstEntry w.index then none
  else if !servesIndex s w.index then some abNotReady
  else if 0x8800 ≤ w.index && w.index ≤ 0x8FFF && (exportOf s w.index w.sub).isNone then some abNoEntry
  else none

/-- Watches that end by themselves send one notification first. -/
def endedWatches (s : State) : State :=
  if s.dict.watches.isEmpty || !s.cxUp then s
  else
    let gone := s.dict.watches.filter fun w => (watchEnds s w).isSome
    let s := gone.foldl (fun s w => notify s w ((watchEnds s w).getD 0) []) s
    { s with dict := { s.dict with watches := s.dict.watches.filter fun w => (watchEnds s w).isNone } }

/-- Every watched entry is compared at a line-cycle boundary. -/
def watchesAtLc (s : State) : State :=
  if s.dict.watches.isEmpty || !s.cxUp then s
  else
    let s := { s with freeCtr := s.freeCtr + 1 }
    let list := s.dict.watches
    let s := { s with dict := { s.dict with watches := list.map fun w => { w with last := peek s w.index w.sub } } }
    list.foldl (fun s w => if peek s w.index w.sub = w.last then s else notify s w abOk (peek s w.index w.sub)) s

/-! Sessions (R73, R82) and stations that are lost (R80, R169). -/

/-- A session ends: its watches and segmented transfers with it. -/
def endSession (s : State) (n : Nat) : State :=
  let mine := fun (c : ClientId) => match c with
    | .session k => k.val = n
    | _ => false
  { s with dict := { s.dict with sessions := setAt s.dict.sessions n none,
                                 watches := s.dict.watches.filter (fun w => !mine w.client),
                                 transfers := s.dict.transfers.filter (fun t => !mine t.client),
                                 abandoned := s.dict.abandoned.filter (fun t => !mine t.1) } }

/-- A TLS handshake on an uplink. Without a base configuration a client comes in with role ENGINEER (R515). (DEDUCED,
notes/assumptions/21.md) -/
def openSession (s : State) (uplink : Nat) (chainGood : Bool) (roles : List Role) : State :=
  if !(s.on && s.cxUp && s.serves 0 && bit (s.rn 0x1100 6) uplink) then s
  else
    let role := if s.lay.base.isNone then some Role.engineer else match roles with
      | [r] => some r
      | _ => none
    let inUse := fun (n : Nat) => (getAt none s.dict.sessions n).isSome
    let openNow := ((List.range 16).filter inUse).length
    match role, (List.range 16).find? fun n => !inUse n with
    | some r, some n =>
      if chainGood && openNow < s.rn 0x1100 2 then
        { s with dict := { s.dict with sessions := setAt s.dict.sessions n (some ⟨uplink, r, s.clock.timClk⟩) } }
      else s.bump 0x1100 5
    | _, _ => s.bump 0x1100 5

/-- A session without a request for the idle timeout closes (R73). -/
def idleSession (s : State) (n : Fin 16) : State :=
  match getAt none s.dict.sessions n.val with
  | some x =>
    if s.clock.timClk ≥ x.lastRequest + wallSec (s.rn 0x1100 3) then (endSession s n.val).emit (.closed (.session n)) else s
  | none => s

/-- What a LOST station had pending is discarded. -/
def dropStation (s : State) (a : Nat) : State :=
  let mine := fun (c : ClientId) => match c with
    | .station k => k.val = a
    | _ => false
  let pends := fun (w : Work) => (w.who.map fun q => mine q.1).getD false
  let kept := s.actions.due.filter fun d => !(d.action.work.isWrite && pends d.action.work)
  let s := (s.actions.armed.filter fun x => pends x.work).foldl (fun s x => dropBanks s x.work) s
  { s with dict := { s.dict with watches := s.dict.watches.filter (fun w => !mine w.client),
                                 transfers := s.dict.transfers.filter (fun t => !mine t.client),
                                 abandoned := s.dict.abandoned.filter (fun t => !mine t.1),
                                 atLc := s.dict.atLc.filter (fun w => !mine w.client) },
           actions := { s.actions with armed := s.actions.armed.filter (fun x => !pends x.work), due := kept } }

/-- Stations that became LOST in a step. -/
def lostStations (old s : State) : State :=
  s.stations.foldl (fun s p => if p.2.st = stLost && (old.station p.1).st ≠ stLost then dropStation s p.1 else s) s

/-! DAZ messages (R76 to R78). -/

/-- Whether the header of a request is well formed: LENGTH as the message has it, reserved fields 0, COUNT 1 to 64. (DEDUCED,
notes/assumptions/16.md) -/
def headerGood (c : ClientId) (m : DazMsg) : Bool :=
  m.flags.toNat < 4 && m.abort = 0 && m.reserved = 0 && 1 ≤ m.count.toNat && m.count.toNat ≤ 64 && m.length.toNat = m.data.length &&
    m.data.length ≤ messageLimit c

def lastFlag (m : DazMsg) : Bool := bit m.flags.toNat 0
def schedFlag (m : DazMsg) : Bool := bit m.flags.toNat 1

/-- The apply block at the head of the data. -/
def applyOf (b : List Byte) : Apply :=
  ⟨b.getD 0 0, b.getD 1 0, b.getD 2 0, b.getD 3 0, BitVec.ofNat 96 (leNat (slice b 4 12))⟩

/-- n elements with values; none where the bytes do not hold exactly them (R77). -/
def takeElems : Nat → List Byte → Option (List Elem)
  | 0, b => if b.isEmpty then some [] else none
  | n + 1, b =>
    let len := leNat (slice b 4 4)
    let whole := 8 + (len + 3) / 4 * 4
    if b.length < whole || leNat (slice b 3 1) ≠ 0 then none
    else (takeElems n (b.drop whole)).map fun t => ⟨leNat (slice b 0 2), leNat (slice b 2 1), .oct (slice b 8 len)⟩ :: t

/-- n element descriptors. (DESIGN CHOICE, notes/assumptions/157.md) -/
def takeDescs : Nat → List Byte → List (Nat × Nat)
  | 0, _ => []
  | n + 1, b => (leNat (slice b 0 2), leNat (slice b 2 1)) :: takeDescs n (b.drop 8)

/-- A request whose message is examined: MALFORMED where `good` fails, else handled. -/
def dazRequest (s : State) (c : ClientId) (op : Nat) (m : DazMsg) (away : Option (List Byte)) (good : Bool) (handle : State → State) : State :=
  request s c op m.txn.toNat m.index.toNat m.sub.toNat m.count.toNat away fun s =>
    if headerGood c m && good then handle s
    else respond s c op m.txn.toNat m.index.toNat m.sub.toNat m.count.toNat abMalformed []

def dazRead (s : State) (c : ClientId) (m : DazMsg) : State :=
  dazRequest s c 0x01 m (readyBytes s m.index.toNat m.sub.toNat) (m.data.isEmpty && m.count = 1 && !schedFlag m) fun s =>
    serveRead s c 0x01 m.txn.toNat m.index.toNat m.sub.toNat

def dazWrite (s : State) (c : ClientId) (m : DazMsg) : State :=
  dazRequest s c 0x02 m none (m.count = 1 && (!schedFlag m || m.data.length ≥ 16)) fun s =>
    let ap := if schedFlag m then some (applyOf m.data) else none
    writeElems s 0x02 c m.txn.toNat ap [⟨m.index.toNat, m.sub.toNat, .oct (if schedFlag m then m.data.drop 16 else m.data)⟩] []

def dazReadMulti (s : State) (c : ClientId) (m : DazMsg) : State :=
  let list := takeDescs m.count.toNat m.data
  let away := if list.all fun p => (readyBytes s p.1 p.2).isSome then
      some (list.flatMap fun p => elementBytes p.1 p.2 ((readyBytes s p.1 p.2).getD [])) else none
  dazRequest s c 0x03 m away (m.data.length = 8 * m.count.toNat && !schedFlag m && list.headD (0, 0) = (m.index.toNat, m.sub.toNat) &&
      (List.range m.count.toNat).all fun k => leNat (slice m.data (8 * k + 3) 1) = 0) fun s =>
    serveReadMulti s c m.txn.toNat list

def dazWriteMulti (s : State) (c : ClientId) (m : DazMsg) : State :=
  let body := if schedFlag m then m.data.drop 16 else m.data
  let elems := takeElems m.count.toNat body
  let head := (elems.bind (·.head?)).map fun e => (e.index, e.sub)
  dazRequest s c 0x04 m none ((!schedFlag m || m.data.length ≥ 16) && head = some (m.index.toNat, m.sub.toNat)) fun s =>
    writeElems s 0x04 c m.txn.toNat (if schedFlag m then some (applyOf m.data) else none) (elems.getD []) []

def dazReadSegment (s : State) (c : ClientId) (m : DazMsg) : State :=
  let off := leNat (slice m.data 0 4)
  let away := (readyBytes s m.index.toNat m.sub.toNat).map fun b => leBytes 4 off ++ (b.drop off).take (leNat (slice m.data 4 4))
  dazRequest s c 0x05 m away (m.data.length = 8 && m.count = 1 && !schedFlag m) fun s =>
    serveReadSegment s c m.txn.toNat m.index.toNat m.sub.toNat off (leNat (slice m.data 4 4))

/-- A WRITE_SEGMENT of a given entry. -/
def segmentOf (s : State) (c : ClientId) (m : DazMsg) (index sub : Nat) : State :=
  let m := { m with index := BitVec.ofNat 16 index, sub := BitVec.ofNat 8 sub }
  dazRequest s c 0x06 m none (m.data.length ≥ 4 && m.count = 1 && !schedFlag m) fun s =>
    serveSegment s c m.txn.toNat index sub (leNat (slice m.data 0 4)) (m.data.drop 4) (lastFlag m)

def dazInfo (s : State) (c : ClientId) (m : DazMsg) : State :=
  dazRequest s c 0x07 m none (m.data.isEmpty && m.count = 1 && !schedFlag m) fun s =>
    serveInfo s c m.txn.toNat m.index.toNat m.sub.toNat

def dazWatch (s : State) (c : ClientId) (m : DazMsg) : State :=
  dazRequest s c 0x08 m none (m.data.isEmpty && m.count = 1 && !schedFlag m) fun s =>
    serveWatch s c m.txn.toNat m.index.toNat m.sub.toNat

def dazCancel (s : State) (c : ClientId) (m : DazMsg) : State :=
  dazRequest s c 0x09 m none (m.data.length = 2 && m.count = 1 && !schedFlag m) fun s =>
    serveCancel s c m.txn.toNat m.index.toNat m.sub.toNat (leNat m.data)

/-! Requests that come in through a station's mailbox (R81, R143). -/

/-- Header fields and data of a message (R76). -/
def messageOf (b : List Byte) : DazMsg :=
  let w := fun (n off : Nat) => leNat (slice b off n)
  ⟨slice b 1 1 |>.headD 0, BitVec.ofNat 16 (w 2 2), BitVec.ofNat 16 (w 2 4), BitVec.ofNat 8 (w 1 6), BitVec.ofNat 8 (w 1 7),
    BitVec.ofNat 32 (w 4 8), BitVec.ofNat 16 (w 2 12), BitVec.ofNat 16 (w 2 14), b.drop 16⟩

/-- A request by its opcode; an unknown one, or a message too short for its header, is MALFORMED (R74). -/
def dazDispatch (s : State) (c : ClientId) (op : Nat) (m : DazMsg) : State :=
  match op with
  | 1 => dazRead s c m
  | 2 => dazWrite s c m
  | 3 => dazReadMulti s c m
  | 4 => dazWriteMulti s c m
  | 5 => dazReadSegment s c m
  | 6 => segmentOf s c m m.index.toNat m.sub.toNat
  | 7 => dazInfo s c m
  | 8 => dazWatch s c m
  | 9 => dazCancel s c m
  | _ => request s c op m.txn.toNat m.index.toNat m.sub.toNat m.count.toNat none fun s =>
      respond s c op m.txn.toNat m.index.toNat m.sub.toNat m.count.toNat abMalformed []

/-- The messages that station a completed reach the dictionary server in their order. (DESIGN CHOICE, notes/assumptions/139.md) -/
def serveMail (s : State) (a : Nat) : State :=
  if h : a < 2048 then
    let l := (s.station a).mbxMsgs
    l.foldl (fun s b => dazDispatch s (.station ⟨a, h⟩) (leNat (slice b 0 1)) (messageOf b))
      (s.setStation a { s.station a with mbxMsgs := [] })
  else s

/-- Every message that the stations of ring k have completed. -/
def serveMails (s : State) (k : Nat) : State :=
  s.stations.foldl (fun s p => if p.1 / 512 = k && !p.2.mbxMsgs.isEmpty then serveMail s p.1 else s) s

end Sys2Proof.Machine
end

