-- ==== Sys2Proof/Machine/Settle.lean ====
section
/-! DEFINITION. What surrounds every command: the base tick, the line-cycle boundary, and what follows from a changed state at once. -/

namespace Sys2Proof.Machine

/-! What follows from a changed state (R43, R80, R178, R377, R455, R472, R500). -/

/-- The 16-byte Rein field as an EVENT record carries it (R144, R455); no rule states its REIN_SEQ there. -/
def eventRein (s : State) : List Byte × State :=
  let f := s.free
  let b := leBytes 2 s.rein.pins ++ leBytes 8 (s.rn 0x3018 2) ++ leBytes 1 (f.1 % 256) ++ [0]
  (b ++ leBytes 4 (crc32 b).toNat, f.2)

/-- EVENT records of changed channels, axes, stations, Rein bits and program states (R455). -/
def recordEvents (old s : State) : State :=
  let s := s.chans.foldl (fun s p => recordChanEvent old s p.1) s
  let s := s.axes.foldl (fun s p => recordAxisEvent old s p.1) s
  let s := s.stations.foldl (fun s p => recordStationEvent old s p.1) s
  let s := if s.rein.pins ≠ old.rein.pins || s.rn 0x3018 2 ≠ old.rn 0x3018 2 then
      let r := eventRein s
      r.2.event 2 0 r.1
    else s
  if s.rn 0x8000 1 ≠ old.rn 0x8000 1 || s.rn 0x8000 2 ≠ old.rn 0x8000 2 then
    s.event 6 0 (leBytes 1 (s.rn 0x8000 1) ++ leBytes 1 (s.rn 0x8000 2))
  else s

/-- The Hobble hardware keeps A_k ≤ B_k on every ring (R178): NB's grant ends where NA's begins. -/
def keepBounds (s : State) : State :=
  let n := ringN s
  let na := (List.range 4).foldl (fun (m : Map Nat) k => setAt m k (min (getAt 0 m k) (n k))) s.na.held
  let nb := (List.range 4).foldl (fun (m : Map Nat) k => setAt m k (min (getAt 0 m k) (n k - getAt 0 na k))) s.nb.held
  driveRails (driveRails { s with na := { s.na with held := na }, nb := { s.nb with held := nb } } .na) .nb

/-- Everything that follows from a changed state, in its order. -/
def reactions (old s : State) : State :=
  let s := coreReactions (coreItems old (retiredCores old (ostlerSettle old s)))
  let s := endedWatches (lostStations old s)
  let s := noteSeqReins (noteConfig old s)
  keepBounds (recordEvents old s)

/-- The parts of a state that reactions reach, taken from `r`: registers, the dictionary server, armed actions, the engines' bounds
with their rails, what Henvy sends, the flags of a Rein change, traces, tasks, the program, the scheduler, the Ostler, the layers, the recorder, what is sent and the counter of free
values; with a queue. Every other part stays as in `s`. -/
def State.adopt (s r : State) (queue : List Instr) : State :=
  { s with regs := r.regs, dict := r.dict, actions := r.actions,
           na := { s.na with held := r.na.held, rails := r.na.rails }, nb := { s.nb with held := r.nb.held, rails := r.nb.rails },
           henvy := { s.henvy with stopSeq := r.henvy.stopSeq }, uplinks := r.uplinks, prp := { s.prp with seq := r.prp.seq },
           rein := { s.rein with changed := r.rein.changed }, coast := { s.coast with stopAll := r.coast.stopAll },
           traces := r.traces, tasks := r.tasks, prog := r.prog, sched := r.sched, ost := r.ost, lay := r.lay, rcd := r.rcd, sent := r.sent,
           freeCtr := r.freeCtr, pending := queue }

/-- The state after a command: its own effect, and what follows from it. (DEDUCED, notes/assumptions/115.md; DESIGN CHOICE,
notes/assumptions/116.md) -/
def settle (old s : State) : State := s.adopt (reactions old s) old.pending

/-- A command: its effect, and what follows from it. -/
def run (f : State → State) (s : State) : Host.Outcome State Fault Refusal := .next (settle s (f s))

/-! Guards. -/

/-- Whether base ticks run: from the end of start-up step 3 (R512). -/
def ticking (s : State) : Bool := s.on && !s.health.bootRom && (s.health.step = 0 || s.health.step ≥ 4)

/-- An event of a die that runs. (DEDUCED, notes/assumptions/114.md) -/
def whenOn (f : State → State) (s : State) : State := if s.on then f s else s

/-- An event of CX. -/
def whenCx (f : State → State) (s : State) : State := if s.on && s.cxUp then f s else s

/-- An event of AX. -/
def whenAx (f : State → State) (s : State) : State := if s.on && s.axUp then f s else s

/-- An event of a function that serves. -/
def whenServes (k : Nat) (f : State → State) (s : State) : State := if s.on && s.cxUp && s.serves k then f s else s

/-! The base tick (R83 to R85, R101, R115, R234). -/

/-- TIM clocks pass: the time bases run, with them the Paddock clock and the hours of operation (R89, OD B000:06, R538). (DESIGN
CHOICE, notes/assumptions/123.md) -/
def passTime (s : State) (n : Nat) : State :=
  let was := s.clock.timClk
  let clk := was + n
  let s := { s with tbs := mapVals (fun _ (t : TimeBase) => t.run n) s.tbs, clock := { s.clock with timClk := clk } }
  let ticks := fun (c : Nat) => c * 32768 / 250000000
  let s := { s with paddock := { s.paddock with clock := s.paddock.clock + (ticks clk - ticks was) } }
  if clk / wallSec 3600 = was / wallSec 3600 then s else s.bump 0xB000 6

/-- The time bases are latched at the boundary (R96, R115). -/
def tbsAtTick (s : State) : State := { s with tbs := mapVals (fun _ (t : TimeBase) => { t with atTick := t.val }) s.tbs }

/-- The flywheel copies of CX, NA, NB and FX at a boundary (R33): corrected by a good tick link, else run on at the rates last
corrected. -/
def flyTick (s : State) : State :=
  let one := fun (m : Map Flywheel) (p : Nat × Link) =>
    let x := getAt (⟨0, []⟩ : Flywheel) m p.1
    if s.axUp && s.linkGood p.2 then
      setAt m p.1 ⟨s.clock.tick, (List.range 8).map fun n => ((s.tb n).val, (s.tb n).inc)⟩
    else setAt m p.1 ⟨(x.tick + 1) % 2 ^ 64, x.tbs.map fun q => ((q.1 + tickUnits * q.2 / nominalInc) % tbModulus, q.2)⟩
  { s with clock := { s.clock with fly := [(1, Link.tickCx), (2, .tickNa), (3, .tickNb), (5, .tickFx)].foldl one s.clock.fly } }

/-- What AX does at a boundary before the units: Leads and the comparison of actions. -/
def axLeads (s : State) : State :=
  let s := applyJumps (forNums 8 s formLead)
  let s := coastJumps s
  if s.axUp then compareActions s else s

/-- What CX does at a boundary: pickup, commits of idle channels, outputs and setpoints that come into force. -/
def cxTick (s : State) : State :=
  if !s.cxUp then s else setpointsInForce (outputsInForce (idleCommits (pickup s)))

/-- What AX and FX do at a boundary. -/
def axTick (s : State) : State :=
  let s := if s.axUp then forNums 96 s ainTick else s
  let s := fieldTick (localTicks s)
  if s.health.shut then s else forNums 16 s fun s o => aoutLoad s o (ownsAout s o)

/-- What CX does at a boundary once inputs and outputs stand: stream FIFOs, tasks, records. -/
def cxRecords (old s : State) : State :=
  if !s.cxUp then s else recordBoundary old (tasksAtTick (drainFifos (streamTraces s)))

/-- BASE_TICK_BOUNDARY. -/
def baseTick (s : State) : State :=
  if !ticking s then s
  else
    let t := passTime s (timClocksToTick s.tickTb)
    let t := { t with clock := { t.clock with tick := t.tickTb.val / tickUnits % 2 ^ 64 } }
    let t := flyTick (tbsAtTick (applyModes t))
    let t := axTick (cxTick (softAtTick (axLeads t)))
    linksAtTick (busTick (refAtTick (cxRecords s t)))

/-! The line-cycle boundary (R60, R87, R133 to R135, R152, R494). -/

/-- STATION_IN records of the inputs consumed (R453, R455). -/
def recordStationsIn (s : State) : State :=
  s.stations.foldl (fun s p =>
    if p.2.st = stResync || p.2.st = stOperational then
      s.record 2 p.1 s.clock.tick 0 (leBytes 2 (p.2.st + b2n p.2.stale * 16 + b2n p.2.late * 32) ++
        slice p.2.inputs 0 (s.rn (stIdx p.1) 6))
    else s) s

/-- STATION_OUT records of the outputs latched (R453, R455). -/
def recordStationsOut (s : State) (c : Nat) : State :=
  forNums 4 s fun s k =>
    if (s.ring k).st ≠ rgRunning then s
    else (s.ring k).layout.foldl (fun s p =>
      let x := s.station p.1
      let ov : Bool := x.sent.head? = some c
      s.record 3 p.1 s.clock.tick 0 (leBytes 2 (b2n ov + b2n s.coast.active * 2) ++ slice x.lastOut 0 (s.rn (stIdx p.1) 5))) s

/-- The length in force from this boundary (R87): the new length, with the phase of its first boundary. -/
def newLength (s : State) : State × Bool :=
  match s.clock.lcPending with
  | some (v, from_) =>
    if from_ ≤ s.clock.tick then
      let s := (s.setNum 0x2000 3 v).setNum 0x2000 4 (s.clock.tick % v)
      ({ s with clock := { s.clock with lcPending := none } }, true)
    else (s, false)
  | none => (s, false)

/-- What CX does at a line-cycle boundary: inputs, overlay changes, dictionary writes, the program. -/
def cxCycle (s : State) : State :=
  if !s.cxUp then s else programAtLc (layersAtLc (recordStationsIn (consumeInputs s)))

/-- LINE_CYCLE_BOUNDARY: once at each base tick that opens a line cycle. (DEDUCED, notes/assumptions/23.md) -/
def lineCycle (s : State) : State :=
  if !(ticking s && s.clock.lcStarted && s.atLc) || s.clock.lcDone = some s.clock.tick then s
  else
    let count := if s.clock.lcDone.isNone then 0 else (s.rn 0x2000 5 + 1) % 2 ^ 64
    let s := { s with clock := { s.clock with lcDone := some s.clock.tick }, dict := { s.dict with latched := [] } }
    let r := newLength s
    let s := (r.1.setNum 0x2000 5 count).setNum 0x2000 6 (toTbtime s.now)
    let s := cxCycle (restartAtLc s)
    let c := s.rn 0x2000 5 - 1
    let s := if s.axUp then forNums 8 s leadMissing else s
    let s := recordStationsOut (enginesAtBoundary (updateAtLc s) r.2) c
    watchesAtLc (henvyLeads s)

end Sys2Proof.Machine
end

