-- ==== Sys2Proof/Machine/CmdTime.lean ====
section
/-! DEFINITION. Commands of ticks and line cycles, the timing reference, links, time bases, PTP, Leads, actions and PPS_IN. -/

namespace Sys2Proof.Machine

/-- A number as the bytes of a written value; one that n bytes do not hold makes the value too long, so that the write answers LENGTH (R74). -/
def sized (n v : Nat) : List Byte := if v < 2 ^ (8 * n) then leBytes n v else leBytes (n + 8) v

/-- A WRITE of a number to one entry. -/
def put (w : WriteCtx) (index sub n v : Nat) (s : State) : State := serveWrite s w index sub (sized n v)

/-- BASE_TICK_BOUNDARY (R83 to R85). -/
def execBaseTickBoundary (s : State) : Host.Outcome State Fault Refusal := run (baseTick) s

/-- LINE_CYCLE_BOUNDARY (R86, R87). -/
def execLineCycleBoundary (s : State) : Host.Outcome State Fault Refusal := run (lineCycle) s

/-- LINE_CYCLE_LENGTH_WRITE: OD 2000:03 (R87). -/
def execLineCycleLengthWrite (w : WriteCtx) (v : BitVec 16) (s : State) : Host.Outcome State Fault Refusal := run (put w 0x2000 3 2 v.toNat) s

/-- TIMING_REFERENCE_WRITE: OD 2000:07 (R26). -/
def execTimingReferenceWrite (w : WriteCtx) (v : Byte) (s : State) : Host.Outcome State Fault Refusal := run (put w 0x2000 7 1 v.toNat) s

/-- REF10M_QUALIFIED (R26). -/
def execRef10mQualified (s : State) : Host.Outcome State Fault Refusal := run (whenAx refQualified) s

/-- REF10M_LOSS (R26). -/
def execRef10mLoss (s : State) : Host.Outcome State Fault Refusal := run (whenAx refLoss) s

/-- PADDOCK_TRIM (R27). -/
def execPaddockTrim (s : State) : Host.Outcome State Fault Refusal := run (whenAx paddockTrim) s

/-- LINK_FLIT_RECEIVE (R30): `first` and `second` say whether each copy has a good CRC. -/
def execLinkFlitReceive (l : Link) (first second : Bool) (s : State) : Host.Outcome State Fault Refusal :=
  run (whenOn fun s => linkFlit s l first second) s

/-- BULK_FLIT_RETRANSMIT (R31). -/
def execBulkFlitRetransmit (l : Link) (good : Bool) (s : State) : Host.Outcome State Fault Refusal := run (whenOn fun s => bulkFlit s l good) s

/-- LINK_FAILED (R32, R43), asserted by the receiver after 3 base ticks without a good flit. -/
def execLinkFailed (l : Link) (s : State) : Host.Outcome State Fault Refusal := run (whenOn fun s => linkFailed s l) s

/-- FX_WATCHDOG (R43). -/
def execFxWatchdog (s : State) : Host.Outcome State Fault Refusal := run (whenOn fxWatchdogTrip) s

/-- TB_MODE_WRITE: OD 2010+n:01 (R90, R91). -/
def execTbModeWrite (w : WriteCtx) (n : Fin 8) (v : Byte) (s : State) : Host.Outcome State Fault Refusal := run (put w (tbIdx n.val) 1 1 v.toNat) s

/-- TB_SET_TIME: OD 2010+n:0D (R96). -/
def execTbSetTime (w : WriteCtx) (n : Fin 8) (v : BitVec 96) (s : State) : Host.Outcome State Fault Refusal :=
  run (put w (tbIdx n.val) 0x0D 12 v.toNat) s

/-- SYNC_RECEIVED (R91, R92, R98). -/
def execSyncReceived (n : Fin 8) (m : SyncMsg) (s : State) : Host.Outcome State Fault Refusal := run (whenAx fun s => syncReceived s n.val m) s

/-- ANNOUNCE_RECEIVED (R91). -/
def execAnnounceReceived (n : Fin 8) (m : AnnounceMsg) (s : State) : Host.Outcome State Fault Refusal :=
  run (whenAx fun s => announceReceived s n.val m) s

/-- SYNC_LOSS (R91): 3 sync intervals have passed without a valid Sync. -/
def execSyncLoss (n : Fin 8) (s : State) : Host.Outcome State Fault Refusal := run (whenAx fun s => syncLost s n.val) s

/-- ANNOUNCE_TIMEOUT (R91). -/
def execAnnounceTimeout (n : Fin 8) (s : State) : Host.Outcome State Fault Refusal := run (whenAx fun s => announceLost s n.val) s

/-- PTP_SYNC_SEND (R97, R98, R100). -/
def execPtpSyncSend (p : Fin 10) (n : Fin 8) (s : State) : Host.Outcome State Fault Refusal := run (whenAx fun s => syncSend s p.val n.val) s

/-- ANNOUNCE_SEND (R97). -/
def execAnnounceSend (p : Fin 10) (n : Fin 8) (s : State) : Host.Outcome State Fault Refusal := run (whenAx fun s => announceSend s p.val n.val) s

/-- DELAY_REQUEST_SEND (R97, R100). -/
def execDelayRequestSend (p : Fin 10) (n : Fin 8) (s : State) : Host.Outcome State Fault Refusal :=
  run (whenAx fun s => delayRequestSend s p.val n.val) s

/-- DELAY_REQUEST_RECEIVED (R97): the answer goes to the requester that the request names. -/
def execDelayRequestReceived (p : Fin 10) (n : Fin 8) (requester : BitVec 64) (seq : BitVec 16) (s : State) : Host.Outcome State Fault Refusal :=
  run (whenAx fun s => delayRequestReceived s p.val n.val requester.toNat seq.toNat) s

/-- DELAY_RESPONSE_RECEIVED (R97): the mean path delay that the four stamps give, in 2^-16 ns. -/
def execDelayResponseReceived (p : Fin 10) (_n : Fin 8) (seq : BitVec 16) (delay : Nat) (s : State) : Host.Outcome State Fault Refusal :=
  run (whenAx fun s => delayResponse s p.val seq.toNat delay) s

/-- TB7_WRITEBACK (R95). -/
def execTb7Writeback (s : State) : Host.Outcome State Fault Refusal := run (whenAx tb7Writeback) s

/-- LEAD_SAMPLE (R104). AT forms the velocity itself from the last two samples, so that of the message has no effect. -/
def execLeadSample (n : Fin 8) (value _velocity : BitVec 64) (stamp : Nat) (s : State) : Host.Outcome State Fault Refusal :=
  run (whenOn fun s => leadSampleIn s n.val value.toNat stamp) s

/-- LEAD_SAMPLE_TIMEOUT (R106, R110). -/
def execLeadSampleTimeout (n : Fin 8) (s : State) : Host.Outcome State Fault Refusal := run (whenOn fun s => leadTimeout s n.val) s

/-- LEAD_STOP_COMPLETE (R106, R110). -/
def execLeadStopComplete (n : Fin 8) (s : State) : Host.Outcome State Fault Refusal := run (whenOn fun s => leadStopped s n.val) s

/-- LEAD_SOURCE_WRITE: OD 2040+n:01, or the source instance in 02 (R109). -/
def execLeadSourceWrite (w : WriteCtx) (n : Fin 8) (isInst : Bool) (v : BitVec 32) (s : State) : Host.Outcome State Fault Refusal :=
  run (if isInst then put w (leadIdx n.val) 2 4 v.toNat else put w (leadIdx n.val) 1 1 v.toNat) s

/-- LEAD_REREFERENCE: OD 2040+n:0A (R108). -/
def execLeadRereference (w : WriteCtx) (n : Fin 8) (v : BitVec 64) (s : State) : Host.Outcome State Fault Refusal :=
  run (put w (leadIdx n.val) 0x0A 8 v.toNat) s

/-- LEAD_RESUME: OD 2040+n:15 (R108). -/
def execLeadResume (w : WriteCtx) (n : Fin 8) (s : State) : Host.Outcome State Fault Refusal := run (put w (leadIdx n.val) 0x15 1 1) s

/-- VIRTUAL_LEAD_COMMAND: commanded velocity, acceleration limit or jerk limit in OD 2040+n:0E, 0F and 10 (R105). -/
def execVirtualLeadCommand (w : WriteCtx) (n : Fin 8) (which : Fin 3) (v : BitVec 64) (s : State) : Host.Outcome State Fault Refusal :=
  run (put w (leadIdx n.val) (0x0E + which.val) (if which.val = 0 then 8 else 4) v.toNat) s

/-- ACTION_FIRE (R114): the executor carries out the action with this number of acceptance. -/
def execActionFire (id : Nat) (s : State) : Host.Outcome State Fault Refusal := run (whenOn fun s => fireAction s id) s

/-- PPS_IN_EDGE (R564): `offset` is in units of 0.625 ns into the base tick. -/
def execPpsInEdge (offset : Nat) (s : State) : Host.Outcome State Fault Refusal := run (whenAx fun s => ppsIn s offset) s

/-- PREEMPTION_VERIFY (R200). -/
def execPreemptionVerify (u : Fin 2) (verified : Bool) (s : State) : Host.Outcome State Fault Refusal :=
  run (whenCx fun s => preemptionVerified s u.val verified) s

/-- PRP_SUPERVISION_SEND (R200). -/
def execPrpSupervisionSend (s : State) : Host.Outcome State Fault Refusal := run (whenCx prpSupervision) s

/-- PRP_PATH_DOWN (R202). -/
def execPrpPathDown (path : Fin 2) (s : State) : Host.Outcome State Fault Refusal := run (whenCx fun s => prpPath s path.val false) s

/-- PRP_PATH_UP (R202). -/
def execPrpPathUp (path : Fin 2) (s : State) : Host.Outcome State Fault Refusal := run (whenCx fun s => prpPath s path.val true) s

end Sys2Proof.Machine
end

