-- ==== Sys2Proof/Machine/CmdBus.lean ====
section
/-! DEFINITION. Commands of the Azarn line bus, the path engines, coast and Henvy. -/

namespace Sys2Proof.Machine

/-- The guard of the instant that CX named for the end of coast (R198). -/
def coastExitDue (s : State) : Bool :=
  match s.coast.returnAt with
  | some h => h ≤ s.clock.tick
  | none => true

/-- Coast ends, and with it the restart that began it (R198, OD B000:0B). -/
def leaveCoast (s : State) : State := if coastExitDue s then restartEnd (coastExit s) else s

/-- A candidate that nobody refused for 3 s joins (R205). -/
def candidateEnd (s : State) : State :=
  if henvyState s = hvCandidate && s.clock.timClk ≥ s.henvy.since + wallSec 3 then setHenvy s hvJoined else s

/-- The statuses of a CONFIGURE frame count where the engine that received it is ACTIVE, for the stations of its ring (R158). -/
def configured (s : State) (e : Engine) (k : Nat) (statuses : List (Fin 2048 × Byte)) : State :=
  if engActive s e then configureReturn s ((statuses.filter fun p => p.1.val / 512 = k).map fun p => (p.1.val, p.2.toNat)) else s

/-- A Henvy control message comes in: its first copy is stamped in software and taken (R99, R202). -/
def henvyArrives (s : State) (a : Arrival) (f : State → State) : State :=
  if henvyState s = hvOff then s
  else
    let q := firstCopy s a
    if q.1 then f (softStamp q.2 .henvyControl) else q.2

/-- STOP_PIN_CHANGE (R145, R420): the level has persisted for the filter time. -/
def execStopPinChange (pin : Fin 2) (demand : Bool) (s : State) : Host.Outcome State Fault Refusal :=
  run (whenOn fun s => aoutPins (pinChange s pin.val demand)) s

/-- REIN_CHANGE (R147). -/
def execReinChange (s : State) : Host.Outcome State Fault Refusal := run (whenOn reinFrames) s

/-- STOP_OBJECT_SET: OD 3018:03 (R146). -/
def execStopObjectSet (w : WriteCtx) (v : BitVec 64) (s : State) : Host.Outcome State Fault Refusal := run (put w 0x3018 3 8 v.toNat) s

/-- STOP_OBJECT_RESET: OD 3018:04 (R146). -/
def execStopObjectReset (w : WriteCtx) (v : BitVec 64) (s : State) : Host.Outcome State Fault Refusal := run (put w 0x3018 4 8 v.toNat) s

/-- RETURNING_FRAME_CHECK (R151). -/
def execReturningFrameCheck (e : Engine) (k : Fin 4) (f : FrameIn) (s : State) : Host.Outcome State Fault Refusal :=
  run (whenOn fun s => frameCheck s e k.val f) s

/-- TRAIN_INPUTS_RECEIVED (R135, R152). -/
def execTrainInputsReceived (k : Fin 4) (first second : List SlotAnswer) (late : Bool) (s : State) : Host.Outcome State Fault Refusal :=
  run (whenOn fun s => serveMails (trainInputs s k.val first second late) k.val) s

/-- STATION_LOST (R167, R169). -/
def execStationLost (a : Fin 2048) (s : State) : Host.Outcome State Fault Refusal := run (whenOn fun s => stationLost s a.val) s

/-- DISCOVER_RETURN (R156, R157). -/
def execDiscoverReturn (e : Engine) (k : Fin 4) (base : Nat) (records : List (Option Identity)) (counted : Nat) (s : State) : Host.Outcome State Fault Refusal :=
  run (whenOn fun s => segmentBreaks (discoverReturn s e k.val base records counted) k.val) s

/-- CONFIGURE_RETURN (R158). -/
def execConfigureReturn (e : Engine) (k : Fin 4) (statuses : List (Fin 2048 × Byte)) (s : State) : Host.Outcome State Fault Refusal :=
  run (whenOn fun s => configured s e k.val statuses) s

/-- DELAY_MEASUREMENT (R159, R160). -/
def execDelayMeasurement (k : Fin 4) (tab : Nat) (records : List (Option DelayRecord)) (s : State) : Host.Outcome State Fault Refusal :=
  run (whenOn fun s => delayMeasured s k.val tab records) s

/-- STATION_CONFIG_WRITE: OD 3800+a:0A to 0D (R158, R175). -/
def execStationConfigWrite (w : WriteCtx) (a : Fin 2048) (sub : Fin 4) (v : BitVec 64) (s : State) : Host.Outcome State Fault Refusal :=
  run (put w (stIdx a.val) (0x0A + sub.val) (if sub.val = 3 then 8 else 1) v.toNat) s

/-- HOBBLE_RELEASE_SEEN (R185): on the rails or by the demotion notice, with one effect. -/
def execHobbleReleaseSeen (e : Engine) (_byNotice : Bool) (s : State) : Host.Outcome State Fault Refusal := run (whenOn fun s => releaseSeen s e) s

/-- ENGINE_SELF_DEMOTE (R184): what a check of the table found. -/
def execEngineSelfDemote (e : Engine) (check : SelfCheck) (s : State) : Host.Outcome State Fault Refusal :=
  run (whenOn fun s => selfDemote s e check) s

/-- ENGINE_REJOIN: OD 3060:03 (R187). -/
def execEngineRejoin (w : WriteCtx) (v : Byte) (s : State) : Host.Outcome State Fault Refusal := run (put w 0x3060 3 1 v.toNat) s

/-- RING_BREAK (R188). -/
def execRingBreak (e : Engine) (k : Fin 4) (reach : Nat) (s : State) : Host.Outcome State Fault Refusal :=
  run (whenOn fun s => ringBreak s e k.val reach) s

/-- RING_HEAL (R190): both end stations report their looped port up. -/
def execRingHeal (k : Fin 4) (s : State) : Host.Outcome State Fault Refusal := run (whenOn fun s => ringHeal s k.val) s

/-- HEAL_TIMEOUT (R190). -/
def execHealTimeout (k : Fin 4) (s : State) : Host.Outcome State Fault Refusal := run (whenOn fun s => healTimeout s k.val) s

/-- COAST_ENTRY (R191). -/
def execCoastEntry (c : CoastCause) (s : State) : Host.Outcome State Fault Refusal := run (whenOn fun s => coastEntry s c) s

/-- COAST_LIMIT (R197). -/
def execCoastLimit (s : State) : Host.Outcome State Fault Refusal := run (whenOn coastLimit) s

/-- COAST_EXIT (R198). -/
def execCoastExit (s : State) : Host.Outcome State Fault Refusal := run (whenCx leaveCoast) s

/-- COAST_RECORD_COMMIT (R193). -/
def execCoastRecordCommit (n : Fin 2048) (s : State) : Host.Outcome State Fault Refusal := run (whenCx fun s => commitCoastRec s n.val) s

/-- HENVY_MEMBER (R205). -/
def execHenvyMember (m : MemberMsg) (s : State) : Host.Outcome State Fault Refusal :=
  run (whenCx fun s => henvyArrives s m.from_ fun s => henvyMember s m) s

/-- HENVY_MEMBER_SEND (R203). -/
def execHenvyMemberSend (s : State) : Host.Outcome State Fault Refusal := run (whenCx sendMember) s

/-- HENVY_STOP (R204). -/
def execHenvyStop (m : StopMsg) (objects : BitVec 64) (s : State) : Host.Outcome State Fault Refusal :=
  run (whenCx fun s => henvyArrives s m.from_ fun s => henvyStop s m.number.val objects.toNat) s

/-- HENVY_STOP_SEND (R203). -/
def execHenvyStopSend (s : State) : Host.Outcome State Fault Refusal := run (whenCx henvyStopSend) s

/-- HENVY_STOP_SILENCE (R204). -/
def execHenvyStopSilence (number : Fin 16) (s : State) : Host.Outcome State Fault Refusal := run (whenCx fun s => henvySilence s number.val) s

/-- HENVY_CANDIDATE_END (R205). -/
def execHenvyCandidateEnd (s : State) : Host.Outcome State Fault Refusal := run (whenCx candidateEnd) s

/-- HENVY_ENABLE: true to OD 3080:02 (R205). -/
def execHenvyEnable (w : WriteCtx) (s : State) : Host.Outcome State Fault Refusal := run (put w 0x3080 2 1 1) s

end Sys2Proof.Machine
end

