-- ==== Sys2Proof/Machine/CmdDaz.lean ====
section
/-! DEFINITION. Commands of the dictionary service: requests of clients, sessions, and what falls due for them. -/

namespace Sys2Proof.Machine

/-- DAZ_READ (R76, R77). -/
def execDazRead (c : ClientId) (m : DazMsg) (s : State) : Host.Outcome State Fault Refusal := run (fun s => dazRead s c m) s

/-- DAZ_WRITE (R76 to R78). -/
def execDazWrite (c : ClientId) (m : DazMsg) (s : State) : Host.Outcome State Fault Refusal := run (fun s => dazWrite s c m) s

/-- READ_MULTI (R77). -/
def execReadMulti (c : ClientId) (m : DazMsg) (s : State) : Host.Outcome State Fault Refusal := run (fun s => dazReadMulti s c m) s

/-- WRITE_MULTI (R77, R78). -/
def execWriteMulti (c : ClientId) (m : DazMsg) (s : State) : Host.Outcome State Fault Refusal := run (fun s => dazWriteMulti s c m) s

/-- READ_SEGMENT (R77). -/
def execReadSegment (c : ClientId) (m : DazMsg) (s : State) : Host.Outcome State Fault Refusal := run (fun s => dazReadSegment s c m) s

/-- WRITE_SEGMENT (R79): the entry is the one that the message names. -/
def execWriteSegment (c : ClientId) (m : DazMsg) (s : State) : Host.Outcome State Fault Refusal :=
  run (fun s => segmentOf s c m m.index.toNat m.sub.toNat) s

/-- INFO (R571). -/
def execInfo (c : ClientId) (m : DazMsg) (s : State) : Host.Outcome State Fault Refusal := run (fun s => dazInfo s c m) s

/-- WATCH (R80). -/
def execWatch (c : ClientId) (m : DazMsg) (s : State) : Host.Outcome State Fault Refusal := run (fun s => dazWatch s c m) s

/-- CANCEL (R77). -/
def execCancel (c : ClientId) (m : DazMsg) (s : State) : Host.Outcome State Fault Refusal := run (fun s => dazCancel s c m) s

/-- REGISTER_WRITE (R64): a WRITE of any entry. -/
def execRegisterWrite (w : WriteCtx) (index : BitVec 16) (sub : Byte) (data : List Byte) (s : State) : Host.Outcome State Fault Refusal :=
  run (fun s => serveWrite s w index.toNat sub.toNat data) s

/-- SCHEDULED_WRITE_DUE (R78). -/
def execScheduledWriteDue (c : ClientId) (txn : BitVec 16) (s : State) : Host.Outcome State Fault Refusal :=
  run (whenOn fun s => scheduledDue s c txn.toNat) s

/-- SEGMENT_TIMEOUT (R74, R79). -/
def execSegmentTimeout (c : ClientId) (index : BitVec 16) (sub : Byte) (s : State) : Host.Outcome State Fault Refusal :=
  run (whenCx fun s => segmentTimeout s c index.toNat sub.toNat) s

/-- DAZ_SESSION_OPEN (R63, R82): whether the certificate chain is good, and the roles it carries. -/
def execDazSessionOpen (uplink : Fin 2) (chainGood : Bool) (roles : List Role) (s : State) : Host.Outcome State Fault Refusal :=
  run (whenCx fun s => openSession s uplink.val chainGood roles) s

/-- SESSION_IDLE_TIMEOUT (R73). -/
def execSessionIdleTimeout (n : Fin 16) (s : State) : Host.Outcome State Fault Refusal := run (whenCx fun s => idleSession s n) s

/-- DAZ_SESSION_CLOSE (R80, R82). -/
def execDazSessionClose (n : Fin 16) (s : State) : Host.Outcome State Fault Refusal := run (whenCx fun s => endSession s n.val) s

/-- EXPORTED_VARIABLE_WRITE (R367). -/
def execExportedVariableWrite (w : WriteCtx) (index : BitVec 16) (sub : Byte) (data : List Byte) (s : State) : Host.Outcome State Fault Refusal :=
  run (fun s => serveWrite s w index.toNat sub.toNat data) s

end Sys2Proof.Machine
end

