-- ==== Sys2Proof/Machine/CmdField.lean ====
section
/-! DEFINITION. Commands of analogue inputs and outputs and of isolated field I/O. -/

namespace Sys2Proof.Machine

/-- CONVERSION_TRIGGER (R408, R409): an event of a TICK or PWM trigger at an ADC clock offset of the present tick. -/
def execConversionTrigger (t : Fin 64) (offset : Nat) (s : State) : Host.Outcome State Fault Refusal :=
  run (whenAx fun s => triggerEvent s t.val offset) s

/-- TRIGGER_FIRE: OD 6200+t:0B (R408). -/
def execTriggerFire (w : WriteCtx) (t : Fin 64) (s : State) : Host.Outcome State Fault Refusal := run (put w (trigIdx t.val) 0x0B 1 1) s

/-- TRIGGER_KIND_WRITE: OD 6200+t:01 (R425). -/
def execTriggerKindWrite (w : WriteCtx) (t : Fin 64) (v : Byte) (s : State) : Host.Outcome State Fault Refusal :=
  run (put w (trigIdx t.val) 1 1 v.toNat) s

/-- TRIGGER_LEAD_POSITION_WRITE: OD 6200+t:05 (R408). -/
def execTriggerLeadPositionWrite (w : WriteCtx) (t : Fin 64) (v : BitVec 64) (s : State) : Host.Outcome State Fault Refusal :=
  run (put w (trigIdx t.val) 5 8 v.toNat) s

/-- CONVERSION_START (R412): the sequencer of a converter up to an ADC clock of the present tick. -/
def execConversionStart (a : Fin 32) (offset : Nat) (s : State) : Host.Outcome State Fault Refusal :=
  run (whenAx fun s => seqRun s a.val (adcClock s offset)) s

/-- CONVERSION_LATCH (R413 to R416). -/
def execConversionLatch (a : Fin 32) (nanovolts : Int) (s : State) : Host.Outcome State Fault Refusal :=
  run (whenAx fun s => latchConv s a.val nanovolts) s

/-- REFERENCE_CHECK (R407). -/
def execReferenceCheck (a : Fin 32) (r : CheckResult) (s : State) : Host.Outcome State Fault Refusal :=
  run (whenAx fun s => referenceCheck s a.val r) s

/-- INPUT_RANGE_WRITE: OD 6100+i:01 (R406). -/
def execInputRangeWrite (w : WriteCtx) (i : Fin 96) (v : Byte) (s : State) : Host.Outcome State Fault Refusal :=
  run (put w (ainIdx i.val) 1 1 v.toNat) s

/-- AOUT_MODE_WRITE: OD 6300+o:01 (R417). -/
def execAoutModeWrite (w : WriteCtx) (o : Fin 16) (v : Byte) (s : State) : Host.Outcome State Fault Refusal :=
  run (put w (aoutIdx o.val) 1 1 v.toNat) s

/-- AOUT_LOSS_TIMEOUT (R419). -/
def execAoutLossTimeout (o : Fin 16) (s : State) : Host.Outcome State Fault Refusal := run (whenAx fun s => aoutLoss s o.val) s

/-- AOUT_FAULT (R421). -/
def execAoutFault (o : Fin 16) (f : AoutFaultKind) (s : State) : Host.Outcome State Fault Refusal := run (whenAx fun s => aoutFault s o.val f) s

/-- AOUT_FAULT_CLEAR (R421). -/
def execAoutFaultClear (o : Fin 16) (f : AoutFaultKind) (s : State) : Host.Outcome State Fault Refusal :=
  run (whenAx fun s => aoutFaultEnd s o.val f) s

/-- DI_EDGE_ACCEPT (R431): the raw level that has lasted the debounce time. -/
def execDiEdgeAccept (i : Fin 64) (level : Bool) (stamp : Nat) (s : State) : Host.Outcome State Fault Refusal :=
  run (whenOn fun s => diAccept s i.val level stamp) s

/-- INPUT_TYPE_WRITE: OD 7008+g:01 (R430). -/
def execInputTypeWrite (w : WriteCtx) (g : Fin 8) (v : Byte) (s : State) : Host.Outcome State Fault Refusal :=
  run (put w (0x7008 + g.val) 1 1 v.toNat) s

/-- WIRE_BREAK (R433). -/
def execWireBreak (i : Fin 64) (s : State) : Host.Outcome State Fault Refusal := run (whenOn fun s => wireBreak s i.val) s

/-- WIRE_BREAK_CLEAR (R433). -/
def execWireBreakClear (i : Fin 64) (s : State) : Host.Outcome State Fault Refusal := run (whenOn fun s => wireBreakEnd s i.val) s

/-- FIELD_UPLINK_FRAME (R432, R434). -/
def execFieldUplinkFrame (good : Bool) (s : State) : Host.Outcome State Fault Refusal := run (whenAx fun s => uplinkFrame s good) s

/-- FIELD_DOWNLINK_FRAME (R432, R437, R438). -/
def execFieldDownlinkFrame (good : Bool) (s : State) : Host.Outcome State Fault Refusal := run (whenAx fun s => downlinkFrame s good (ownsField s)) s

/-- OUTPUT_EDGE: OD 7300+o:03 (R436). -/
def execOutputEdge (w : WriteCtx) (o : Fin 32) (v : Byte) (s : State) : Host.Outcome State Fault Refusal := run (put w (doIdx o.val) 3 1 v.toNat) s

/-- OUTPUT_FAULT (R439, R440). -/
def execOutputFault (o : Fin 32) (f : OutFaultKind) (s : State) : Host.Outcome State Fault Refusal := run (whenOn fun s => outputFault s o.val f) s

/-- OUTPUT_RETRY (R439, R440). -/
def execOutputRetry (o : Fin 32) (s : State) : Host.Outcome State Fault Refusal := run (whenOn fun s => outputRetry s o.val) s

/-- OUTPUT_FAULT_COUNT_CLEAR (R440). -/
def execOutputFaultCountClear (o : Fin 32) (s : State) : Host.Outcome State Fault Refusal := run (whenOn fun s => faultCountClear s o.val) s

/-- OUTPUT_RESET: OD 7300+o:09 (R439). -/
def execOutputReset (w : WriteCtx) (o : Fin 32) (s : State) : Host.Outcome State Fault Refusal := run (put w (doIdx o.val) 9 1 1) s

/-- LPLUS_SAMPLE (R441). -/
def execLplusSample (q : Fin 4) (millivolts : BitVec 16) (s : State) : Host.Outcome State Fault Refusal :=
  run (whenOn fun s => lplusSample s q.val millivolts.toNat) s

/-- LPLUS_OUTPUT_RESTART (R441). -/
def execLplusOutputRestart (q : Fin 4) (s : State) : Host.Outcome State Fault Refusal := run (whenOn fun s => lplusRestart s q.val) s

/-- FIELD_LINK_LOSS (R442). -/
def execFieldLinkLoss (s : State) : Host.Outcome State Fault Refusal := run (whenOn linkLoss) s

/-- FIELD_LINK_RECOVER (R442). -/
def execFieldLinkRecover (s : State) : Host.Outcome State Fault Refusal := run (whenOn linkRecover) s

/-- DO_LOSS_TIMEOUT (R442). -/
def execDoLossTimeout (o : Fin 32) (s : State) : Host.Outcome State Fault Refusal := run (whenOn fun s => doLoss s o.val) s

/-- OPEN_LOAD (R444). -/
def execOpenLoad (o : Fin 32) (s : State) : Host.Outcome State Fault Refusal := run (whenOn fun s => openLoad s o.val) s

/-- OPEN_LOAD_CLEAR (R444). -/
def execOpenLoadClear (o : Fin 32) (s : State) : Host.Outcome State Fault Refusal := run (whenOn fun s => openLoadEnd s o.val) s

end Sys2Proof.Machine
end

