-- ==== Sys2Proof/Machine/CmdHealth.lean ====
section
/-! DEFINITION. Commands of start-up, power, firmware, restarts, memory protection, the governor and the Paddock. -/

namespace Sys2Proof.Machine

/-- POWER_ON (R508). -/
def execPowerOn (s : State) : Host.Outcome State Fault Refusal := run (powerOn) s

/-- STARTUP_STEP_COMPLETE (R512, R515). -/
def execStartupStepComplete (r : StepResult) (s : State) : Host.Outcome State Fault Refusal := run (fun s => startupStep s r) s

/-- ACQUISITION_TIMEOUT (R513). -/
def execAcquisitionTimeout (s : State) : Host.Outcome State Fault Refusal := run (acquisitionTimeout) s

/-- RESET_ASSERT (R510). -/
def execResetAssert (s : State) : Host.Outcome State Fault Refusal := run (resetAssert) s

/-- RESET_RELEASE (R510). -/
def execResetRelease (s : State) : Host.Outcome State Fault Refusal := run (resetRelease) s

/-- INPUT_FUSE_OPEN (R509): the dies reach lockout without a power-fail sequence. -/
def execInputFuseOpen (s : State) : Host.Outcome State Fault Refusal := run (supplyLost) s

/-- POWER_FAIL_WARNING (R511, R533). -/
def execPowerFailWarning (s : State) : Host.Outcome State Fault Refusal := run powerFailWarning s

/-- SHUTDOWN_STEP (R533). -/
def execShutdownStep (s : State) : Host.Outcome State Fault Refusal := run shutdownStep s

/-- UNDERVOLTAGE_LOCKOUT (R533): the time since PFW_N fell, for OD B020:04. -/
def execUndervoltageLockout (sincePfwMicros : Nat) (s : State) : Host.Outcome State Fault Refusal := run (fun s => lockout s sincePfwMicros) s

/-- POWER_FAIL_CLEAR (R535). -/
def execPowerFailClear (s : State) : Host.Outcome State Fault Refusal := run (powerFailClear) s

/-- DECLARE_CLEAR (R535). -/
def execDeclareClear (s : State) : Host.Outcome State Fault Refusal := run (whenAx declareClear) s

/-- FIRMWARE_PACKAGE_SEGMENT: a WRITE_SEGMENT of OD B030:01 (R79, R519). -/
def execFirmwarePackageSegment (c : ClientId) (m : DazMsg) (s : State) : Host.Outcome State Fault Refusal := run (fun s => segmentOf s c m 0xB030 1) s

/-- FIRMWARE_VERIFY: 0x01 to OD B030:02 (R517). -/
def execFirmwareVerify (w : WriteCtx) (s : State) : Host.Outcome State Fault Refusal := run (put w 0xB030 2 1 1) s

/-- FIRMWARE_COMMIT: 0x02 to OD B030:02 (R519). -/
def execFirmwareCommit (w : WriteCtx) (s : State) : Host.Outcome State Fault Refusal := run (put w 0xB030 2 1 2) s

/-- FIRMWARE_COMMIT_AND_LOCK: 0x04 to OD B030:02 (R519). -/
def execFirmwareCommitAndLock (w : WriteCtx) (s : State) : Host.Outcome State Fault Refusal := run (put w 0xB030 2 1 4) s

/-- FIRMWARE_DISCARD: 0x03 to OD B030:02 (R544). -/
def execFirmwareDiscard (w : WriteCtx) (s : State) : Host.Outcome State Fault Refusal := run (put w 0xB030 2 1 3) s

/-- REGION_UPDATE: OD B030:03 (R520). -/
def execRegionUpdate (w : WriteCtx) (v : Byte) (s : State) : Host.Outcome State Fault Refusal := run (put w 0xB030 3 1 v.toNat) s

/-- REGION_UPDATE_COMPLETE (R520): the units that failed their self-test. -/
def execRegionUpdateComplete (failedUnits : List (Fin 104)) (s : State) : Host.Outcome State Fault Refusal :=
  run (whenOn fun s => updateComplete s (failedUnits.map (·.val))) s

/-- RESTART_COMMAND: 0x01 to OD B000:07 (R522). -/
def execRestartCommand (w : WriteCtx) (s : State) : Host.Outcome State Fault Refusal := run (put w 0xB000 7 1 1) s

/-- CB_WATCHDOG (R522, R525). -/
def execCbWatchdog (s : State) : Host.Outcome State Fault Refusal := run (fun s => unplannedRestart s 3) s

/-- FABRIC_PARITY_ERROR (R522, R525). -/
def execFabricParityError (s : State) : Host.Outcome State Fault Refusal := run (fun s => unplannedRestart s 5) s

/-- WARM_RESTART_RETURN (R523, R524). -/
def execWarmRestartReturn (checkpointGood taskDataGood : Bool) (s : State) : Host.Outcome State Fault Refusal :=
  run (whenOn fun s => warmReturn s checkpointGood taskDataGood) s

/-- DRAM_CORRECTABLE_ERROR (R526). -/
def execDramCorrectableError (s : State) : Host.Outcome State Fault Refusal := run (whenOn fun s => s.bump 0xF000 1) s

/-- DRAM_UNCORRECTABLE_ERROR (R527). -/
def execDramUncorrectableError (o : DramOwner) (s : State) : Host.Outcome State Fault Refusal := run (fun s => dramUncorrected s o) s

/-- MRAM_ERROR (R526). -/
def execMramError (k : MramErrorKind) (s : State) : Host.Outcome State Fault Refusal := run (whenOn fun s => mramError s k) s

/-- CLUSTER_MEMORY_ERROR (R526): channel, axis or task counted from 0. -/
def execClusterMemoryError (e : ClusterError) (item : Fin 4096) (s : State) : Host.Outcome State Fault Refusal :=
  run (fun s => clusterError s e.corrected (e.kind.val + 1) item.val) s

/-- DRAM_PATROL_SCRUB (R526). -/
def execDramPatrolScrub (s : State) : Host.Outcome State Fault Refusal := run (whenOn fun s => s.bump 0xF000 8) s

/-- GOVERNOR_UPDATE (R529): the hot spot in 0.1 °C, the input power in 0.1 W. -/
def execGovernorUpdate (hotSpot : Int) (powerTenths : Nat) (s : State) : Host.Outcome State Fault Refusal :=
  run (fun s => governorUpdate s hotSpot powerTenths) s

/-- THERMAL_TRIP (R532). -/
def execThermalTrip (d : Die) (s : State) : Host.Outcome State Fault Refusal := run (fun s => thermalTrip s d) s

/-- THERMAL_TRIP_RELEASE (R532). -/
def execThermalTripRelease (s : State) : Host.Outcome State Fault Refusal := run (whenOn tripRelease) s

/-- DIE_PASSES_BRINGUP (R43, R187). -/
def execDiePassesBringup (d : Die) (s : State) : Host.Outcome State Fault Refusal := run (whenOn fun s => dieUp s d) s

/-- PADDOCK_VBAT_COMPARE (R538). -/
def execPaddockVbatCompare (millivolts : Nat) (s : State) : Host.Outcome State Fault Refusal := run (fun s => vbatCompare s millivolts) s

/-- PADDOCK_POWER_RETURN (R538). -/
def execPaddockPowerReturn (s : State) : Host.Outcome State Fault Refusal := run (fun s => paddockLog s 3 0) s

/-- PADDOCK_CASE_SAMPLE (R538). -/
def execPaddockCaseSample (isOpen : Bool) (s : State) : Host.Outcome State Fault Refusal := run (fun s => caseSample s isOpen) s

/-- PADDOCK_TEMP_SAMPLE (R538). -/
def execPaddockTempSample (celsius : Int) (s : State) : Host.Outcome State Fault Refusal := run (fun s => tempSample s celsius) s

/-- VBAT_BROWNOUT (R537). -/
def execVbatBrownout (s : State) : Host.Outcome State Fault Refusal := run (brownOut) s

/-- WAKE_PULSE_END (R539). -/
def execWakePulseEnd (s : State) : Host.Outcome State Fault Refusal := run (wakeEnd) s

/-- PADDOCK_CLEAR_LOG: OD B080:05 (R545). -/
def execPaddockClearLog (w : WriteCtx) (s : State) : Host.Outcome State Fault Refusal := run (put w 0xB080 5 1 1) s

end Sys2Proof.Machine
end

