-- ==== Sys2Proof/Machine/CmdLayers.lean ====
section
/-! DEFINITION. Commands of configurations, modes and recipes. -/

namespace Sys2Proof.Machine

/-- MODE_REQUEST: OD C000:01 (R496). -/
def execModeRequest (w : WriteCtx) (v : Byte) (s : State) : Host.Outcome State Fault Refusal := run (put w 0xC000 1 1 v.toNat) s

/-- CONFIG_IMAGE_SEGMENT: a WRITE_SEGMENT of OD C010:01 (R79, R489). -/
def execConfigImageSegment (c : ClientId) (m : DazMsg) (s : State) : Host.Outcome State Fault Refusal := run (fun s => segmentOf s c m 0xC010 1) s

/-- CONFIG_VERIFY: 0x01 to OD C010:03 (R488, R489). -/
def execConfigVerify (w : WriteCtx) (s : State) : Host.Outcome State Fault Refusal := run (put w 0xC010 3 1 1) s

/-- CONFIG_ACTIVATE: 0x02 to OD C010:03 (R490). -/
def execConfigActivate (w : WriteCtx) (s : State) : Host.Outcome State Fault Refusal := run (put w 0xC010 3 1 2) s

/-- CONFIG_DISCARD: 0x04 to OD C010:03 (R505). -/
def execConfigDiscard (w : WriteCtx) (s : State) : Host.Outcome State Fault Refusal := run (put w 0xC010 3 1 4) s

/-- RECIPE_START: 0x01 to OD C200+s:02 (R500). -/
def execRecipeStart (w : WriteCtx) (k : Fin 64) (s : State) : Host.Outcome State Fault Refusal := run (put w (seqIdx k.val) 2 1 1) s

/-- RECIPE_PAUSE: 0x02 to OD C200+s:02 (R501). -/
def execRecipePause (w : WriteCtx) (k : Fin 64) (s : State) : Host.Outcome State Fault Refusal := run (put w (seqIdx k.val) 2 1 2) s

/-- RECIPE_RESUME: 0x03 to OD C200+s:02 (R501). -/
def execRecipeResume (w : WriteCtx) (k : Fin 64) (s : State) : Host.Outcome State Fault Refusal := run (put w (seqIdx k.val) 2 1 3) s

/-- RECIPE_ABORT: 0x04 to OD C200+s:02 (R500). -/
def execRecipeAbort (w : WriteCtx) (k : Fin 64) (s : State) : Host.Outcome State Fault Refusal := run (put w (seqIdx k.val) 2 1 4) s

/-- RECIPE_ADVANCE: 0x05 to OD C200+s:02 (R498). -/
def execRecipeAdvance (w : WriteCtx) (k : Fin 64) (s : State) : Host.Outcome State Fault Refusal := run (put w (seqIdx k.val) 2 1 5) s

/-- STEP_END (R498): the end action of a sequencer fires. -/
def execStepEnd (k : Fin 64) (s : State) : Host.Outcome State Fault Refusal := run (whenOn fun s => stepEndFires s k.val) s

/-- LIVE_VALUE_CAPTURE: OD C000:09 (R503). -/
def execLiveValueCapture (w : WriteCtx) (s : State) : Host.Outcome State Fault Refusal := run (put w 0xC000 9 1 1) s

end Sys2Proof.Machine
end

