-- ==== Sys2Proof/Machine/CmdMotion.lean ====
section
/-! DEFINITION. Commands of control channels, traces, axes, groups, PWM channels, encoders, capture lines, local axes and homing. -/

namespace Sys2Proof.Machine

/-- A sample boundary of a placed channel: its unit evaluates it (R86, R222). -/
def sampleChannel (s : State) (n : Nat) : State :=
  if (s.chan n).placed && s.clock.tick % s.rn (chIdx n) 4 = (s.chan n).phase then chanSample s n else s

/-- The input fault reaction, due at a sample boundary of the channel (R232). -/
def inputFault (s : State) (n : Nat) : State :=
  let c := s.chan n
  if c.placed && c.faultDue && s.clock.tick % s.rn (chIdx n) 4 = c.phase then faultReaction s n else s

/-- A unit misses the deadline of a channel (R228): the previous output stays, and the unit is retired. -/
def missChannel (s : State) (n : Nat) : State :=
  let c := s.chan n
  if c.placed then retireUnit ((s.setChan n { c with overrun := true, toCome := none }).bump (chIdx n) 0x21) c.unit 2 else s

/-- Whether a change of mode, Lead or ratio of axis n waits for an engine to acknowledge its coast record (R193): stops and resets do not. -/
def waitsForEngines (s : State) (n : Nat) (op : Nat) : Bool := !axisLocal s n && !enginesAck s && op ≠ 4 && op ≠ 8

/-- A sample of axis n whose commands that wait for the engines stay where they are, those of its group among them. -/
def heldSample (s : State) (n : Nat) : State :=
  let hold := fun (l : List AxisOrder) => (l.takeWhile fun o => !waitsForEngines s n o.op, l.dropWhile fun o => !waitsForEngines s n o.op)
  let holdG := fun (l : List GroupOrder) => (l.takeWhile fun o => !waitsForEngines s n o.op, l.dropWhile fun o => !waitsForEngines s n o.op)
  let q := hold (s.axis n).orders
  let s := s.setAxis n { s.axis n with orders := q.1 }
  match groupOf s n with
  | some g =>
    let r := holdG (s.group g).orders
    let s := axisSample (s.setGroup g { s.group g with orders := r.1 }) n
    let s := s.setGroup g { s.group g with orders := (s.group g).orders ++ r.2 }
    s.setAxis n { s.axis n with orders := (s.axis n).orders ++ q.2 }
  | none =>
    let s := axisSample s n
    s.setAxis n { s.axis n with orders := (s.axis n).orders ++ q.2 }

/-- A sample boundary of a declared axis (R86, R252, R253); the coast record follows the axis (R193). -/
def sampleAxis (s : State) (n : Nat) : State :=
  if declaredHere s (axIdx n) 3 && s.clock.tick % axisPeriod s n = phaseOf s 2 n && !axisCoasts s n then
    commitCoastRec (if axisLocal s n || enginesAck s then axisSample s n else heldSample s n) n
  else s

/-- A unit misses the deadline of an axis (R254): the previous setpoint stays, and the unit is retired. -/
def missAxis (s : State) (n : Nat) : State :=
  let x := s.axis n
  if x.placed then retireUnit ((s.setAxis n { x with overrun := true, toCome := none }).bump (axIdx n) 0x26) x.unit 2 else s

/-- A command record written to OD 5000+n:1C (R257). -/
def axisCommand (w : WriteCtx) (n : Fin 2048) (op : Nat) (r : AxisCmd) (s : State) : State :=
  serveWrite s w (axIdx n.val) 0x1C (axisRecord op r)

/-- A group command record: the opcode and 16 targets (R284); more than 16 make it too long. -/
def groupBytes (op : Nat) (l : List (BitVec 64)) : List Byte :=
  leBytes 1 op ++ List.replicate 7 0 ++ (l ++ List.replicate (16 - l.length) 0).flatMap (fun (v : BitVec 64) => leBytes 8 v.toNat)

/-- CHANNEL_SAMPLE (R222, R230). -/
def execChannelSample (n : Fin 4096) (s : State) : Host.Outcome State Fault Refusal := run (whenServes 3 fun s => sampleChannel s n.val) s

/-- CHANNEL_INPUT_FAULT (R232). -/
def execChannelInputFault (n : Fin 4096) (s : State) : Host.Outcome State Fault Refusal := run (whenServes 3 fun s => inputFault s n.val) s

/-- CHANNEL_ENABLE: 0x01 to OD 4000+n:03 (R230). -/
def execChannelEnable (w : WriteCtx) (n : Fin 4096) (s : State) : Host.Outcome State Fault Refusal := run (put w (chIdx n.val) 3 1 1) s

/-- CHANNEL_DISABLE: 0x00 to OD 4000+n:03 (R230). -/
def execChannelDisable (w : WriteCtx) (n : Fin 4096) (s : State) : Host.Outcome State Fault Refusal := run (put w (chIdx n.val) 3 1 0) s

/-- CHANNEL_COMMIT: OD 4000+n:19 (R238, R239). -/
def execChannelCommit (w : WriteCtx) (n : Fin 4096) (v : BitVec 16) (s : State) : Host.Outcome State Fault Refusal :=
  run (put w (chIdx n.val) 0x19 2 v.toNat) s

/-- CHANNEL_OVERRUN (R228). -/
def execChannelOverrun (n : Fin 4096) (s : State) : Host.Outcome State Fault Refusal := run (whenCx fun s => missChannel s n.val) s

/-- TRACE_DISARM: 0x00 to OD F400+t:08 (R242). -/
def execTraceDisarm (w : WriteCtx) (t : Fin 8) (s : State) : Host.Outcome State Fault Refusal := run (put w (0xF400 + t.val) 8 1 0) s

/-- TRACE_ARM: 0x01 to OD F400+t:08 (R242). -/
def execTraceArm (w : WriteCtx) (t : Fin 8) (s : State) : Host.Outcome State Fault Refusal := run (put w (0xF400 + t.val) 8 1 1) s

/-- TRACE_TRIGGER_NOW: 0x02 to OD F400+t:08 (R242). -/
def execTraceTriggerNow (w : WriteCtx) (t : Fin 8) (s : State) : Host.Outcome State Fault Refusal := run (put w (0xF400 + t.val) 8 1 2) s

/-- AXIS_SAMPLE (R253, R256). -/
def execAxisSample (n : Fin 2048) (s : State) : Host.Outcome State Fault Refusal := run (whenServes 4 fun s => sampleAxis s n.val) s

/-- AXIS_ENABLE: 0x01 to OD 5000+n:03 (R256). -/
def execAxisEnable (w : WriteCtx) (n : Fin 2048) (s : State) : Host.Outcome State Fault Refusal := run (put w (axIdx n.val) 3 1 1) s

/-- AXIS_DISABLE: 0x00 to OD 5000+n:03 (R256, R263). -/
def execAxisDisable (w : WriteCtx) (n : Fin 2048) (s : State) : Host.Outcome State Fault Refusal := run (put w (axIdx n.val) 3 1 0) s

/-- MOVE_ABS: a command record of OD 5000+n:1C (R257, R258). -/
def execMoveAbs (w : WriteCtx) (n : Fin 2048) (r : AxisCmd) (s : State) : Host.Outcome State Fault Refusal := run (axisCommand w n 1 r) s

/-- MOVE_REL: a command record of OD 5000+n:1C (R257, R258). -/
def execMoveRel (w : WriteCtx) (n : Fin 2048) (r : AxisCmd) (s : State) : Host.Outcome State Fault Refusal := run (axisCommand w n 2 r) s

/-- MOVE_VEL: a command record of OD 5000+n:1C (R260). -/
def execMoveVel (w : WriteCtx) (n : Fin 2048) (r : AxisCmd) (s : State) : Host.Outcome State Fault Refusal := run (axisCommand w n 3 r) s

/-- STOP: a command record of OD 5000+n:1C (R263). -/
def execStop (w : WriteCtx) (n : Fin 2048) (r : AxisCmd) (s : State) : Host.Outcome State Fault Refusal := run (axisCommand w n 4 r) s

/-- GEAR_IN: a command record of OD 5000+n:1C (R270). -/
def execGearIn (w : WriteCtx) (n : Fin 2048) (r : AxisCmd) (s : State) : Host.Outcome State Fault Refusal := run (axisCommand w n 5 r) s

/-- RATIO: a command record of OD 5000+n:1C (R271). -/
def execRatio (w : WriteCtx) (n : Fin 2048) (r : AxisCmd) (s : State) : Host.Outcome State Fault Refusal := run (axisCommand w n 6 r) s

/-- GEAR_OUT: a command record of OD 5000+n:1C (R272). -/
def execGearOut (w : WriteCtx) (n : Fin 2048) (r : AxisCmd) (s : State) : Host.Outcome State Fault Refusal := run (axisCommand w n 7 r) s

/-- RESET: a command record of OD 5000+n:1C (R281). -/
def execReset (w : WriteCtx) (n : Fin 2048) (r : AxisCmd) (s : State) : Host.Outcome State Fault Refusal := run (axisCommand w n 8 r) s

/-- AXIS_OVERRUN (R254). -/
def execAxisOverrun (n : Fin 2048) (s : State) : Host.Outcome State Fault Refusal := run (whenCx fun s => missAxis s n.val) s

/-- GROUP_MOVE_ABS: a command record of OD 5800+g:04 (R267, R284). -/
def execGroupMoveAbs (w : WriteCtx) (g : Fin 256) (targets : List (BitVec 64)) (s : State) : Host.Outcome State Fault Refusal :=
  run (fun s => serveWrite s w (grpIdx g.val) 4 (groupBytes 1 targets)) s

/-- GROUP_MOVE_REL: a command record of OD 5800+g:04 (R267, R284). -/
def execGroupMoveRel (w : WriteCtx) (g : Fin 256) (distances : List (BitVec 64)) (s : State) : Host.Outcome State Fault Refusal :=
  run (fun s => serveWrite s w (grpIdx g.val) 4 (groupBytes 2 distances)) s

/-- GROUP_STOP: a command record of OD 5800+g:04 (R268, R284). -/
def execGroupStop (w : WriteCtx) (g : Fin 256) (s : State) : Host.Outcome State Fault Refusal :=
  run (fun s => serveWrite s w (grpIdx g.val) 4 (groupBytes 4 [])) s

/-- PWM_PULSE: OD 7400+ch:0B (R291). -/
def execPwmPulse (w : WriteCtx) (ch : Fin 96) (s : State) : Host.Outcome State Fault Refusal := run (put w (pwmIdx ch.val) 0x0B 1 1) s

/-- HOLD_AMPLITUDE_DELAY (R298). -/
def execHoldAmplitudeDelay (a : Fin 32) (s : State) : Host.Outcome State Fault Refusal := run (whenAx fun s => holdDelay s a.val) s

/-- ENCODER_EDGE (R301, R302): the levels after the edge, and its offset in units of 0.625 ns. -/
def execEncoderEdge (e : Fin 16) (aLevel bLevel : Bool) (offset : Nat) (s : State) : Host.Outcome State Fault Refusal :=
  run (whenAx fun s => encoderEdge s e.val aLevel bLevel offset) s

/-- ENCODER_INDEX (R303). -/
def execEncoderIndex (e : Fin 16) (offset : Nat) (s : State) : Host.Outcome State Fault Refusal := run (whenAx fun s => encoderIndex s e.val offset) s

/-- ENCODER_LINE_FAULT (R302). -/
def execEncoderLineFault (e : Fin 16) (s : State) : Host.Outcome State Fault Refusal := run (whenAx fun s => encoderLineFault s e.val) s

/-- LINE_FAULT_CLEAR (R302). -/
def execLineFaultClear (e : Fin 16) (s : State) : Host.Outcome State Fault Refusal := run (whenAx fun s => encoderLineClear s e.val) s

/-- SSI_TRANSFER (R304): the word read and what its checks found. -/
def execSsiTransfer (e : Fin 16) (word : BitVec 40) (idleHigh monoflopLow parityGood : Bool) (s : State) : Host.Outcome State Fault Refusal :=
  run (whenAx fun s => ssiTransfer s e.val word.toNat idleHigh monoflopLow parityGood) s

/-- ENCODER_CLEAR_STATUS: OD 7500+e:06 (R316). -/
def execEncoderClearStatus (w : WriteCtx) (e : Fin 16) (v : BitVec 16) (s : State) : Host.Outcome State Fault Refusal :=
  run (put w (encIdx e.val) 6 2 v.toNat) s

/-- CAPTURE_EVENT (R306). -/
def execCaptureEvent (c : Fin 16) (rising : Bool) (offset : Nat) (s : State) : Host.Outcome State Fault Refusal :=
  run (whenAx fun s => captureEvent s c.val rising offset) s

/-- CAPTURE_RECORD_READ: a READ of OD 7520+c:07 (R306). -/
def execCaptureRecordRead (c : ClientId) (txn : BitVec 16) (line : Fin 16) (s : State) : Host.Outcome State Fault Refusal :=
  run (fun s => request s c 1 txn.toNat (capIdx line.val) 7 1 none fun s => serveRead s c 1 txn.toNat (capIdx line.val) 7) s

/-- CAPTURE_REREF_ARM: OD 7520+c:0A (R308). -/
def execCaptureRerefArm (w : WriteCtx) (c : Fin 16) (v : BitVec 64) (s : State) : Host.Outcome State Fault Refusal :=
  run (put w (capIdx c.val) 0x0A 8 v.toNat) s

/-- LIMIT_INPUT_EDGE (R309): positive limit, negative limit or home, stamped `ago` ns before the present boundary. -/
def execLimitInputEdge (a : Fin 32) (which : Fin 3) (ago : Nat) (s : State) : Host.Outcome State Fault Refusal :=
  run (whenAx fun s => limitEdge s a.val which.val ago) s

/-- LIMIT_INPUT_REARM (R309): the release edge lies `releaseAgo` ns back. -/
def execLimitInputRearm (a : Fin 32) (which : Fin 3) (releaseAgo : Nat) (s : State) : Host.Outcome State Fault Refusal :=
  run (whenAx fun s => limitRearm s a.val which.val releaseAgo) s

/-- HOMING_START: OD 5A00+a:0C (R311). -/
def execHomingStart (w : WriteCtx) (a : Fin 32) (s : State) : Host.Outcome State Fault Refusal := run (put w (homIdx a.val) 0x0C 1 1) s

/-- HARD_STOP_DWELL (R312). -/
def execHardStopDwell (a : Fin 32) (s : State) : Host.Outcome State Fault Refusal := run (whenAx fun s => hardStop s a.val) s

/-- HOMING_COMPLETE (R314). -/
def execHomingComplete (a : Fin 32) (s : State) : Host.Outcome State Fault Refusal := run (whenCx fun s => homingDone s a.val) s

end Sys2Proof.Machine
end

