-- ==== Sys2Proof/Machine/CmdOstler.lean ====
section
/-! DEFINITION. Commands of the Ostler: declarations, migrations, retests, evacuations and self-tests. An item kind counts channel, axis, task from 0; the dictionary counts it from 1 (R378). -/

namespace Sys2Proof.Machine

/-- A command record of OD A010:01 (R399). -/
def ostlerBytes (op kind item unit : Nat) : List Byte :=
  leBytes 1 op ++ leBytes 1 kind ++ leBytes 2 item ++ leBytes 1 unit ++ [0, 0, 0]

/-- DECLARE_RECORD_WRITE: OD A000:0B (R378). -/
def execDeclareRecordWrite (w : WriteCtx) (data : List Byte) (s : State) : Host.Outcome State Fault Refusal :=
  run (fun s => serveWrite s w 0xA000 0x0B data) s

/-- MIGRATION_START (R386). -/
def execMigrationStart (kind : Fin 3) (item : Fin 4096) (target : Fin 104) (s : State) : Host.Outcome State Fault Refusal :=
  run (whenCx fun s => migrationStart s (kind.val + 1) item.val target.val) s

/-- MIGRATION_COPY_COMPLETE (R386). -/
def execMigrationCopyComplete (kind : Fin 3) (item : Fin 4096) (s : State) : Host.Outcome State Fault Refusal :=
  run (whenCx fun s => copyComplete s (kind.val + 1) item.val) s

/-- MIGRATION_COMPARE (R387, R388). -/
def execMigrationCompare (kind : Fin 3) (item : Fin 4096) (equal : Bool) (s : State) : Host.Outcome State Fault Refusal :=
  run (whenCx fun s => compareMig s (kind.val + 1) item.val equal) s

/-- MIGRATION_SWITCH (R386). -/
def execMigrationSwitch (kind : Fin 3) (item : Fin 4096) (s : State) : Host.Outcome State Fault Refusal :=
  run (whenCx fun s => switchMig s (kind.val + 1) item.val) s

/-- MIGRATE: operation 1 of OD A010:01 (R385, R399). -/
def execMigrate (w : WriteCtx) (kind : Byte) (item : BitVec 16) (unit : Byte) (s : State) : Host.Outcome State Fault Refusal :=
  run (fun s => serveWrite s w 0xA010 1 (ostlerBytes 1 kind.toNat item.toNat unit.toNat)) s

/-- RETEST: operation 2 of OD A010:01 (R396, R399). -/
def execRetest (w : WriteCtx) (unit : Byte) (s : State) : Host.Outcome State Fault Refusal :=
  run (fun s => serveWrite s w 0xA010 1 (ostlerBytes 2 0 0 unit.toNat)) s

/-- EVACUATE: operation 3 of OD A010:01 (R397, R399). -/
def execEvacuate (w : WriteCtx) (region : Byte) (s : State) : Host.Outcome State Fault Refusal :=
  run (fun s => serveWrite s w 0xA010 1 (ostlerBytes 3 0 0 region.toNat)) s

/-- REBALANCE: operation 4 of OD A010:01 (R399). -/
def execRebalance (w : WriteCtx) (kind : Byte) (s : State) : Host.Outcome State Fault Refusal :=
  run (fun s => serveWrite s w 0xA010 1 (ostlerBytes 4 kind.toNat 0 0)) s

/-- ROTATION (R391). -/
def execRotation (s : State) : Host.Outcome State Fault Refusal := run (whenCx rotation) s

/-- SELF_TEST_COMPLETE (R392, R393, R396). -/
def execSelfTestComplete (u : Fin 104) (passed : Bool) (s : State) : Host.Outcome State Fault Refusal :=
  run (whenCx fun s => selfTest s u.val passed) s

/-- SPARE_COUNT_WRITE: OD A200+c:01 (R403). -/
def execSpareCountWrite (w : WriteCtx) (c : Fin 13) (v : Byte) (s : State) : Host.Outcome State Fault Refusal :=
  run (put w (clusterIdx c.val) 1 1 v.toNat) s

end Sys2Proof.Machine
end

