-- ==== Sys2Proof/Machine/CmdProgram.lean ====
section
/-! DEFINITION. Commands of the cyclic program, its tasks, its images, and of the scheduler. -/

namespace Sys2Proof.Machine

/-- The held effects of a completed cycle, carried out in program order (R334). (DEDUCED, notes/assumptions/167.md) -/
def takeEffect (i : Nat) (s : State) (e : Effect) : State :=
  match e with
  | .write index sub data ap => serveWrite s ⟨.program, 0, ap⟩ index.toNat sub.toNat data
  | .setObjects mask => setObjects s mask.toNat 3
  | .stream f w => if fifoProducer s f.val = 2 then (streamWrite s f.val (wordPayload w.toNat)).1 else s
  | .streamTaken f n => if s.rn (fifoIdx f.val) 2 = 2 then (drainWords s f.val n).2 else s
  | .libraryJob job =>
    enterItem (s.setProg { s.prog with jobs := setAt s.prog.jobs job (some i) }) ⟨.libraryJob, job, 0, 0xFF⟩

/-- A cycle in progress completes (R334). -/
def cycleDone (s : State) (i : Nat) (r : CycleResult) : State :=
  if (s.task i).running then r.effects.foldl (takeEffect i) (completeCycle s i r) else s

/-- A word of the producer of a FIFO, a trace or the program (R457, R458, R460). -/
def producerWord (s : State) (f w : Nat) : State := if fifoProducer s f = 0 then s else (streamWrite s f (wordPayload w)).1

/-- TASK_RELEASE (R332). -/
def execTaskRelease (i : Fin 64) (s : State) : Host.Outcome State Fault Refusal := run (whenCx fun s => takeRelease s i.val) s

/-- CYCLE_COMPLETE (R333, R334). -/
def execCycleComplete (i : Fin 64) (r : CycleResult) (s : State) : Host.Outcome State Fault Refusal := run (whenCx fun s => cycleDone s i.val r) s

/-- CYCLE_TRAP (R326). -/
def execCycleTrap (i : Fin 64) (s : State) : Host.Outcome State Fault Refusal := run (whenCx fun s => cycleTrap s i.val) s

/-- TASK_BUDGET_OVERRUN (R339). -/
def execTaskBudgetOverrun (i : Fin 64) (s : State) : Host.Outcome State Fault Refusal := run (whenCx fun s => budgetOverrun s i.val) s

/-- TASK_DEADLINE_MISS (R339). -/
def execTaskDeadlineMiss (i : Fin 64) (s : State) : Host.Outcome State Fault Refusal := run (whenCx fun s => deadlineMiss s i.val) s

/-- OVERRUN_REACTION (R340, R341). -/
def execOverrunReaction (i : Fin 64) (s : State) : Host.Outcome State Fault Refusal := run (whenCx fun s => overrunReaction s i.val) s

/-- PROGRAM_RUN: 0x01 to OD 8000:03 (R344, R347). -/
def execProgramRun (w : WriteCtx) (s : State) : Host.Outcome State Fault Refusal := run (put w 0x8000 3 1 1) s

/-- PROGRAM_STOP: 0x02 to OD 8000:03 (R344). -/
def execProgramStop (w : WriteCtx) (s : State) : Host.Outcome State Fault Refusal := run (put w 0x8000 3 1 2) s

/-- PROGRAM_HOLD: 0x01 to OD 8000:04 (R346). -/
def execProgramHold (w : WriteCtx) (s : State) : Host.Outcome State Fault Refusal := run (put w 0x8000 4 1 1) s

/-- PROGRAM_RESUME: 0x02 to OD 8000:04 (R346). -/
def execProgramResume (w : WriteCtx) (s : State) : Host.Outcome State Fault Refusal := run (put w 0x8000 4 1 2) s

/-- PROGRAM_STEP: 0x03 to OD 8000:04 (R344). -/
def execProgramStep (w : WriteCtx) (s : State) : Host.Outcome State Fault Refusal := run (put w 0x8000 4 1 3) s

/-- BREAKPOINT_HIT (R346). -/
def execBreakpointHit (b : Fin 16) (i : Fin 64) (s : State) : Host.Outcome State Fault Refusal := run (whenCx fun s => breakpointHit s b.val i.val) s

/-- HOLD_TIMEOUT (R346). -/
def execHoldTimeout (s : State) : Host.Outcome State Fault Refusal := run (whenCx holdTimeout) s

/-- RETAIN_COMMIT (R350). -/
def execRetainCommit (s : State) : Host.Outcome State Fault Refusal := run (whenCx retainCommit) s

/-- PROGRAM_IMAGE_SEGMENT: a WRITE_SEGMENT of OD 8010:03 (R79, R354). -/
def execProgramImageSegment (c : ClientId) (m : DazMsg) (s : State) : Host.Outcome State Fault Refusal := run (fun s => segmentOf s c m 0x8010 3) s

/-- IMAGE_VERIFY: 0x01 to OD 8010:05 (R354). -/
def execImageVerify (w : WriteCtx) (s : State) : Host.Outcome State Fault Refusal := run (put w 0x8010 5 1 1) s

/-- PROGRAM_EXCHANGE: 0x02 to OD 8010:05 (R357). -/
def execProgramExchange (w : WriteCtx) (s : State) : Host.Outcome State Fault Refusal := run (put w 0x8010 5 1 2) s

/-- EXCHANGE_SWITCH (R358). -/
def execExchangeSwitch (s : State) : Host.Outcome State Fault Refusal := run (whenCx exchangeSwitch) s

/-- EXCHANGE_PAUSE_LIMIT (R358). -/
def execExchangePauseLimit (s : State) : Host.Outcome State Fault Refusal := run (whenCx pauseLimit) s

/-- PROGRAM_DOWNLOAD: 0x03 to OD 8010:05 (R360). -/
def execProgramDownload (w : WriteCtx) (s : State) : Host.Outcome State Fault Refusal := run (put w 0x8010 5 1 3) s

/-- IMAGE_DISCARD: 0x04 to OD 8010:05 (R362). -/
def execImageDiscard (w : WriteCtx) (s : State) : Host.Outcome State Fault Refusal := run (put w 0x8010 5 1 4) s

/-- RESET_RETAIN: 0x01 to OD 8020:0A (R347). -/
def execResetRetain (w : WriteCtx) (s : State) : Host.Outcome State Fault Refusal := run (put w 0x8020 0x0A 1 1) s

/-- RESET_RETAIN_PERSISTENT: 0x02 to OD 8020:0A (R347). -/
def execResetRetainPersistent (w : WriteCtx) (s : State) : Host.Outcome State Fault Refusal := run (put w 0x8020 0x0A 1 2) s

/-- TASK_RESTART: OD 8100+i:1B (R341). -/
def execTaskRestart (w : WriteCtx) (i : Fin 64) (s : State) : Host.Outcome State Fault Refusal := run (put w (taskIdx i.val) 0x1B 1 1) s

/-- TASK_CLEAR_STATISTICS: OD 8100+i:1A (R365). -/
def execTaskClearStatistics (w : WriteCtx) (i : Fin 64) (s : State) : Host.Outcome State Fault Refusal := run (put w (taskIdx i.val) 0x1A 1 1) s

/-- TASK_LEAD_POSITIONS_WRITE: OD 8100+i:08 (R365). -/
def execTaskLeadPositionsWrite (w : WriteCtx) (i : Fin 64) (positions : List (BitVec 64)) (s : State) : Host.Outcome State Fault Refusal :=
  run (fun s => serveWrite s w (taskIdx i.val) 8 (positions.flatMap fun p => leBytes 8 p.toNat)) s

/-- TASK_BUDGET_WRITE: OD 8100+i:0C (R337). -/
def execTaskBudgetWrite (w : WriteCtx) (i : Fin 64) (v : BitVec 32) (s : State) : Host.Outcome State Fault Refusal :=
  run (put w (taskIdx i.val) 0x0C 4 v.toNat) s

/-- LIBRARY_JOB_COMPLETE (R369). -/
def execLibraryJobComplete (job : Nat) (i : Fin 64) (result : List Byte) (s : State) : Host.Outcome State Fault Refusal :=
  run (whenCx fun s => jobComplete s job i.val result) s

/-- WORK_ITEM_ENTER (R371). -/
def execWorkItemEnter (item : WorkItem) (s : State) : Host.Outcome State Fault Refusal := run (whenCx fun s => enterItem s item) s

/-- WORK_ITEM_COMPLETE (R372). -/
def execWorkItemComplete (core : Fin 8) (s : State) : Host.Outcome State Fault Refusal := run (whenCx fun s => completeItem s core.val) s

/-- STREAM_WORD_WRITE (R460). -/
def execStreamWordWrite (f : Fin 256) (word : BitVec 72) (s : State) : Host.Outcome State Fault Refusal :=
  run (whenCx fun s => producerWord s f.val word.toNat) s

end Sys2Proof.Machine
end

