-- ==== Sys2Proof/Machine/CmdRecord.lean ====
section
/-! DEFINITION. Commands of the recorder, stream FIFOs and SSDs. -/

namespace Sys2Proof.Machine

/-- TICK_ASSEMBLY (R456). -/
def execTickAssembly (s : State) : Host.Outcome State Fault Refusal := run (whenCx assembleTick) s

/-- SHED_TIMER (R467). -/
def execShedTimer (s : State) : Host.Outcome State Fault Refusal := run (whenCx shedTimer) s

/-- CHUNK_CLOSE (R464, R465). -/
def execChunkClose (s : State) : Host.Outcome State Fault Refusal := run (whenCx chunkClose) s

/-- CHUNK_WRITTEN (R473). -/
def execChunkWritten (d : Fin 2) (s : State) : Host.Outcome State Fault Refusal := run (whenCx fun s => chunkWritten s d.val) s

/-- STREAM_FLUSH_TIMEOUT (R461). -/
def execStreamFlushTimeout (f : Fin 256) (s : State) : Host.Outcome State Fault Refusal := run (whenCx fun s => streamFlush s f.val) s

/-- STREAM_FIFO_READ: a READ of OD 9100+f:09 (R462). -/
def execStreamFifoRead (c : ClientId) (txn : BitVec 16) (f : Fin 256) (s : State) : Host.Outcome State Fault Refusal :=
  run (fun s => request s c 1 txn.toNat (fifoIdx f.val) 9 1 none fun s => serveRead s c 1 txn.toNat (fifoIdx f.val) 9) s

/-- SSD_LINK_UP (R476). -/
def execSsdLinkUp (d : Fin 2) (link : Byte) (s : State) : Host.Outcome State Fault Refusal := run (whenCx fun s => ssdUp s d.val link.toNat) s

/-- SSD_PROBE_COMPLETE (R474, R476). -/
def execSsdProbeComplete (d : Fin 2) (r : ProbeResult) (s : State) : Host.Outcome State Fault Refusal := run (whenCx fun s => ssdProbed s d.val r) s

/-- SSD_FORMAT_COMPLETE (R476). -/
def execSsdFormatComplete (d : Fin 2) (s : State) : Host.Outcome State Fault Refusal := run (whenCx fun s => ssdFormatted s d.val) s

/-- SSD_LINK_LOSS (R479). -/
def execSsdLinkLoss (d : Fin 2) (s : State) : Host.Outcome State Fault Refusal := run (whenCx fun s => ssdLost s d.val) s

/-- SSD_WRITE_FAIL (R476): a failed write, or a SMART critical warning. -/
def execSsdWriteFail (f : SsdFail) (s : State) : Host.Outcome State Fault Refusal :=
  run (whenCx fun s => ssdFailed s f.drive.val f.smart) s

/-- PREPARE_REMOVE: 0x01 to OD 9200+d:02 (R478). -/
def execPrepareRemove (w : WriteCtx) (d : Fin 2) (s : State) : Host.Outcome State Fault Refusal := run (put w (ssdIdx d.val) 2 1 1) s

/-- FORMAT: 0x02 to OD 9200+d:02 (R478). -/
def execFormat (w : WriteCtx) (d : Fin 2) (s : State) : Host.Outcome State Fault Refusal := run (put w (ssdIdx d.val) 2 1 2) s

/-- RESUME: 0x03 to OD 9200+d:02 (R478). -/
def execResume (w : WriteCtx) (d : Fin 2) (s : State) : Host.Outcome State Fault Refusal := run (put w (ssdIdx d.val) 2 1 3) s

end Sys2Proof.Machine
end

