-- ==== Sys2Proof/Machine/Dispatch.lean ====
section
/-! DEFINITION. One arm for each command: a direct call of its meaning. -/

namespace Sys2Proof.Machine

def exec (i : Instr) (s : State) : Host.Outcome State Fault Refusal :=
  match i with
  | .baseTickBoundary => Sys2Proof.Machine.execBaseTickBoundary s
  | .lineCycleBoundary => Sys2Proof.Machine.execLineCycleBoundary s
  | .lineCycleLengthWrite w v => Sys2Proof.Machine.execLineCycleLengthWrite w v s
  | .timingReferenceWrite w v => Sys2Proof.Machine.execTimingReferenceWrite w v s
  | .ref10mQualified => Sys2Proof.Machine.execRef10mQualified s
  | .ref10mLoss => Sys2Proof.Machine.execRef10mLoss s
  | .paddockTrim => Sys2Proof.Machine.execPaddockTrim s
  | .linkFlitReceive l first second => Sys2Proof.Machine.execLinkFlitReceive l first second s
  | .bulkFlitRetransmit l good => Sys2Proof.Machine.execBulkFlitRetransmit l good s
  | .linkFailed l => Sys2Proof.Machine.execLinkFailed l s
  | .fxWatchdog => Sys2Proof.Machine.execFxWatchdog s
  | .dazRead c m => Sys2Proof.Machine.execDazRead c m s
  | .dazWrite c m => Sys2Proof.Machine.execDazWrite c m s
  | .readMulti c m => Sys2Proof.Machine.execReadMulti c m s
  | .writeMulti c m => Sys2Proof.Machine.execWriteMulti c m s
  | .readSegment c m => Sys2Proof.Machine.execReadSegment c m s
  | .writeSegment c m => Sys2Proof.Machine.execWriteSegment c m s
  | .info c m => Sys2Proof.Machine.execInfo c m s
  | .watch c m => Sys2Proof.Machine.execWatch c m s
  | .cancel c m => Sys2Proof.Machine.execCancel c m s
  | .registerWrite w index sub data => Sys2Proof.Machine.execRegisterWrite w index sub data s
  | .scheduledWriteDue c txn => Sys2Proof.Machine.execScheduledWriteDue c txn s
  | .segmentTimeout c index sub => Sys2Proof.Machine.execSegmentTimeout c index sub s
  | .dazSessionOpen uplink chainGood roles => Sys2Proof.Machine.execDazSessionOpen uplink chainGood roles s
  | .sessionIdleTimeout n => Sys2Proof.Machine.execSessionIdleTimeout n s
  | .tbModeWrite w n v => Sys2Proof.Machine.execTbModeWrite w n v s
  | .tbSetTime w n v => Sys2Proof.Machine.execTbSetTime w n v s
  | .syncReceived n m => Sys2Proof.Machine.execSyncReceived n m s
  | .announceReceived n m => Sys2Proof.Machine.execAnnounceReceived n m s
  | .syncLoss n => Sys2Proof.Machine.execSyncLoss n s
  | .announceTimeout n => Sys2Proof.Machine.execAnnounceTimeout n s
  | .ptpSyncSend p n => Sys2Proof.Machine.execPtpSyncSend p n s
  | .tb7Writeback => Sys2Proof.Machine.execTb7Writeback s
  | .leadSample n value velocity stamp => Sys2Proof.Machine.execLeadSample n value velocity stamp s
  | .leadSampleTimeout n => Sys2Proof.Machine.execLeadSampleTimeout n s
  | .leadStopComplete n => Sys2Proof.Machine.execLeadStopComplete n s
  | .leadSourceWrite w n isInst v => Sys2Proof.Machine.execLeadSourceWrite w n isInst v s
  | .leadRereference w n v => Sys2Proof.Machine.execLeadRereference w n v s
  | .leadResume w n => Sys2Proof.Machine.execLeadResume w n s
  | .virtualLeadCommand w n which v => Sys2Proof.Machine.execVirtualLeadCommand w n which v s
  | .actionFire id => Sys2Proof.Machine.execActionFire id s
  | .stopPinChange pin demand => Sys2Proof.Machine.execStopPinChange pin demand s
  | .reinChange => Sys2Proof.Machine.execReinChange s
  | .stopObjectSet w v => Sys2Proof.Machine.execStopObjectSet w v s
  | .stopObjectReset w v => Sys2Proof.Machine.execStopObjectReset w v s
  | .returningFrameCheck e k f => Sys2Proof.Machine.execReturningFrameCheck e k f s
  | .trainInputsReceived k first second late => Sys2Proof.Machine.execTrainInputsReceived k first second late s
  | .stationLost a => Sys2Proof.Machine.execStationLost a s
  | .discoverReturn e k base records counted => Sys2Proof.Machine.execDiscoverReturn e k base records counted s
  | .configureReturn e k statuses => Sys2Proof.Machine.execConfigureReturn e k statuses s
  | .delayMeasurement k tab records => Sys2Proof.Machine.execDelayMeasurement k tab records s
  | .stationConfigWrite w a sub v => Sys2Proof.Machine.execStationConfigWrite w a sub v s
  | .hobbleReleaseSeen e byNotice => Sys2Proof.Machine.execHobbleReleaseSeen e byNotice s
  | .engineSelfDemote e check => Sys2Proof.Machine.execEngineSelfDemote e check s
  | .engineRejoin w v => Sys2Proof.Machine.execEngineRejoin w v s
  | .ringBreak e k reach => Sys2Proof.Machine.execRingBreak e k reach s
  | .ringHeal k => Sys2Proof.Machine.execRingHeal k s
  | .healTimeout k => Sys2Proof.Machine.execHealTimeout k s
  | .coastEntry c => Sys2Proof.Machine.execCoastEntry c s
  | .coastLimit => Sys2Proof.Machine.execCoastLimit s
  | .coastExit => Sys2Proof.Machine.execCoastExit s
  | .coastRecordCommit n => Sys2Proof.Machine.execCoastRecordCommit n s
  | .henvyMember m => Sys2Proof.Machine.execHenvyMember m s
  | .henvyMemberSend => Sys2Proof.Machine.execHenvyMemberSend s
  | .henvyStop m objects => Sys2Proof.Machine.execHenvyStop m objects s
  | .henvyStopSend => Sys2Proof.Machine.execHenvyStopSend s
  | .henvyStopSilence number => Sys2Proof.Machine.execHenvyStopSilence number s
  | .henvyCandidateEnd => Sys2Proof.Machine.execHenvyCandidateEnd s
  | .prpPathDown path => Sys2Proof.Machine.execPrpPathDown path s
  | .channelSample n => Sys2Proof.Machine.execChannelSample n s
  | .channelInputFault n => Sys2Proof.Machine.execChannelInputFault n s
  | .channelEnable w n => Sys2Proof.Machine.execChannelEnable w n s
  | .channelDisable w n => Sys2Proof.Machine.execChannelDisable w n s
  | .channelCommit w n v => Sys2Proof.Machine.execChannelCommit w n v s
  | .channelOverrun n => Sys2Proof.Machine.execChannelOverrun n s
  | .traceDisarm w t => Sys2Proof.Machine.execTraceDisarm w t s
  | .traceArm w t => Sys2Proof.Machine.execTraceArm w t s
  | .traceTriggerNow w t => Sys2Proof.Machine.execTraceTriggerNow w t s
  | .axisSample n => Sys2Proof.Machine.execAxisSample n s
  | .axisEnable w n => Sys2Proof.Machine.execAxisEnable w n s
  | .axisDisable w n => Sys2Proof.Machine.execAxisDisable w n s
  | .moveAbs w n r => Sys2Proof.Machine.execMoveAbs w n r s
  | .moveRel w n r => Sys2Proof.Machine.execMoveRel w n r s
  | .moveVel w n r => Sys2Proof.Machine.execMoveVel w n r s
  | .stop w n r => Sys2Proof.Machine.execStop w n r s
  | .gearIn w n r => Sys2Proof.Machine.execGearIn w n r s
  | .ratio w n r => Sys2Proof.Machine.execRatio w n r s
  | .gearOut w n r => Sys2Proof.Machine.execGearOut w n r s
  | .reset w n r => Sys2Proof.Machine.execReset w n r s
  | .axisOverrun n => Sys2Proof.Machine.execAxisOverrun n s
  | .groupMoveAbs w g targets => Sys2Proof.Machine.execGroupMoveAbs w g targets s
  | .groupMoveRel w g distances => Sys2Proof.Machine.execGroupMoveRel w g distances s
  | .groupStop w g => Sys2Proof.Machine.execGroupStop w g s
  | .pwmPulse w ch => Sys2Proof.Machine.execPwmPulse w ch s
  | .holdAmplitudeDelay a => Sys2Proof.Machine.execHoldAmplitudeDelay a s
  | .encoderEdge e aLevel bLevel offset => Sys2Proof.Machine.execEncoderEdge e aLevel bLevel offset s
  | .encoderIndex e offset => Sys2Proof.Machine.execEncoderIndex e offset s
  | .encoderLineFault e => Sys2Proof.Machine.execEncoderLineFault e s
  | .ssiTransfer e word idleHigh monoflopLow parityGood => Sys2Proof.Machine.execSsiTransfer e word idleHigh monoflopLow parityGood s
  | .encoderClearStatus w e v => Sys2Proof.Machine.execEncoderClearStatus w e v s
  | .captureEvent c rising offset => Sys2Proof.Machine.execCaptureEvent c rising offset s
  | .captureRecordRead c txn line => Sys2Proof.Machine.execCaptureRecordRead c txn line s
  | .captureRerefArm w c v => Sys2Proof.Machine.execCaptureRerefArm w c v s
  | .limitInputEdge a which ago => Sys2Proof.Machine.execLimitInputEdge a which ago s
  | .limitInputRearm a which releaseAgo => Sys2Proof.Machine.execLimitInputRearm a which releaseAgo s
  | .homingStart w a => Sys2Proof.Machine.execHomingStart w a s
  | .hardStopDwell a => Sys2Proof.Machine.execHardStopDwell a s
  | .homingComplete a => Sys2Proof.Machine.execHomingComplete a s
  | .taskRelease k => Sys2Proof.Machine.execTaskRelease k s
  | .cycleComplete k r => Sys2Proof.Machine.execCycleComplete k r s
  | .cycleTrap k => Sys2Proof.Machine.execCycleTrap k s
  | .taskBudgetOverrun k => Sys2Proof.Machine.execTaskBudgetOverrun k s
  | .taskDeadlineMiss k => Sys2Proof.Machine.execTaskDeadlineMiss k s
  | .overrunReaction k => Sys2Proof.Machine.execOverrunReaction k s
  | .programRun w => Sys2Proof.Machine.execProgramRun w s
  | .programStop w => Sys2Proof.Machine.execProgramStop w s
  | .programHold w => Sys2Proof.Machine.execProgramHold w s
  | .programResume w => Sys2Proof.Machine.execProgramResume w s
  | .programStep w => Sys2Proof.Machine.execProgramStep w s
  | .breakpointHit b k => Sys2Proof.Machine.execBreakpointHit b k s
  | .holdTimeout => Sys2Proof.Machine.execHoldTimeout s
  | .retainCommit => Sys2Proof.Machine.execRetainCommit s
  | .programImageSegment c m => Sys2Proof.Machine.execProgramImageSegment c m s
  | .imageVerify w => Sys2Proof.Machine.execImageVerify w s
  | .programExchange w => Sys2Proof.Machine.execProgramExchange w s
  | .exchangeSwitch => Sys2Proof.Machine.execExchangeSwitch s
  | .exchangePauseLimit => Sys2Proof.Machine.execExchangePauseLimit s
  | .programDownload w => Sys2Proof.Machine.execProgramDownload w s
  | .imageDiscard w => Sys2Proof.Machine.execImageDiscard w s
  | .resetRetain w => Sys2Proof.Machine.execResetRetain w s
  | .resetRetainPersistent w => Sys2Proof.Machine.execResetRetainPersistent w s
  | .taskRestart w k => Sys2Proof.Machine.execTaskRestart w k s
  | .taskClearStatistics w k => Sys2Proof.Machine.execTaskClearStatistics w k s
  | .taskLeadPositionsWrite w k positions => Sys2Proof.Machine.execTaskLeadPositionsWrite w k positions s
  | .taskBudgetWrite w k v => Sys2Proof.Machine.execTaskBudgetWrite w k v s
  | .exportedVariableWrite w index sub data => Sys2Proof.Machine.execExportedVariableWrite w index sub data s
  | .libraryJobComplete job k result => Sys2Proof.Machine.execLibraryJobComplete job k result s
  | .workItemEnter item => Sys2Proof.Machine.execWorkItemEnter item s
  | .workItemComplete core => Sys2Proof.Machine.execWorkItemComplete core s
  | .declareRecordWrite w data => Sys2Proof.Machine.execDeclareRecordWrite w data s
  | .migrationStart kind item target => Sys2Proof.Machine.execMigrationStart kind item target s
  | .migrationCopyComplete kind item => Sys2Proof.Machine.execMigrationCopyComplete kind item s
  | .migrationCompare kind item equal => Sys2Proof.Machine.execMigrationCompare kind item equal s
  | .migrationSwitch kind item => Sys2Proof.Machine.execMigrationSwitch kind item s
  | .migrate w kind item unit => Sys2Proof.Machine.execMigrate w kind item unit s
  | .retest w unit => Sys2Proof.Machine.execRetest w unit s
  | .evacuate w region => Sys2Proof.Machine.execEvacuate w region s
  | .rebalance w kind => Sys2Proof.Machine.execRebalance w kind s
  | .rotation => Sys2Proof.Machine.execRotation s
  | .selfTestComplete u passed => Sys2Proof.Machine.execSelfTestComplete u passed s
  | .spareCountWrite w c v => Sys2Proof.Machine.execSpareCountWrite w c v s
  | .conversionTrigger t offset => Sys2Proof.Machine.execConversionTrigger t offset s
  | .triggerFire w t => Sys2Proof.Machine.execTriggerFire w t s
  | .triggerKindWrite w t v => Sys2Proof.Machine.execTriggerKindWrite w t v s
  | .triggerLeadPositionWrite w t v => Sys2Proof.Machine.execTriggerLeadPositionWrite w t v s
  | .conversionStart a offset => Sys2Proof.Machine.execConversionStart a offset s
  | .conversionLatch a nanovolts => Sys2Proof.Machine.execConversionLatch a nanovolts s
  | .referenceCheck a r => Sys2Proof.Machine.execReferenceCheck a r s
  | .inputRangeWrite w k v => Sys2Proof.Machine.execInputRangeWrite w k v s
  | .aoutModeWrite w o v => Sys2Proof.Machine.execAoutModeWrite w o v s
  | .aoutLossTimeout o => Sys2Proof.Machine.execAoutLossTimeout o s
  | .aoutFault o f => Sys2Proof.Machine.execAoutFault o f s
  | .diEdgeAccept k level stamp => Sys2Proof.Machine.execDiEdgeAccept k level stamp s
  | .inputTypeWrite w g v => Sys2Proof.Machine.execInputTypeWrite w g v s
  | .wireBreak k => Sys2Proof.Machine.execWireBreak k s
  | .fieldUplinkFrame good => Sys2Proof.Machine.execFieldUplinkFrame good s
  | .fieldDownlinkFrame good => Sys2Proof.Machine.execFieldDownlinkFrame good s
  | .outputEdge w o v => Sys2Proof.Machine.execOutputEdge w o v s
  | .outputFault o f => Sys2Proof.Machine.execOutputFault o f s
  | .outputRetry o => Sys2Proof.Machine.execOutputRetry o s
  | .outputFaultCountClear o => Sys2Proof.Machine.execOutputFaultCountClear o s
  | .outputReset w o => Sys2Proof.Machine.execOutputReset w o s
  | .lplusSample q millivolts => Sys2Proof.Machine.execLplusSample q millivolts s
  | .lplusOutputRestart q => Sys2Proof.Machine.execLplusOutputRestart q s
  | .fieldLinkLoss => Sys2Proof.Machine.execFieldLinkLoss s
  | .fieldLinkRecover => Sys2Proof.Machine.execFieldLinkRecover s
  | .doLossTimeout o => Sys2Proof.Machine.execDoLossTimeout o s
  | .openLoad o => Sys2Proof.Machine.execOpenLoad o s
  | .tickAssembly => Sys2Proof.Machine.execTickAssembly s
  | .shedTimer => Sys2Proof.Machine.execShedTimer s
  | .chunkClose => Sys2Proof.Machine.execChunkClose s
  | .chunkWritten d => Sys2Proof.Machine.execChunkWritten d s
  | .streamWordWrite f word => Sys2Proof.Machine.execStreamWordWrite f word s
  | .streamFlushTimeout f => Sys2Proof.Machine.execStreamFlushTimeout f s
  | .streamFifoRead c txn f => Sys2Proof.Machine.execStreamFifoRead c txn f s
  | .ssdLinkUp d link => Sys2Proof.Machine.execSsdLinkUp d link s
  | .ssdProbeComplete d r => Sys2Proof.Machine.execSsdProbeComplete d r s
  | .ssdFormatComplete d => Sys2Proof.Machine.execSsdFormatComplete d s
  | .ssdLinkLoss d => Sys2Proof.Machine.execSsdLinkLoss d s
  | .ssdWriteFail f => Sys2Proof.Machine.execSsdWriteFail f s
  | .prepareRemove w d => Sys2Proof.Machine.execPrepareRemove w d s
  | .format w d => Sys2Proof.Machine.execFormat w d s
  | .resume w d => Sys2Proof.Machine.execResume w d s
  | .modeRequest w v => Sys2Proof.Machine.execModeRequest w v s
  | .configImageSegment c m => Sys2Proof.Machine.execConfigImageSegment c m s
  | .configVerify w => Sys2Proof.Machine.execConfigVerify w s
  | .configActivate w => Sys2Proof.Machine.execConfigActivate w s
  | .configDiscard w => Sys2Proof.Machine.execConfigDiscard w s
  | .recipeStart w k => Sys2Proof.Machine.execRecipeStart w k s
  | .recipePause w k => Sys2Proof.Machine.execRecipePause w k s
  | .recipeResume w k => Sys2Proof.Machine.execRecipeResume w k s
  | .recipeAbort w k => Sys2Proof.Machine.execRecipeAbort w k s
  | .recipeAdvance w k => Sys2Proof.Machine.execRecipeAdvance w k s
  | .stepEnd k => Sys2Proof.Machine.execStepEnd k s
  | .liveValueCapture w => Sys2Proof.Machine.execLiveValueCapture w s
  | .powerOn => Sys2Proof.Machine.execPowerOn s
  | .startupStepComplete r => Sys2Proof.Machine.execStartupStepComplete r s
  | .acquisitionTimeout => Sys2Proof.Machine.execAcquisitionTimeout s
  | .resetAssert => Sys2Proof.Machine.execResetAssert s
  | .resetRelease => Sys2Proof.Machine.execResetRelease s
  | .inputFuseOpen => Sys2Proof.Machine.execInputFuseOpen s
  | .powerFailWarning => Sys2Proof.Machine.execPowerFailWarning s
  | .shutdownStep => Sys2Proof.Machine.execShutdownStep s
  | .undervoltageLockout sincePfwMicros => Sys2Proof.Machine.execUndervoltageLockout sincePfwMicros s
  | .powerFailClear => Sys2Proof.Machine.execPowerFailClear s
  | .declareClear => Sys2Proof.Machine.execDeclareClear s
  | .firmwarePackageSegment c m => Sys2Proof.Machine.execFirmwarePackageSegment c m s
  | .firmwareVerify w => Sys2Proof.Machine.execFirmwareVerify w s
  | .firmwareCommit w => Sys2Proof.Machine.execFirmwareCommit w s
  | .firmwareCommitAndLock w => Sys2Proof.Machine.execFirmwareCommitAndLock w s
  | .firmwareDiscard w => Sys2Proof.Machine.execFirmwareDiscard w s
  | .regionUpdate w v => Sys2Proof.Machine.execRegionUpdate w v s
  | .regionUpdateComplete failedUnits => Sys2Proof.Machine.execRegionUpdateComplete failedUnits s
  | .restartCommand w => Sys2Proof.Machine.execRestartCommand w s
  | .cbWatchdog => Sys2Proof.Machine.execCbWatchdog s
  | .fabricParityError => Sys2Proof.Machine.execFabricParityError s
  | .warmRestartReturn checkpointGood taskDataGood => Sys2Proof.Machine.execWarmRestartReturn checkpointGood taskDataGood s
  | .dramCorrectableError => Sys2Proof.Machine.execDramCorrectableError s
  | .dramUncorrectableError o => Sys2Proof.Machine.execDramUncorrectableError o s
  | .mramError k => Sys2Proof.Machine.execMramError k s
  | .clusterMemoryError e item => Sys2Proof.Machine.execClusterMemoryError e item s
  | .dramPatrolScrub => Sys2Proof.Machine.execDramPatrolScrub s
  | .governorUpdate hotSpot powerTenths => Sys2Proof.Machine.execGovernorUpdate hotSpot powerTenths s
  | .thermalTrip d => Sys2Proof.Machine.execThermalTrip d s
  | .paddockVbatCompare millivolts => Sys2Proof.Machine.execPaddockVbatCompare millivolts s
  | .paddockPowerReturn => Sys2Proof.Machine.execPaddockPowerReturn s
  | .paddockCaseSample isOpen => Sys2Proof.Machine.execPaddockCaseSample isOpen s
  | .paddockTempSample celsius => Sys2Proof.Machine.execPaddockTempSample celsius s
  | .vbatBrownout => Sys2Proof.Machine.execVbatBrownout s
  | .wakePulseEnd => Sys2Proof.Machine.execWakePulseEnd s
  | .paddockClearLog w => Sys2Proof.Machine.execPaddockClearLog w s
  | .ppsInEdge offset => Sys2Proof.Machine.execPpsInEdge offset s
  | .henvyEnable w => Sys2Proof.Machine.execHenvyEnable w s
  | .dazSessionClose n => Sys2Proof.Machine.execDazSessionClose n s
  | .announceSend p n => Sys2Proof.Machine.execAnnounceSend p n s
  | .delayRequestSend p n => Sys2Proof.Machine.execDelayRequestSend p n s
  | .delayRequestReceived p n requester seq => Sys2Proof.Machine.execDelayRequestReceived p n requester seq s
  | .delayResponseReceived p n seq delay => Sys2Proof.Machine.execDelayResponseReceived p n seq delay s
  | .preemptionVerify u verified => Sys2Proof.Machine.execPreemptionVerify u verified s
  | .prpSupervisionSend => Sys2Proof.Machine.execPrpSupervisionSend s
  | .prpPathUp path => Sys2Proof.Machine.execPrpPathUp path s
  | .thermalTripRelease => Sys2Proof.Machine.execThermalTripRelease s
  | .aoutFaultClear o f => Sys2Proof.Machine.execAoutFaultClear o f s
  | .lineFaultClear e => Sys2Proof.Machine.execLineFaultClear e s
  | .wireBreakClear k => Sys2Proof.Machine.execWireBreakClear k s
  | .openLoadClear o => Sys2Proof.Machine.execOpenLoadClear o s
  | .diePassesBringup d => Sys2Proof.Machine.execDiePassesBringup d s

end Sys2Proof.Machine
end

