-- ==== Sys2Proof/WellFormed.lean ====
section
/-! DEFINITION. When a command describes something that can reach the module: the bounds that its operands' types leave open. The
module's meaning is total, and asks nothing of it; a value that a dictionary write carries may be anything, and is refused where a rule
refuses it. -/

namespace Sys2Proof

/-- Stations of one ring (R130). -/
def ringLimit : Nat := 512

/-- Axes of one group (R265). -/
def groupLimit : Nat := 16

/-- Units of 0.625 ns in one base tick of 6,250 ns (R83, R306). -/
def edgeUnits : Nat := 10000

/-- ADC clocks of 12.5 ns in one base tick (R83, R409). -/
def adcClocks : Nat := 500

/-- Whether a channel, an axis or a task of that number exists (R211, R248, R327). -/
def itemExists (kind : Fin 3) (item : Fin 4096) : Bool :=
  kind.val = 0 || (kind.val = 1 && item.val < 2048) || item.val < 64

/-- Whether a command is well formed. -/
def Instr.wf (i : Instr) : Bool :=
  match i with
  | .baseTickBoundary => true
  | .lineCycleBoundary => true
  | .lineCycleLengthWrite .. => true
  | .timingReferenceWrite .. => true
  | .ref10mQualified => true
  | .ref10mLoss => true
  | .paddockTrim => true
  | .linkFlitReceive .. => true
  | .bulkFlitRetransmit .. => true
  | .linkFailed .. => true
  | .fxWatchdog => true
  | .dazRead .. => true
  | .dazWrite .. => true
  | .readMulti .. => true
  | .writeMulti .. => true
  | .readSegment .. => true
  | .writeSegment .. => true
  | .info .. => true
  | .watch .. => true
  | .cancel .. => true
  | .registerWrite .. => true
  | .scheduledWriteDue .. => true
  | .segmentTimeout .. => true
  | .dazSessionOpen .. => true
  | .sessionIdleTimeout .. => true
  | .tbModeWrite .. => true
  | .tbSetTime .. => true
  | .syncReceived .. => true
  | .announceReceived .. => true
  | .syncLoss .. => true
  | .announceTimeout .. => true
  | .ptpSyncSend .. => true
  | .tb7Writeback => true
  | .leadSample .. => true
  | .leadSampleTimeout .. => true
  | .leadStopComplete .. => true
  | .leadSourceWrite .. => true
  | .leadRereference .. => true
  | .leadResume .. => true
  | .virtualLeadCommand .. => true
  | .actionFire .. => true
  | .stopPinChange .. => true
  | .reinChange => true
  | .stopObjectSet .. => true
  | .stopObjectReset .. => true
  | .returningFrameCheck _ k f => f.slots.all (fun q => q.station.val / 512 = k.val) && f.stations.all fun a => a.val / 512 = k.val
  | .trainInputsReceived k first second _ => (first ++ second).all fun q => q.station.val / 512 = k.val
  | .stationLost .. => true
  | .discoverReturn _ _ base records _ => base + records.length ≤ ringLimit
  | .configureReturn _ k statuses => statuses.all fun p => p.1.val / 512 = k.val
  | .delayMeasurement _ _ records => records.length ≤ ringLimit
  | .stationConfigWrite .. => true
  | .hobbleReleaseSeen .. => true
  | .engineSelfDemote .. => true
  | .engineRejoin .. => true
  | .ringBreak _ _ reach => reach ≤ ringLimit
  | .ringHeal .. => true
  | .healTimeout .. => true
  | .coastEntry .. => true
  | .coastLimit => true
  | .coastExit => true
  | .coastRecordCommit .. => true
  | .henvyMember m => m.domains.length ≤ 8 && m.domains.all (· ≤ 127)
  | .henvyMemberSend => true
  | .henvyStop .. => true
  | .henvyStopSend => true
  | .henvyStopSilence .. => true
  | .henvyCandidateEnd => true
  | .prpPathDown .. => true
  | .channelSample .. => true
  | .channelInputFault .. => true
  | .channelEnable .. => true
  | .channelDisable .. => true
  | .channelCommit .. => true
  | .channelOverrun .. => true
  | .traceDisarm .. => true
  | .traceArm .. => true
  | .traceTriggerNow .. => true
  | .axisSample .. => true
  | .axisEnable .. => true
  | .axisDisable .. => true
  | .moveAbs .. => true
  | .moveRel .. => true
  | .moveVel .. => true
  | .stop .. => true
  | .gearIn .. => true
  | .ratio .. => true
  | .gearOut .. => true
  | .reset .. => true
  | .axisOverrun .. => true
  | .groupMoveAbs _ _ targets => targets.length ≤ groupLimit
  | .groupMoveRel _ _ distances => distances.length ≤ groupLimit
  | .groupStop .. => true
  | .pwmPulse .. => true
  | .holdAmplitudeDelay .. => true
  | .encoderEdge _ _ _ offset => offset < edgeUnits
  | .encoderIndex _ offset => offset < edgeUnits
  | .encoderLineFault .. => true
  | .ssiTransfer .. => true
  | .encoderClearStatus .. => true
  | .captureEvent _ _ offset => offset < edgeUnits
  | .captureRecordRead .. => true
  | .captureRerefArm .. => true
  | .limitInputEdge .. => true
  | .limitInputRearm .. => true
  | .homingStart .. => true
  | .hardStopDwell .. => true
  | .homingComplete .. => true
  | .taskRelease .. => true
  | .cycleComplete .. => true
  | .cycleTrap .. => true
  | .taskBudgetOverrun .. => true
  | .taskDeadlineMiss .. => true
  | .overrunReaction .. => true
  | .programRun .. => true
  | .programStop .. => true
  | .programHold .. => true
  | .programResume .. => true
  | .programStep .. => true
  | .breakpointHit .. => true
  | .holdTimeout => true
  | .retainCommit => true
  | .programImageSegment .. => true
  | .imageVerify .. => true
  | .programExchange .. => true
  | .exchangeSwitch => true
  | .exchangePauseLimit => true
  | .programDownload .. => true
  | .imageDiscard .. => true
  | .resetRetain .. => true
  | .resetRetainPersistent .. => true
  | .taskRestart .. => true
  | .taskClearStatistics .. => true
  | .taskLeadPositionsWrite _ _ positions => positions.length ≤ 16
  | .taskBudgetWrite .. => true
  | .exportedVariableWrite .. => true
  | .libraryJobComplete .. => true
  | .workItemEnter .. => true
  | .workItemComplete .. => true
  | .declareRecordWrite .. => true
  | .migrationStart kind item _ => itemExists kind item
  | .migrationCopyComplete kind item => itemExists kind item
  | .migrationCompare kind item _ => itemExists kind item
  | .migrationSwitch kind item => itemExists kind item
  | .migrate .. => true
  | .retest .. => true
  | .evacuate .. => true
  | .rebalance .. => true
  | .rotation => true
  | .selfTestComplete .. => true
  | .spareCountWrite .. => true
  | .conversionTrigger _ offset => offset < adcClocks
  | .triggerFire .. => true
  | .triggerKindWrite .. => true
  | .triggerLeadPositionWrite .. => true
  | .conversionStart _ offset => offset ≤ adcClocks
  | .conversionLatch .. => true
  | .referenceCheck .. => true
  | .inputRangeWrite .. => true
  | .aoutModeWrite .. => true
  | .aoutLossTimeout .. => true
  | .aoutFault .. => true
  | .diEdgeAccept .. => true
  | .inputTypeWrite .. => true
  | .wireBreak .. => true
  | .fieldUplinkFrame .. => true
  | .fieldDownlinkFrame .. => true
  | .outputEdge .. => true
  | .outputFault .. => true
  | .outputRetry .. => true
  | .outputFaultCountClear .. => true
  | .outputReset .. => true
  | .lplusSample .. => true
  | .lplusOutputRestart .. => true
  | .fieldLinkLoss => true
  | .fieldLinkRecover => true
  | .doLossTimeout .. => true
  | .openLoad .. => true
  | .tickAssembly => true
  | .shedTimer => true
  | .chunkClose => true
  | .chunkWritten .. => true
  | .streamWordWrite .. => true
  | .streamFlushTimeout .. => true
  | .streamFifoRead .. => true
  | .ssdLinkUp .. => true
  | .ssdProbeComplete .. => true
  | .ssdFormatComplete .. => true
  | .ssdLinkLoss .. => true
  | .ssdWriteFail .. => true
  | .prepareRemove .. => true
  | .format .. => true
  | .resume .. => true
  | .modeRequest .. => true
  | .configImageSegment .. => true
  | .configVerify .. => true
  | .configActivate .. => true
  | .configDiscard .. => true
  | .recipeStart .. => true
  | .recipePause .. => true
  | .recipeResume .. => true
  | .recipeAbort .. => true
  | .recipeAdvance .. => true
  | .stepEnd .. => true
  | .liveValueCapture .. => true
  | .powerOn => true
  | .startupStepComplete .. => true
  | .acquisitionTimeout => true
  | .resetAssert => true
  | .resetRelease => true
  | .inputFuseOpen => true
  | .powerFailWarning => true
  | .shutdownStep => true
  | .undervoltageLockout .. => true
  | .powerFailClear => true
  | .declareClear => true
  | .firmwarePackageSegment .. => true
  | .firmwareVerify .. => true
  | .firmwareCommit .. => true
  | .firmwareCommitAndLock .. => true
  | .firmwareDiscard .. => true
  | .regionUpdate .. => true
  | .regionUpdateComplete .. => true
  | .restartCommand .. => true
  | .cbWatchdog => true
  | .fabricParityError => true
  | .warmRestartReturn .. => true
  | .dramCorrectableError => true
  | .dramUncorrectableError .. => true
  | .mramError .. => true
  | .clusterMemoryError e item => itemExists e.kind item
  | .dramPatrolScrub => true
  | .governorUpdate .. => true
  | .thermalTrip .. => true
  | .paddockVbatCompare .. => true
  | .paddockPowerReturn => true
  | .paddockCaseSample .. => true
  | .paddockTempSample .. => true
  | .vbatBrownout => true
  | .wakePulseEnd => true
  | .paddockClearLog .. => true
  | .ppsInEdge .. => true
  | .henvyEnable .. => true
  | .dazSessionClose .. => true
  | .announceSend .. => true
  | .delayRequestSend .. => true
  | .delayRequestReceived .. => true
  | .delayResponseReceived .. => true
  | .preemptionVerify .. => true
  | .prpSupervisionSend => true
  | .prpPathUp .. => true
  | .thermalTripRelease => true
  | .aoutFaultClear .. => true
  | .lineFaultClear .. => true
  | .wireBreakClear .. => true
  | .openLoadClear .. => true
  | .diePassesBringup .. => true

/-- Whether every command of a queue is well formed. -/
def queueWf (q : List Instr) : Bool := q.all Instr.wf

end Sys2Proof
end

