-- ==== Sys2Proof/Safety.lean ====
section
/-! DEFINITION. Safe runs and the words that statements use: when a request is served, when a write is accepted, and what a command
does. -/

namespace Sys2Proof

/-- A step that answers a next state: the block goes on. -/
def goesOn (s : Machine.State) : Prop := ∃ t, Machine.step s = .next t

namespace Machine

/-- The bounds that the Hobble hardware holds (R178): what NA may reach and what NB may reach never overlap on any ring. -/
abbrev boundsApart (s : State) : Prop :=
  ∀ k, k < 4 → getAt 0 s.na.held k + getAt 0 s.nb.held k ≤ ringN s k

/-- A request of this client reaches the dictionary server: the client is there, CX runs, and the client is within its outstanding
requests (R65, R81, R82). -/
abbrev served (s : State) (c : ClientId) : Prop :=
  clientLive s c = true ∧ s.cxUp = true ∧ atLimit (asked s c) c = false

/-- The first cause of R65 that refuses a WRITE of one entry, if any does. -/
def refusalOf (s : State) (w : WriteCtx) (index sub : Nat) (data : List Byte) : Option (Nat × Elem) :=
  writeRefusal (asked s w.client) w.client w.apply [⟨index, sub, .oct data⟩]
    (codeIf (writeLength w.apply data > messageLimit w.client) abMalformed)

/-- No cause of R65 refuses a WRITE of one entry. -/
abbrev accepted (s : State) (w : WriteCtx) (index sub : Nat) (data : List Byte) : Prop := refusalOf s w index sub data = none

/-- The state in which an accepted WRITE of one entry leaves the block: applied, kept for its line-cycle boundary, or scheduled. -/
def afterWrite (s : State) (w : WriteCtx) (index sub : Nat) (data : List Byte) : State :=
  settle s (acceptWrite (asked s w.client) 0x02 w.client w.txn.toNat w.apply [⟨index, sub, .oct data⟩])

/-- A command writes one entry: where the request is served and nothing refuses it, the command answers the state after that write. -/
def Writes (c : Instr) (w : WriteCtx) (index sub : Nat) (data : List Byte) : Prop :=
  ∀ s, served s w.client → accepted s w index sub data → exec c s = .next (afterWrite s w index sub data)

/-- A command has an effect in every state that meets a condition. -/
def Does (c : Instr) (cond : State → Prop) (effect : State → State) : Prop :=
  ∀ s, cond s → exec c s = .next (settle s (effect s))

/-- The command answers the settled state of an effect that a property describes. -/
def Touches (c : Instr) (cond : State → Prop) (p : State → State → Prop) : Prop :=
  ∀ s, cond s → ∃ t, exec c s = .next (settle s t) ∧ p s t

/-- Whatever the state, the command answers the settled state of an effect that a property describes. -/
def Leaves (c : Instr) (p : State → State → Prop) : Prop := Touches c (fun _ => True) p

/-- An axis command record with an opcode (R257). -/
def commandRecord (op : Nat) (r : AxisCmd) : List Byte :=
  [BitVec.ofNat 8 op, r.flags, r.lead, r.pastDue] ++ leBytes 8 r.a.toNat ++ leBytes 8 r.b.toNat ++ leBytes 4 r.num.toNat ++
    leBytes 4 r.den.toNat ++ leBytes 4 r.dist.toNat

/-- A group command record with an opcode and targets, 16 of them where fewer are given (R284). -/
def groupRecordBytes (op : Nat) (l : List (BitVec 64)) : List Byte :=
  [BitVec.ofNat 8 op, 0, 0, 0, 0, 0, 0, 0] ++ (l ++ List.replicate (16 - l.length) 0).flatMap fun (v : BitVec 64) => leBytes 8 v.toNat

/-- A read of an entry that nothing refuses and that fits one message of the client (R65, R77). -/
abbrev readable (s : State) (c : ClientId) (index sub : Nat) : Prop :=
  readCauses (asked s c) index sub = [] ∧ (peek (asked s c) index sub).length ≤ messageLimit c

/-- The state after a read of an entry is answered. -/
def afterRead (s : State) (c : ClientId) (txn index sub : Nat) : State :=
  let r := take (asked s c) index sub
  respond r.2 c 1 txn index sub 1 abOk r.1

/-- A segment that does not end its transfer, with no transfer open and no cause to refuse it (R76, R79). -/
abbrev takesSegment (c : ClientId) (m : DazMsg) (index sub : Nat) (s : State) : Prop :=
  headerGood c m = true ∧ m.count = 1 ∧ schedFlag m = false ∧ lastFlag m = false ∧ 4 ≤ m.data.length ∧ served s c ∧
    s.dict.transfers = [] ∧ s.dict.abandoned = [] ∧
    segmentCauses (asked s c) c index sub (leNat (slice m.data 0 4)) [] (m.data.drop 4) = []

/-- The state after a segment that nothing refuses and that does not end its transfer: its bytes are kept, and it is answered
(R79). -/
def keptSegment (s : State) (c : ClientId) (m : DazMsg) (index sub : Nat) : State :=
  let t := firstSegment (asked s c) index sub
  respond { t with dict := { t.dict with
      transfers := (t.dict.transfers.filter fun x => !(x.index = index && x.sub = sub)) ++
        [⟨c, index, sub, m.data.drop 4, t.clock.timClk⟩] } }
    c 6 m.txn.toNat index sub 1 abOk []

/-- The comparisons of one Lead target over consecutive base ticks (R116): the Lead's predicted position goes from `p` forward by
each of the steps; how many of the comparisons fire. -/
def forwardFires (target : Nat) : Nat → List Nat → Nat
  | _, [] => 0
  | p, d :: ds =>
    (if crossLead p ((p + d) % 2 ^ 64) 0 false target false = .wait then 0 else 1) + forwardFires target ((p + d) % 2 ^ 64) ds

/-- The same for a Lead that goes backward. -/
def backwardFires (target : Nat) : Nat → List Nat → Nat
  | _, [] => 0
  | p, d :: ds =>
    (if crossLead p ((p + 2 ^ 64 - d) % 2 ^ 64) 0 false target true = .wait then 0 else 1) +
      backwardFires target ((p + 2 ^ 64 - d) % 2 ^ 64) ds

/-- The module runs. -/
abbrev up (s : State) : Prop := s.on = true

/-- CX computes. -/
abbrev cxRuns (s : State) : Prop := s.on = true ∧ s.cxUp = true

/-- AX has not failed. -/
abbrev axRuns (s : State) : Prop := s.on = true ∧ s.axUp = true

/-- Function k serves. -/
abbrev servesFn (k : Nat) (s : State) : Prop := s.on = true ∧ s.cxUp = true ∧ s.serves k = true

end Machine

end Sys2Proof
end

