-- ==== Sys2Proof/Certificates/Slice0/Obligations.lean ====
section
/-! DEFINITION. The statements for the provers. `Does` says that a command answers the settled state of an effect wherever a condition
on the state holds, `Writes` that a dictionary write which nothing refuses answers the state after that write, `Touches` and `Leaves`
what an answered effect changes (Sys2Proof/Safety.lean). -/

section Statements

open Sys2Proof Sys2Proof.Machine

/-- The command at the front of the queue is the one that a step carries out, on the state with the rest of the queue. -/
def Obligations.StepTakesFrontCommand : Prop :=
  ∀ (s : State) (c : Instr) (rest : List Instr), s.pending = c :: rest → step s = exec c { s with pending := rest }

/-- With an empty queue the block stays as it is (the model's choice, notes/assumptions/6.md: the table has no row for time that
passes without an event). -/
def Obligations.EmptyQueueIdles : Prop := ∀ s : State, s.pending = [] → step s = .next s

/-- No step stops. Whatever the state and whatever command is at the front, the block answers a next state. -/
def Obligations.EveryStepGoesOn : Prop := ∀ s : State, goesOn s

/-- A step takes one command from the queue and puts none in. -/
def Obligations.StepTakesOneCommand : Prop := ∀ s t : State, step s = .next t → t.pending = s.pending.tail

/-- The two bounds of every ring never overlap, whatever command a step carries out. -/
def Obligations.HobbleBoundsKept : Prop := ∀ s t : State, boundsApart s → step s = .next t → boundsApart t

/-- The bounds do not overlap in the reset state. -/
def Obligations.ResetKeepsBounds : Prop := boundsApart State.reset

/-- What reset leaves: no command waits, nothing has left the module, no action is armed, no session is open, and the registers hold
their defaults: a line cycle of 160 base ticks of TB0, 16 sessions, no stop object set, the program in STOP. -/
def Obligations.ResetState : Prop :=
  State.reset.pending = [] ∧ State.reset.sent = [] ∧ State.reset.actions.armed = [] ∧ State.reset.dict.sessions = [] ∧
  State.reset.on = false ∧ State.reset.rn 0x2000 1 = 0 ∧ State.reset.rn 0x2000 3 = 160 ∧ State.reset.rn 0x3018 2 = 0 ∧
  ∀ index sub, State.reset.reg index sub = defaultVal index sub

/-- What follows from a command leaves every part of the machine alone that reactions do not reach: clock, time bases, ports, Leads,
links, stations, rings, Henvy but for its STOP count, what PRP knows, channels, axes, groups, everything of the local and the field I/O,
FIFOs, SSDs, the governor, health, the Paddock, the stop pins, and the queue. -/
def Obligations.ReactionsLeaveTheRest : Prop :=
  ∀ old s : State,
    let t := settle old s
    (t.clock = s.clock ∧ t.tbs = s.tbs ∧ t.ports = s.ports ∧ t.leads = s.leads ∧ t.links = s.links ∧ t.stations = s.stations ∧
      t.rings = s.rings ∧ t.henvy = { s.henvy with stopSeq := t.henvy.stopSeq } ∧ t.prp = { s.prp with seq := t.prp.seq } ∧
      t.taken = s.taken ∧ t.stored = s.stored) ∧
    (t.chans = s.chans ∧ t.axes = s.axes ∧ t.groups = s.groups ∧ t.pwms = s.pwms ∧ t.locals = s.locals ∧ t.encs = s.encs ∧
      t.caps = s.caps) ∧
    (t.convs = s.convs ∧ t.ains = s.ains ∧ t.trigs = s.trigs ∧ t.aouts = s.aouts ∧ t.dins = s.dins ∧ t.douts = s.douts ∧
      t.supplies = s.supplies ∧ t.field = s.field) ∧
    (t.fifos = s.fifos ∧ t.ssds = s.ssds ∧ t.gov = s.gov ∧ t.health = s.health ∧ t.paddock = s.paddock) ∧
    t.rein.pins = s.rein.pins ∧ t.pending = old.pending

/-- A Lead that moves in one direction, in steps of any length above 0 and less than half the range of LEADPOS in all, fires each
target exactly once if it passes over it and never otherwise: no target between two intervals is missed or repeated. -/
def Obligations.LeadCrossingFiresOnce : Prop :=
  ∀ (p target : Nat) (steps : List Nat), p < 2 ^ 64 → target < 2 ^ 64 → (∀ d ∈ steps, 0 < d) → steps.sum < 2 ^ 63 →
    forwardFires target p steps = (if (target + 2 ^ 64 - p) % 2 ^ 64 < steps.sum then 1 else 0) ∧
    backwardFires target p steps = (if (p + 2 ^ 64 - target) % 2 ^ 64 < steps.sum then 1 else 0)

/-- The test for past due, in both directions of a Lead and for a time base. A Lead in motion is looked at where it will be two base
ticks on, cut to whole lu (notes/assumptions/10.md). An action that is not past due and that nothing else refuses is armed. -/
def Obligations.PastDueTest : Prop :=
  ∀ (s : State) (n t : Nat),
    (∀ b, pastDue s (.tb n t) b = decide (t < predictTb s n 2)) ∧
    (∀ b, pastDue s .nextBoundary b = false) ∧
    (0 < (s.lead n).vel → (pastDue s (.lead n t) false = true ↔ diff64 t ((s.lead n).ahead 2) < 0)) ∧
    ((s.lead n).vel ≤ 0 → (pastDue s (.lead n t) false = true ↔ diff64 t (s.lead n).pos64 < 0)) ∧
    ((s.lead n).vel < 0 → (pastDue s (.lead n t) true = true ↔ 0 ≤ diff64 t ((s.lead n).ahead 2))) ∧
    (0 ≤ (s.lead n).vel → (pastDue s (.lead n t) true = true ↔ 0 ≤ diff64 t (s.lead n).pos64)) ∧
    ∀ k b attr rep w, pastDue s k b = false → actionAbort s k b attr rep = abOk →
      (armAction s k b attr rep w).actions.armed = s.actions.armed ++ [⟨s.actions.nextId, k, b, attr, rep, w, s.clock.tick, 0, 0⟩] ∧
      (armAction s k b attr rep w).actions.due = s.actions.due

/-- NEXT_LAP moves a past-due target by whole laps in its direction, keeps its fraction, brings it to a position that is not past
due, and no smaller number of laps would. -/
def Obligations.NextLapIsTheFirstLap : Prop :=
  ∀ (s : State) (n t : Nat) (b : Bool), t < 2 ^ 64 → pastDue s (.lead n t) b = true →
    let laps := lapsToMove s n t b
    let moved := moveLaps t laps b
    moved % 2 ^ 32 = t % 2 ^ 32 ∧ 1 ≤ laps ∧ pastDue s (.lead n moved) b = false ∧
      ∀ k, k < laps → pastDue s (.lead n (moveLaps t k b)) b = true

/-- What is done with a past-due action by its attribute: LATE_FIRE, where nothing else refuses it, is due at the boundary two base
ticks on with LATE set and is counted; LATE_REJECT is refused with PAST_DUE unless the table is full, and arms nothing; NEXT_LAP, where
nothing refuses it, is armed with its target moved, NEXT_LAP set and the laps kept, and counted. -/
def Obligations.PastDueHandling : Prop :=
  ∀ (s : State) (k : ActionKind) (b rep : Bool) (w : Work), pastDue s k b = true →
    (actionAbort s k b 0 rep = abOk →
     let t := armAction s k b 0 rep w
     t.actions.armed = s.actions.armed ∧
       t.actions.due = s.actions.due ++ [⟨⟨s.actions.nextId, k, b, 0, rep, w, s.clock.tick, statLate, 0⟩, s.clock.tick + 2, 0⟩] ∧
       t.rn 0x2050 4 = (lateness s k b).1 % 2 ^ 32 ∧ t.rn 0x2050 5 = (lateness s k b).2 % 2 ^ 32 ∧
       (s.rn 0x2050 3 + 1 < 2 ^ 32 → t.rn 0x2050 3 = s.rn 0x2050 3 + 1)) ∧
    (s.actions.armed.length < 4096 →
      actionAbort s k b 1 rep = abPastDue ∧ (armAction s k b 1 rep w).actions = s.actions ∧
        (s.rn 0x2050 6 + 1 < 2 ^ 32 → (armAction s k b 1 rep w).rn 0x2050 6 = s.rn 0x2050 6 + 1)) ∧
    (∀ n x, k = .lead n x → actionAbort s k b 2 rep = abOk →
      let t := armAction s k b 2 rep w
      let laps := lapsToMove s n x b
      t.actions.due = s.actions.due ∧ (s.rn 0x2050 7 + 1 < 2 ^ 32 → t.rn 0x2050 7 = s.rn 0x2050 7 + 1) ∧
        t.actions.armed = s.actions.armed ++
          [⟨s.actions.nextId, .lead n (moveLaps x laps b), b, 2, rep, w, s.clock.tick, statNextLap, laps⟩])

/-- A step of a time base takes from the table exactly the armed TB actions that it has passed, makes those that fire late due two
base ticks on with LATE set, in their order, and adds nothing else; a backward step takes none, and what is due stays due. -/
def Obligations.TimeBaseStepHandlesPassedActions : Prop :=
  ∀ (s : State) (n v : Nat), n < 8 →
    let old := (s.tb n).val
    let new := v % tbModulus
    let passed := fun (a : Action) => match a.kind with
      | .tb m t => m = n && decide (old ≤ t) && decide (t < new)
      | _ => false
    let r := stepTb s n v
    r.actions.armed = s.actions.armed.filter (fun a => !passed a) ∧
    r.actions.due = s.actions.due ++ (s.actions.armed.filter fun a => passed a && a.attr ≠ 1).map
      (fun a => ⟨{ a with status := a.status + statLate }, s.clock.tick + 2, 0⟩) ∧
    (new ≤ old → r.actions = s.actions) ∧ (r.tb n).val = new ∧ ∀ m, m ≠ n → r.tb m = s.tb m

/-- After 3 intervals without Sync or Announce a LOCKED time base goes to HOLDOVER with its value, and adds the mean of its frequency parts from
then on, or keeps its increment where it has none; no other time base changes, and no register but two of its own. -/
def Obligations.TimingLossEntersHoldover : Prop :=
  ∀ (n : Fin 8) (c : Instr), c = .syncLoss n ∨ c = .announceTimeout n →
    Touches c
      (fun s => axRuns s ∧ s.cxUp = true ∧ (s.tb n.val).hold = false ∧
        ((s.tb n.val).st = .locked ∨ ((s.tb n.val).st = .acquiring ∧ (s.tb n.val).transmitter.isSome = true)) ∧
        (c = .syncLoss n → s.elapsed (s.tb n.val).lastSync (3 * logClocks (s.tb n.val).logSync) = true) ∧
        (c = .announceTimeout n → s.elapsed (s.tb n.val).lastAnnounce (3 * logClocks (s.tb n.val).logAnnounce) = true))
      (fun s t =>
        (t.tb n.val).st = .holdover ∧ (t.tb n.val).val = (s.tb n.val).val ∧
        ((s.tb n.val).freqs = [] → (t.tb n.val).inc = (s.tb n.val).inc) ∧
        ((s.tb n.val).freqs ≠ [] → (t.tb n.val).inc = incOfRate (meanFreq (s.tb n.val).freqs)) ∧
        (∀ m, m ≠ n.val → t.tb m = s.tb m) ∧
        (∀ i j, j < 256 → (i ≠ 0x2010 + n.val ∨ (j ≠ 0x0A ∧ j ≠ 0x0C)) → t.rn i j = s.rn i j) ∧
        t = { s with tbs := t.tbs, regs := t.regs, freeCtr := t.freeCtr })

/-- Setting stop objects ors the mask into the set, names the cause of the newly set ones, and leaves the cause of every other
object; clearing keeps exactly the objects that are not named or whose source still demands the stop. -/
def Obligations.StopObjectsSetAndCleared : Prop :=
  ∀ (s : State) (mask cause : Nat), s.rn 0x3018 2 < 2 ^ 64 →
    (setObjects s mask cause).rn 0x3018 2 = s.rn 0x3018 2 ||| mask % 2 ^ 64 ∧
    (∀ o, o < 64 → bit mask o = true → bit (s.rn 0x3018 2) o = false → (setObjects s mask cause).rn (0x3020 + o) 2 = cause) ∧
    (∀ o, o < 64 → (bit mask o = false ∨ bit (s.rn 0x3018 2) o = true) →
      (setObjects s mask cause).rn (0x3020 + o) 2 = s.rn (0x3020 + o) 2) ∧
    (∀ o, o < 64 → bit ((resetObjects s mask).rn 0x3018 2) o =
      (bit (s.rn 0x3018 2) o && (!bit mask o || objectSource s o)))

/-- A stop pin's level reaches REIN's pin bits, the other pin keeps its own, and the change is noted for the engines exactly when
the bits changed. -/
def Obligations.StopPinIsCounted : Prop :=
  ∀ (pin : Fin 2) (demand : Bool), Touches (.stopPinChange pin demand) (fun s => up s ∧ s.rein.pins < 4)
    (fun s t =>
      t.rein.pins < 4 ∧ bit t.rein.pins pin.val = demand ∧ bit t.rein.pins (1 - pin.val) = bit s.rein.pins (1 - pin.val) ∧
      (bit s.rein.pins pin.val ≠ demand → t.rein.changed = true) ∧
      t = { s with rein := t.rein, coast := t.coast, traces := t.traces, aouts := t.aouts, regs := t.regs })

/-- Slots are placed in the order given, each in one frame and after the ones before it, frame 0 behind the train header; a slot
goes to a new frame only where it does not fit. -/
def Obligations.SlotsPlacedInOrder : Prop :=
  ∀ l : List (Nat × Nat), (∀ p ∈ l, p.2 ≤ frameSpace) →
    let r : List (Nat × Nat × Nat) := placeSlots l 0 trainHeaderLen
    r.map (fun q => q.1) = l.map (fun p => p.1) ∧
    (∀ (i a f u : Nat), r[i]? = some (a, f, u) → ∃ z, l[i]? = some (a, z) ∧ u + z ≤ frameSpace ∧ (f = 0 → trainHeaderLen ≤ u)) ∧
    ∀ (i a f u z b g v y : Nat), r[i]? = some (a, f, u) → l[i]? = some (a, z) → r[i + 1]? = some (b, g, v) → l[i + 1]? = some (b, y) →
      (u + z + y ≤ frameSpace → g = f ∧ v = u + z) ∧ (frameSpace < u + z + y → g = f + 1 ∧ v = 0)

/-- One ramp step: an output at the off value stays there and the ramp is complete; otherwise the output moves by the rate towards
the off value, and becomes the off value where that reaches or passes it; the saturation of the sum is reported. A rate of 0 or less is refused with RANGE_LOW. -/
def Obligations.RampStepTowardsOffValue : Prop :=
  ∀ y off rate : Bfp,
    (bfpCmp off y = 0 → rampStep y off rate = (off, true, false)) ∧
    (∀ sum e : Int, 0 < bfpCmp off y → bfpAccumulate [bfpData y, bfpData rate] = (sum, e) →
      (0 ≤ bfpCmp (bfpNorm sum e).1 off → rampStep y off rate = (off, true, (bfpNorm sum e).2)) ∧
      (bfpCmp (bfpNorm sum e).1 off < 0 → rampStep y off rate = ((bfpNorm sum e).1, false, (bfpNorm sum e).2))) ∧
    (∀ sum e : Int, bfpCmp off y < 0 → bfpAccumulate [bfpData y, bfpData ⟨-rate.m, rate.e⟩] = (sum, e) →
      (bfpCmp (bfpNorm sum e).1 off ≤ 0 → rampStep y off rate = (off, true, (bfpNorm sum e).2)) ∧
      (0 < bfpCmp (bfpNorm sum e).1 off → rampStep y off rate = ((bfpNorm sum e).1, false, (bfpNorm sum e).2))) ∧
    ∀ (s : State) (n : Fin 4096) (v : Nat), (Bfp.ofBits v).m ≤ 0 → abRangeLow ∈ check4 s (0x4000 + n.val) 0x14 v

/-- The limiter of a sample: an output above the upper bound is the upper bound, one below the lower bound the lower bound, and one
between them or at a bound passes unchanged with the limiter inactive. A bound that would cross the other is refused with
DEPENDENCY. -/
def Obligations.LimiterHoldsTheOutput : Prop :=
  ∀ (s : State) (n : Nat) (c : Chan) (i : XIn) (x : Bfp),
    let r := (evaluate s n c i x).chan n
    let hi := s.tkBfp (0x4000 + n) 0x10
    let lo := s.tkBfp (0x4000 + n) 0x11
    (r.limHi = true ↔ 0 < bfpCmp r.u hi) ∧ (r.limLo = true ↔ bfpCmp r.u lo < 0) ∧
      (r.limHi = true → r.y = hi) ∧ (r.limHi = false → r.limLo = true → r.y = lo) ∧
      (r.limHi = false → r.limLo = false → r.y = r.u) ∧
    ∀ (k : Fin 4096) (v : Nat) (w : Bfp), bfpStore (Bfp.ofBits v) = some w →
      (0 < bfpCmp (s.rBfp (0x4000 + k.val) 0x11) w → abDependency ∈ check4 s (0x4000 + k.val) 0x10 v) ∧
      (0 < bfpCmp w (s.rBfp (0x4000 + k.val) 0x10) → abDependency ∈ check4 s (0x4000 + k.val) 0x11 v)

/-- A sample of a channel changes that channel alone: every other channel, every register outside the channel's own and the traces',
and every other part of the machine stay. -/
def Obligations.ChannelSampleChangesOneChannel : Prop :=
  ∀ n : Fin 4096, Touches (.channelSample n)
    (fun s => servesFn 3 s ∧ (s.chan n.val).placed = true ∧ s.clock.tick % s.rn (0x4000 + n.val) 4 = (s.chan n.val).phase)
    (fun s t =>
      t = { s with chans := t.chans, regs := t.regs, traces := t.traces, taken := t.taken, freeCtr := t.freeCtr } ∧
      (∀ m, m ≠ n.val → t.chan m = s.chan m) ∧
      (∀ i j, j < 256 → i ≠ 0x4000 + n.val → (i < 0xF400 ∨ 0xF408 ≤ i) → t.rn i j = s.rn i j))

/-- One accepted edge of a quadrature pair: a step forward counts one up, a step back one down, reversed by the direction entry, in
64 bits that wrap; no step counts nothing; a change of both levels leaves the count, latches QUAD_ERR and is counted as a fault. -/
def Obligations.EncoderEdgeCounts : Prop :=
  ∀ (e : Fin 16) (a b : Bool) (offset : Nat), Touches (.encoderEdge e a b offset)
    (fun s => axRuns s ∧ s.rn (0x7500 + e.val) 1 = 1 ∧ (s.enc e.val).lineFault = false)
    (fun s t =>
      let x := s.enc e.val
      let y := t.enc e.val
      let one : Int := if s.rn (0x7500 + e.val) 3 = 1 then -1 else 1
      y.a = a ∧ y.b = b ∧
      ((x.a, x.b) = (a, b) → y.count = x.count) ∧
      (((x.a, x.b), (a, b)) ∈ [((false, false), (true, false)), ((true, false), (true, true)), ((true, true), (false, true)),
          ((false, true), (false, false))] →
        y.count = toSigned 64 (ofSigned 64 (x.count + one)) ∧ y.lastEdge = s.clock.tick * 2500 + offset) ∧
      (((x.a, x.b), (a, b)) ∈ [((false, false), (false, true)), ((false, true), (true, true)), ((true, true), (true, false)),
          ((true, false), (false, false))] →
        y.count = toSigned 64 (ofSigned 64 (x.count - one)) ∧ y.lastEdge = s.clock.tick * 2500 + offset) ∧
      (x.a ≠ a → x.b ≠ b → y.count = x.count ∧ y.quadErr = true ∧
        (s.rn (0x7500 + e.val) 0x11 + 1 < 2 ^ 32 → t.rn (0x7500 + e.val) 0x11 = s.rn (0x7500 + e.val) 0x11 + 1)) ∧
      (∀ k, k ≠ e.val → t.enc k = s.enc k) ∧
      (∀ i j, j < 256 → (i ≠ 0x7500 + e.val ∨ j ≠ 0x11) → t.rn i j = s.rn i j) ∧
      (∀ k, (t.loc k) = { s.loc k with homed := (t.loc k).homed }) ∧
      t = { s with encs := t.encs, regs := t.regs, locals := t.locals, freeCtr := t.freeCtr })

/-- An index event latches the count and its stamp and sets INDEX_SEEN; with the index gate set it counts only while A and B are
both high, and is nothing otherwise. -/
def Obligations.IndexEventLatchesTheCount : Prop :=
  ∀ (e : Fin 16) (offset : Nat),
    Touches (.encoderIndex e offset)
      (fun s => axRuns s ∧ s.rn (0x7500 + e.val) 1 = 1 ∧
        (s.rn (0x7500 + e.val) 8 ≠ 1 ∨ ((s.enc e.val).a = true ∧ (s.enc e.val).b = true)))
      (fun s t =>
        (t.enc e.val).lastIndex = some (s.enc e.val).count ∧ t.rn (0x7500 + e.val) 9 = ofSigned 64 (s.enc e.val).count ∧
        (t.enc e.val).indexAt = s.clock.tick * 2500 + offset ∧ (t.enc e.val).indexSeen = true ∧
        (t.enc e.val).count = (s.enc e.val).count) ∧
    Touches (.encoderIndex e offset)
      (fun s => axRuns s ∧ s.rn (0x7500 + e.val) 1 = 1 ∧ s.rn (0x7500 + e.val) 8 = 1 ∧
        ((s.enc e.val).a = false ∨ (s.enc e.val).b = false))
      (fun s t => t = s)

/-- The events of one encoder leave every other encoder, the registers outside that encoder's own, and every part of the machine but
encoders, local axes and the counter of free values. -/
def Obligations.EncoderEventsChangeOneEncoder : Prop :=
  ∀ (e : Fin 16) (c : Instr),
    ((∃ a b offset, c = .encoderEdge e a b offset) ∨ (∃ offset, c = .encoderIndex e offset) ∨ c = .encoderLineFault e ∨
      c = .lineFaultClear e ∨ ∃ word i m p, c = .ssiTransfer e word i m p) →
    Touches c axRuns
      (fun s t =>
        t = { s with encs := t.encs, regs := t.regs, locals := t.locals, freeCtr := t.freeCtr } ∧
        (∀ k, k ≠ e.val → t.enc k = s.enc k) ∧ (∀ i j, j < 256 → i ≠ 0x7500 + e.val → t.rn i j = s.rn i j))

/-- The conversion of a GRAY word of n bits gives back the number that the word codes. -/
def Obligations.GrayWordIsConverted : Prop :=
  ∀ n w : Nat, w < 2 ^ n → grayDecode n (w ^^^ (w / 2)) = w

/-- A fault of an output that has been ON as long as the fault takes to show opens the switch and is counted: it will be retried while the faults in a row do not pass the
limit or the limit is 255, and is LOCKED after that; no other output and no register of another changes. -/
def Obligations.OutputFaultRetriesOrLocks : Prop :=
  ∀ (o : Fin 32) (f : OutFaultKind), Touches (.outputFault o f)
    (fun s => up s ∧ (s.dout o.val).st = 1 ∧ s.elapsed (s.dout o.val).onClk (wallNs (faultTime f)) = true)
    (fun s t =>
      (t.dout o.val).consec = (s.dout o.val).consec + 1 ∧
      ((s.dout o.val).consec + 1 ≤ s.rn (0x7300 + o.val) 7 ∨ s.rn (0x7300 + o.val) 7 = 255 → (t.dout o.val).st = 2) ∧
      (s.rn (0x7300 + o.val) 7 < (s.dout o.val).consec + 1 → s.rn (0x7300 + o.val) 7 ≠ 255 → (t.dout o.val).st = 3) ∧
      (∀ k, k ≠ o.val → t.dout k = s.dout k) ∧
      (∀ i j, j < 256 → (i ≠ 0x7300 + o.val ∨ j ≠ 0x0B) → t.rn i j = s.rn i j) ∧
      t = { s with douts := t.douts, regs := t.regs, sent := t.sent, freeCtr := t.freeCtr })

/-- The other commands of one field output leave every other output and every register outside that output's own. -/
def Obligations.OutputEventsChangeOneOutput : Prop :=
  ∀ (o : Fin 32) (c : Instr),
    (c = .outputRetry o ∨ c = .outputFaultCountClear o ∨ c = .openLoad o ∨ c = .openLoadClear o ∨ c = .doLossTimeout o) →
    Touches c up
      (fun s t =>
        t = { s with douts := t.douts, regs := t.regs, sent := t.sent, freeCtr := t.freeCtr } ∧
        (∀ k, k ≠ o.val → t.dout k = s.dout k) ∧ (∀ i j, j < 256 → i ≠ 0x7300 + o.val → t.rn i j = s.rn i j))

/-- A word of a stream enters the fill bank of its FIFO while that has room and no packet is being dropped, and is dropped and
counted otherwise, with LOSS to follow; no other FIFO and no register outside the FIFO's own changes. -/
def Obligations.StreamWordEntersItsFifo : Prop :=
  ∀ (f : Fin 256) (word : BitVec 72), Touches (.streamWordWrite f word) (fun s => cxRuns s ∧ fifoProducer s f.val ≠ 0)
    (fun s t =>
      let x := s.fifo f.val
      let y := t.fifo f.val
      (x.dropping = false → x.fill.length < s.rn (0x9100 + f.val) 3 →
        y.lossDue = false ∧ y.dropping = false ∧ y.drain.length + y.fill.length = x.drain.length + x.fill.length + 1) ∧
      ((x.dropping = true ∨ s.rn (0x9100 + f.val) 3 ≤ x.fill.length) →
        y.lossDue = true ∧ y.drain.length + y.fill.length = x.drain.length + x.fill.length ∧
        (s.rn (0x9100 + f.val) 7 + 1 < 2 ^ 32 → t.rn (0x9100 + f.val) 7 = s.rn (0x9100 + f.val) 7 + 1)) ∧
      (∀ k, k ≠ f.val → t.fifo k = s.fifo k) ∧ (∀ i j, j < 256 → i ≠ 0x9100 + f.val → t.rn i j = s.rn i j) ∧
      t = { s with fifos := t.fifos, regs := t.regs, freeCtr := t.freeCtr })

/-- A dictionary read of a FIFO returns the words of its drain bank, 512 at most, and removes them; of an empty one a single word
with VALID clear and DATA 0, and nothing changes. -/
def Obligations.FifoReadTakesTheDrainBank : Prop :=
  ∀ (s : State) (f : Nat),
    ((s.fifo f).drain = [] → streamRead s f = (List.replicate 9 0, s)) ∧
    ((s.fifo f).drain ≠ [] →
      (streamRead s f).1 = ((s.fifo f).drain.take 512).flatMap wordBytes ∧
      (512 < (s.fifo f).drain.length → ((streamRead s f).2.fifo f).drain = (s.fifo f).drain.drop 512) ∧
      ((streamRead s f).2.fifo f).drain.length + ((streamRead s f).2.fifo f).fill.length + min 512 (s.fifo f).drain.length =
        (s.fifo f).drain.length + (s.fifo f).fill.length ∧
      ∀ k, k ≠ f → (streamRead s f).2.fifo k = s.fifo k)

/-- A WRITE that a cause of R65 refuses leaves its entry and every part of the machine alone but for what the refusal itself
reports, unless it is an enable that found no room; its one answer carries the code and the entry. -/
def Obligations.RefusedWriteLeavesTheEntry : Prop :=
  ∀ (w : WriteCtx) (index : BitVec 16) (sub : Byte) (data : List Byte) (code : Nat) (e : Elem),
    code ≠ abPlacementRefused → code ≠ abNoProfiler →
    Touches (.registerWrite w index sub data)
      (fun s => served s w.client ∧ refusalOf s w index.toNat sub.toNat data = some (code, e))
      (fun s t =>
        t = { s with clock := t.clock, dict := t.dict, regs := t.regs, sent := t.sent, freeCtr := t.freeCtr } ∧
        t.clock = (asked s w.client).clock ∧ t.dict = (asked s w.client).dict ∧
        (∀ i j, j < 256 → (i ≠ 0x2050 ∨ j ≠ 6) → t.rn i j = s.rn i j) ∧
        (hears (asked s w.client) w.client = true → t.sent = .response w.client 2 w.txn.toNat e.index e.sub 1 code [] :: s.sent))

/-- A function that does not serve answers NOT_READY to a read of an entry that it has, but its readiness word to a read of subindex
00 of its first entry. -/
def Obligations.FunctionNotReadyRefusesReads : Prop :=
  ∀ (c : ClientId) (m : DazMsg), headerGood c m = true → m.count = 1 → schedFlag m = false → m.data = [] →
    Touches (.dazRead c m)
      (fun s => served s c ∧ hears (asked s c) c = true ∧ servesIndex (asked s c) m.index.toNat = false ∧
        indexDefined (asked s c) m.index.toNat = true ∧ (entryDef (asked s c) m.index.toNat m.sub.toNat).isSome = true)
      (fun s t =>
        ((m.sub ≠ 0 ∨ isFirstEntry m.index.toNat = false) →
          t.sent = .response c 1 m.txn.toNat m.index.toNat m.sub.toNat 1 abNotReady [] :: s.sent) ∧
        (m.sub = 0 → isFirstEntry m.index.toNat = true →
          ∃ k, functionOf m.index.toNat = some k ∧
            t.sent = .response c 1 m.txn.toNat m.index.toNat m.sub.toNat 1 0 (leBytes 4 (readinessWord (asked s c) k)) :: s.sent) ∧
        t = { s with clock := t.clock, dict := t.dict, sent := t.sent, freeCtr := t.freeCtr })

/-- Reading is without effect on the machine: a READ that is answered changes the client's note, the software stamp of its request,
what is sent and the counter of free values, but for the two FIFO entries that a read empties. -/
def Obligations.ReadsLeaveTheMachine : Prop :=
  ∀ (c : ClientId) (m : DazMsg), headerGood c m = true → m.count = 1 → schedFlag m = false → m.data = [] →
    ¬ (0x7520 ≤ m.index.toNat ∧ m.index.toNat < 0x7530 ∧ m.sub = 7) → ¬ (0x9100 ≤ m.index.toNat ∧ m.index.toNat < 0x9200 ∧ m.sub = 9) →
    Touches (.dazRead c m) (fun s => served s c)
      (fun s t => t = { s with clock := t.clock, dict := t.dict, sent := t.sent, freeCtr := t.freeCtr } ∧
        t.clock = (asked s c).clock ∧ t.dict = (asked s c).dict)

/-- A DOWNLOAD in RUN or HOLD is refused with STATE_LOCKED, where the program bank is served, the client is an ENGINEER and no
segment holds the entry. -/
def Obligations.DownloadNeedsStop : Prop :=
  ∀ (s : State) (w : WriteCtx),
    served s w.client → w.apply = none → (s.rn 0x8000 1 = 2 ∨ s.rn 0x8000 1 = 3) → accessCauses (asked s w.client) 0x8010 5 = [] →
    roleOf (asked s w.client) w.client = .engineer → heldBySegments (asked s w.client) 0x8010 5 = false →
    exec (.programDownload w) s =
      .next (settle s (respond (asked s w.client) w.client 2 w.txn.toNat 0x8010 5 1 abLocked []))

/-- What commands of the time, path, control and motion functions leave as it is, in every state: the parts named may change and no
other does, before what follows from the change. -/
def Obligations.TimeAndPathCommandFrames : Prop :=
  Leaves .ref10mQualified (fun s t => t = { s with regs := t.regs, clock := t.clock }) ∧
  Leaves .paddockTrim (fun s t => t = { s with clock := t.clock }) ∧
  (∀ (l : Link) (first second : Bool), Leaves (.linkFlitReceive l first second) fun s t => t = { s with links := t.links }) ∧
  (∀ (l : Link) (good : Bool), Leaves (.bulkFlitRetransmit l good) fun s t => t = { s with links := t.links }) ∧
  (∀ (c : ClientId) (m : DazMsg), Leaves (.info c m) fun s t =>
    t = { s with clock := t.clock, dict := t.dict, sent := t.sent, freeCtr := t.freeCtr }) ∧
  (∀ (c : ClientId) (index : BitVec 16) (sub : Byte), Leaves (.segmentTimeout c index sub) fun s t => t = { s with dict := t.dict }) ∧
  (∀ (n : Fin 16), Leaves (.sessionIdleTimeout n) fun s t => t = { s with dict := t.dict, sent := t.sent }) ∧
  (∀ (p : Fin 10) (n : Fin 8), Leaves (.ptpSyncSend p n) fun s t =>
    t = { s with ports := t.ports, sent := t.sent, freeCtr := t.freeCtr }) ∧
  Leaves .tb7Writeback (fun s t => t = { s with paddock := t.paddock }) ∧
  (∀ (n : Fin 8) (value velocity : BitVec 64) (stamp : Nat),
    Leaves (.leadSample n value velocity stamp) fun s t => t = { s with leads := t.leads }) ∧
  (∀ (n : Fin 8), Leaves (.leadSampleTimeout n) fun s t => t = { s with leads := t.leads }) ∧
  (∀ (n : Fin 8), Leaves (.leadStopComplete n) fun s t => t = { s with leads := t.leads }) ∧
  (∀ (e : Engine) (k : Fin 4) (statuses : List (Fin 2048 × Byte)),
    Leaves (.configureReturn e k statuses) fun s t => t = { s with stations := t.stations }) ∧
  (∀ (k : Fin 4), Leaves (.ringHeal k) fun s t => t = { s with rings := t.rings }) ∧
  (∀ (n : Fin 2048), Leaves (.coastRecordCommit n) fun s t => t = { s with coast := t.coast }) ∧
  (∀ m : MemberMsg, Leaves (.henvyMember m) fun s t =>
    t = { s with clock := t.clock, regs := t.regs, henvy := t.henvy, uplinks := t.uplinks, prp := t.prp, freeCtr := t.freeCtr }) ∧
  Leaves .henvyMemberSend (fun s t => t = { s with uplinks := t.uplinks, prp := t.prp, freeCtr := t.freeCtr }) ∧
  Leaves .henvyStopSend (fun s t => t = { s with henvy := t.henvy, uplinks := t.uplinks, prp := t.prp, freeCtr := t.freeCtr }) ∧
  Leaves .henvyCandidateEnd (fun s t => t = { s with regs := t.regs }) ∧
  (∀ (path : Fin 2), Leaves (.prpPathDown path) fun s t => t = { s with regs := t.regs }) ∧
  (∀ (n : Fin 4096), Leaves (.channelInputFault n) fun s t => t = { s with chans := t.chans }) ∧
  (∀ (a : Fin 32), Leaves (.holdAmplitudeDelay a) fun s t => t = { s with locals := t.locals }) ∧
  (∀ (a : Fin 32) (which : Fin 3) (releaseAgo : Nat),
    Leaves (.limitInputRearm a which releaseAgo) fun s t => t = { s with locals := t.locals }) ∧
  (∀ (a : Fin 32), Leaves (.hardStopDwell a) fun s t => t = { s with locals := t.locals }) ∧
  Leaves .holdTimeout (fun s t => t = { s with prog := t.prog }) ∧
  (∀ (job : Nat) (i : Fin 64) (result : List Byte),
    Leaves (.libraryJobComplete job i result) fun s t => t = { s with tasks := t.tasks, prog := t.prog }) ∧
  (∀ (kind : Fin 3) (item : Fin 4096), Leaves (.migrationCopyComplete kind item) fun s t => t = { s with ost := t.ost }) ∧
  (∀ (o : Fin 16), Leaves (.aoutLossTimeout o) fun s t => t = { s with aouts := t.aouts }) ∧
  (∀ (o : Fin 32), Leaves (.outputFaultCountClear o) fun s t => t = { s with douts := t.douts }) ∧
  (∀ (q : Fin 4), Leaves (.lplusOutputRestart q) fun s t =>
    t = { s with douts := t.douts, supplies := t.supplies, sent := t.sent })

/-- What commands of the field I/O, the recorder, health and the dictionary service leave as it is, in every state: the parts named
may change and no other does, before what follows from the change. -/
def Obligations.PlantAndHealthCommandFrames : Prop :=
  (∀ (o : Fin 32), Leaves (.doLossTimeout o) fun s t => t = { s with douts := t.douts, sent := t.sent }) ∧
  (∀ (o : Fin 32), Leaves (.openLoad o) fun s t => t = { s with douts := t.douts }) ∧
  (∀ (d : Fin 2) (r : ProbeResult), Leaves (.ssdProbeComplete d r) fun s t => t = { s with rcd := t.rcd, ssds := t.ssds }) ∧
  (∀ (d : Fin 2), Leaves (.ssdLinkLoss d) fun s t => t = { s with rcd := t.rcd, ssds := t.ssds }) ∧
  Leaves .acquisitionTimeout (fun s t => t = { s with regs := t.regs }) ∧
  Leaves .declareClear (fun s t => t = { s with field := t.field, health := t.health }) ∧
  Leaves .dramCorrectableError (fun s t => t = { s with regs := t.regs, freeCtr := t.freeCtr }) ∧
  Leaves .dramPatrolScrub (fun s t => t = { s with regs := t.regs, freeCtr := t.freeCtr }) ∧
  (∀ (hotSpot : Int) (powerTenths : Nat),
    Leaves (.governorUpdate hotSpot powerTenths) fun s t => t = { s with regs := t.regs, gov := t.gov }) ∧
  Leaves .paddockPowerReturn (fun s t => t = { s with paddock := t.paddock, sent := t.sent }) ∧
  (∀ (celsius : Int), Leaves (.paddockTempSample celsius) fun s t => t = { s with paddock := t.paddock, sent := t.sent }) ∧
  Leaves .vbatBrownout (fun s t => t = { s with paddock := t.paddock }) ∧
  Leaves .wakePulseEnd (fun s t => t = { s with paddock := t.paddock, sent := t.sent }) ∧
  (∀ (offset : Nat), Leaves (.ppsInEdge offset) fun s t => t = { s with regs := t.regs, freeCtr := t.freeCtr }) ∧
  (∀ (n : Fin 16), Leaves (.dazSessionClose n) fun s t => t = { s with dict := t.dict }) ∧
  (∀ (p : Fin 10) (n : Fin 8), Leaves (.announceSend p n) fun s t => t = { s with ports := t.ports, sent := t.sent }) ∧
  (∀ (p : Fin 10) (n : Fin 8), Leaves (.delayRequestSend p n) fun s t =>
    t = { s with ports := t.ports, sent := t.sent, freeCtr := t.freeCtr }) ∧
  (∀ (p : Fin 10) (n : Fin 8) (requester : BitVec 64) (seq : BitVec 16),
    Leaves (.delayRequestReceived p n requester seq) fun s t => t = { s with sent := t.sent, freeCtr := t.freeCtr }) ∧
  (∀ (p : Fin 10) (n : Fin 8) (seq : BitVec 16) (delay : Nat),
    Leaves (.delayResponseReceived p n seq delay) fun s t => t = { s with ports := t.ports }) ∧
  (∀ (u : Fin 2) (verified : Bool), Leaves (.preemptionVerify u verified) fun s t => t = { s with regs := t.regs }) ∧
  Leaves .prpSupervisionSend (fun s t => t = { s with uplinks := t.uplinks, prp := t.prp, freeCtr := t.freeCtr }) ∧
  (∀ (path : Fin 2), Leaves (.prpPathUp path) fun s t => t = { s with regs := t.regs, uplinks := t.uplinks }) ∧
  Leaves .thermalTripRelease (fun s t => t = { s with health := t.health }) ∧
  (∀ (o : Fin 16) (f : AoutFaultKind), Leaves (.aoutFaultClear o f) fun s t => t = { s with aouts := t.aouts }) ∧
  (∀ (e : Fin 16), Leaves (.lineFaultClear e) fun s t => t = { s with encs := t.encs }) ∧
  (∀ (i : Fin 64), Leaves (.wireBreakClear i) fun s t => t = { s with dins := t.dins }) ∧
  (∀ (o : Fin 32), Leaves (.openLoadClear o) fun s t => t = { s with douts := t.douts })

/-- Base ticks, line cycles, the reference clock and the links (R26, R27, R30 to R32, R43, R83 to R87): where the named guard holds,
each command answers the settled state of its effect. -/
def Obligations.TickReferenceAndLinkEventsAct : Prop :=
  Does .baseTickBoundary (fun s => ticking s = true) baseTick ∧
  Does .lineCycleBoundary
    (fun s => ticking s = true ∧ s.clock.lcStarted = true ∧ s.atLc = true ∧ s.clock.lcDone ≠ some s.clock.tick) lineCycle ∧
  Does .ref10mQualified axRuns refQualified ∧
  Does .ref10mLoss axRuns refLoss ∧
  Does .paddockTrim axRuns (fun s => { s with clock := { s.clock with paddockTrims := s.clock.paddockTrims + 1 } }) ∧
  (∀ (l : Link) (first second : Bool), Does (.linkFlitReceive l first second) up (fun s => linkFlit s l first second)) ∧
  (∀ l : Link, Does (.bulkFlitRetransmit l false) up
    (fun s => s.setLink (linkNum l) { s.link (linkNum l) with bulkRetries := (s.link (linkNum l)).bulkRetries + 1 })) ∧
  (∀ l : Link, Does (.linkFailed l)
    (fun s => s.on = true ∧ (s.link (linkNum l)).failed = false ∧ 3 ≤ (s.link (linkNum l)).noGood) (fun s => linkFailed s l)) ∧
  Does .fxWatchdog up (fun s => switchAll { s with field := { s.field with watchdog := true } }) ∧
  (∀ d : Die, Does (.diePassesBringup d) up (fun s => dieUp s d))

/-- What PTP messages and their absence do to time bases and ports (R91, R92, R95, R97, R98, R564). -/
def Obligations.TimeBaseEventsAct : Prop :=
  (∀ (n : Fin 8) (m : SyncMsg), Does (.syncReceived n m) axRuns (fun s => syncReceived s n.val m)) ∧
  (∀ (n : Fin 8) (m : AnnounceMsg), Does (.announceReceived n m)
    (fun s => axRuns s ∧ (s.tb n.val).st ≠ .free) (fun s => announceReceived s n.val m)) ∧
  (∀ n : Fin 8, Does (.syncLoss n)
    (fun s => axRuns s ∧ s.cxUp = true ∧ (s.tb n.val).st = .locked ∧ (s.tb n.val).hold = false ∧
      s.elapsed (s.tb n.val).lastSync (3 * logClocks (s.tb n.val).logSync) = true)
    (fun s => (enterHoldover s n.val).setNum (0x2010 + n.val) 0x0A 0)) ∧
  (∀ n : Fin 8, Does (.announceTimeout n)
    (fun s => axRuns s ∧ s.cxUp = true ∧ (s.tb n.val).st = .locked ∧ (s.tb n.val).hold = false ∧
      s.elapsed (s.tb n.val).lastAnnounce (3 * logClocks (s.tb n.val).logAnnounce) = true)
    (fun s => (enterHoldover s n.val).setNum (0x2010 + n.val) 0x0A 0)) ∧
  (∀ (p : Fin 10) (n : Fin 8), Does (.ptpSyncSend p n)
    (fun s => axRuns s ∧ isTransmitter s p.val n.val = true)
    (fun s =>
      let q := ((s.port p.val).syncSeq + 1) % 65536
      let t := (s.setPort p.val { s.port p.val with syncSeq := q }).emit (.ptp ptpSync p.val n.val q 0 0)
      let x := stampOf t p.val n.val (egressCorr t p.val)
      x.2.emit (.ptp ptpFollowUp p.val n.val q x.1 0))) ∧
  (∀ (p : Fin 10) (n : Fin 8), Does (.announceSend p n)
    (fun s => axRuns s ∧ isTransmitter s p.val n.val = true ∧ s.rn (0x2010 + n.val) 0x0A ≠ 0)
    (fun s =>
      let q := ((s.port p.val).annSeq + 1) % 65536
      (s.setPort p.val { s.port p.val with annSeq := q }).emit
        (.announce p.val n.val q (s.rn (0x2010 + n.val) 0x0A) 248 (clockPriorities s).1 (clockPriorities s).2 (announceLog s n.val)))) ∧
  (∀ (p : Fin 10) (n : Fin 8), Does (.delayRequestSend p n)
    (fun s => axRuns s ∧ s.cxUp = true ∧ tbOnPort s p.val n.val = true ∧ peerDelay s p.val n.val = true)
    (fun s => delayRequestSend s p.val n.val)) ∧
  (∀ (p : Fin 10) (n : Fin 8) (who : BitVec 64) (seq : BitVec 16), Does (.delayRequestReceived p n who seq)
    (fun s => axRuns s ∧ s.cxUp = true ∧ tbOnPort s p.val n.val = true ∧ peerDelay s p.val n.val = true)
    (fun s => delayRequestReceived s p.val n.val who.toNat seq.toNat)) ∧
  (∀ (p : Fin 10) (n : Fin 8) (seq : BitVec 16) (delay : Nat), Does (.delayResponseReceived p n seq delay)
    (fun s => axRuns s ∧ (s.port p.val).waiting = true ∧ (s.port p.val).seq = seq.toNat)
    (fun s => s.setPort p.val { s.port p.val with waiting := false, measured := true, pathDelay := delay })) ∧
  Does .tb7Writeback (fun s => axRuns s ∧ (s.tb 7).st = .locked)
    (fun s => { s with paddock := { s.paddock with clock := (s.tb 7).val * 32768 / secUnits } }) ∧
  (∀ offset : Nat, Does (.ppsInEdge offset) axRuns (fun s => ppsIn s offset))

/-- What Lead samples, their absence and a firing do (R104, R106, R114). -/
def Obligations.LeadAndActionEventsAct : Prop :=
  (∀ (n : Fin 8) (value velocity : BitVec 64) (stamp : Nat), Does (.leadSample n value velocity stamp)
    (fun s => axRuns s ∧ s.cxUp = true ∧ leadSource s n.val = 4 ∧ henvyState s = 2)
    (fun s => takeSample s n.val (toSigned 64 value.toNat * 2 ^ 32) ((stamp : Int) + s.ri (0x2040 + n.val) 0x14 32))) ∧
  (∀ (n : Fin 8) (value velocity : BitVec 64) (stamp : Nat), Does (.leadSample n value velocity stamp)
    (fun s => axRuns s ∧ s.cxUp = true ∧ leadSource s n.val = 2) (fun s => leadSampleIn s n.val value.toNat stamp)) ∧
  (∀ n : Fin 8, Does (.leadSampleTimeout n)
    (fun s => s.on = true ∧ (s.lead n.val).st = 2 ∧ (s.lead n.val).sinceTick + 160 * s.rn (0x2040 + n.val) 0x12 ≤ s.clock.tick)
    (fun s => s.setLead n.val { s.lead n.val with st := 3 })) ∧
  (∀ n : Fin 8, Does (.leadStopComplete n) (fun s => s.on = true ∧ (s.lead n.val).st = 3 ∧ (s.lead n.val).vel = 0)
    (fun s => s.setLead n.val { s.lead n.val with st := 4 })) ∧
  (∀ (id : Nat) (d : Due), Does (.actionFire id)
    (fun s => s.on = true ∧ d ∈ s.actions.due ∧ d.action.id = id ∧ firesHere d.action.work = true ∧
      (match d.action.work with | .taskRelease _ => d.boundary | _ => d.tick) ≤ s.clock.tick)
    (fun s => fireAction s id))

/-- What frames, stations, pins and stop objects' changes do on the bus (R145, R147, R151, R152, R156 to R160, R167). -/
def Obligations.BusEventsAct : Prop :=
  (∀ (pin : Fin 2) (demand : Bool), Does (.stopPinChange pin demand) up (fun s => aoutPins (pinChange s pin.val demand))) ∧
  Does .reinChange (fun s => s.on = true ∧ s.rein.changed = true) reinFrames ∧
  (∀ (e : Engine) (k : Fin 4) (f : FrameIn), 1518 < f.size → Does (.returningFrameCheck e k f)
    (fun s => s.on = true ∧ engActive s e = true) (fun s => s.bump (0x3010 + k.val) 0x0C)) ∧
  (∀ (e : Engine) (k : Fin 4) (f : FrameIn), f.size ≤ 1518 → f.etherType ≠ 0x88F7 → Does (.returningFrameCheck e k f)
    (fun s => s.on = true ∧ engActive s e = true ∧ f.etherType.toNat ≠ s.rn 0x3000 1) (fun s => s.bump 0x3000 6)) ∧
  (∀ (e : Engine) (k : Fin 4) (f : FrameIn), f.size ≤ 1518 → f.fcsGood = false → Does (.returningFrameCheck e k f)
    (fun s => s.on = true ∧ engActive s e = true ∧ f.etherType.toNat = s.rn 0x3000 1 ∧ (s.ring k.val).st ≠ 0)
    (fun s => (if (s.ring k.val).st = 3 then s.setEng e { s.eng e with fcsBad := true } else s).bump (0x3010 + k.val) 0x0A)) ∧
  (∀ (e : Engine) (k : Fin 4) (f : FrameIn), f.size ≤ 1518 → f.fcsGood = true → Does (.returningFrameCheck e k f)
    (fun s => s.on = true ∧ engActive s e = true ∧ f.etherType.toNat = s.rn 0x3000 1 ∧ (s.ring k.val).st ≠ 0)
    (fun s => busFrame s e k.val f)) ∧
  (∀ (k : Fin 4) (first second : List SlotAnswer), Does (.trainInputsReceived k first second false)
    (fun s => s.on = true ∧ (s.ring k.val).st = 3 ∧ 1 ≤ s.rn 0x2000 5)
    (fun s => serveMails ((s.ring k.val).layout.foldl
      (fun s p => takeInputs s k.val (s.rn 0x2000 5 - 1) first second false p.1) s) k.val)) ∧
  (∀ (k : Fin 4) (first second : List SlotAnswer), Does (.trainInputsReceived k first second true)
    (fun s => s.on = true ∧ (s.ring k.val).st = 3 ∧ 2 ≤ s.rn 0x2000 5)
    (fun s => serveMails ((s.ring k.val).layout.foldl
      (fun s p => takeInputs s k.val (s.rn 0x2000 5 - 2) first second true p.1) s) k.val)) ∧
  (∀ a : Fin 2048, Does (.stationLost a)
    (fun s => s.on = true ∧ (s.station a.val).st = 4 ∧ s.rn (0x3800 + a.val) 9 ≤ (s.station a.val).missedRun)
    (fun s => stationLost s a.val)) ∧
  (∀ (e : Engine) (k : Fin 4) (base : Nat) (records : List (Option Identity)) (counted : Nat),
    Does (.discoverReturn e k base records counted)
      (fun s => s.on = true ∧ engActive s e = true ∧ (s.ring k.val).st ≠ 0 ∧ (s.ring k.val).st ≠ 5)
      (fun s => segmentBreaks (discoverReturn s e k.val base records counted) k.val)) ∧
  (∀ (e : Engine) (k : Fin 4) (statuses : List (Fin 2048 × Byte)), Does (.configureReturn e k statuses)
    (fun s => s.on = true ∧ engActive s e = true)
    (fun s => configureReturn s ((statuses.filter fun p => p.1.val / 512 = k.val).map fun p => (p.1.val, p.2.toNat)))) ∧
  (∀ (k : Fin 4) (tab : Nat) (records : List (Option DelayRecord)), Does (.delayMeasurement k tab records)
    (fun s => s.on = true ∧ (s.ring k.val).st ≠ 0 ∧ (s.ring k.val).st ≠ 5 ∧ splitFlag s k.val = false ∧
      records.length = ringN s k.val ∧ ∀ q, some q ∈ records → q.no.toNat = (s.ring k.val).measNo % 65536)
    (fun s => delayMeasured s k.val tab records))

/-- Breaks, heals, demotions and releases of the path engines, and coast (R182 to R198). -/
def Obligations.PathAndCoastEventsAct : Prop :=
  (∀ (e : Engine) (b : Bool), Does (.hobbleReleaseSeen e b) (fun s => s.on = true ∧ engActive s e = true) (fun s => releaseSeen s e)) ∧
  (∀ e : Engine, Does (.engineSelfDemote e (.memories true)) (fun s => s.on = true ∧ engActive s e = true) (fun s => s.bump 0x3060 6)) ∧
  (∀ (e : Engine) (c : SelfCheck), c ≠ .memories true → Does (.engineSelfDemote e c)
    (fun s => s.on = true ∧ engActive s e = true ∧ (checkFails s e c).1 = true)
    (fun s => (((silence (cutFrames s e) e).setNum 0x3060 4 ((if e = .na then 1 else 2) * 256 + (checkFails s e c).2)).bump 0x3060 5).emit
      (.cross e 0 0 true))) ∧
  (∀ (e : Engine) (k : Fin 4) (reach : Nat), Does (.ringBreak e k reach)
    (fun s => s.on = true ∧ engActive s e = true ∧ ((s.ring k.val).st = 1 ∨ (s.ring k.val).st = 2 ∨ (s.ring k.val).st = 3))
    (fun s => ringBreak s e k.val reach)) ∧
  (∀ k : Fin 4, Does (.ringHeal k)
    (fun s => s.on = true ∧ (s.ring k.val).st = 3 ∧ ((s.ring k.val).split = true ∨ (s.ring k.val).joining = true) ∧ crossUp s = true ∧
      (s.ring k.val).healAt = none ∧ (s.ring k.val).badSeg = [] ∧ (s.ring k.val).healFrom ≤ s.clock.timClk)
    (fun s => s.setRing k.val { s.ring k.val with
      healAt := some (s.rn 0x2000 5 + 2), healBounds := (getAt 0 s.na.held k.val, getAt 0 s.nb.held k.val),
      healJoin := (s.ring k.val).joining, cmd := if (s.ring k.val).joining then (s.ring k.val).cmd else .na })) ∧
  (∀ (k : Fin 4) (h : Nat), Does (.healTimeout k)
    (fun s => s.on = true ∧ (s.ring k.val).healAt = some h ∧ h ≤ s.rn 0x2000 5 ∧
      s.elapsed (s.ring k.val).healClk (wallSec 1 / 10) = true) (fun s => healTimeout s k.val)) ∧
  (∀ t : Nat, Does (.coastEntry .announced)
    (fun s => s.on = true ∧ s.coast.active = false ∧ s.coast.announced = some t ∧ t ≤ s.clock.tick) (fun s => coastEntry s .announced)) ∧
  Does (.coastEntry .bothLinks) (fun s => s.on = true ∧ s.coast.active = false ∧ bothFailed s 1 = true)
    (fun s => coastEntry s .bothLinks) ∧
  Does (.coastEntry .oneThenOther) (fun s => s.on = true ∧ s.coast.active = false ∧ bothFailed s 3 = true ∧ crossUp s = true)
    (fun s => coastEntry s .oneThenOther) ∧
  (∀ e : Engine, Does (.coastEntry .loneEngine)
    (fun s => s.on = true ∧ s.coast.active = false ∧ engActive s e = true ∧ engActive s (otherEngine e) = false ∧
      (s.link (linkNum (fromCx e))).failed = true) (fun s => coastEntry s .loneEngine)) ∧
  Does .coastLimit (fun s => s.on = true ∧ s.coast.active = true ∧ s.coast.limitHit = false ∧ limitReached s = true)
    (fun s => ({ s with coast := { s.coast with limitHit := true, stopAll := true } }).bump 0x3070 6) ∧
  Does .coastExit (fun s => cxRuns s ∧ s.coast.active = true ∧ coastExitDue s = true) (fun s => restartEnd (coastExit s)) ∧
  (∀ n : Fin 2048, Does (.coastRecordCommit n)
    (fun s => cxRuns s ∧ axisLocal s n.val = false ∧ enginesAck s = true ∧
      { coastRecordOf s n.val with tag := (s.coastRec n.val).tag } ≠ s.coastRec n.val)
    (fun s => s.setCoastRec n.val (coastRecordOf s n.val)))

/-- Henvy messages and their absence, PRP and frame preemption (R200 to R205). -/
def Obligations.HenvyAndUplinkEventsAct : Prop :=
  (∀ m : MemberMsg, m.refused = false → m.candidate = false → Does (.henvyMember m)
    (fun s => cxRuns s ∧ henvyState s = 2 ∧ (firstCopy s m.from_).1 = true)
    (fun s =>
      let t := softStamp (firstCopy s m.from_).2 .henvyControl
      { t with henvy := { t.henvy with members := setAt t.henvy.members m.number.val (some t.clock.timClk) } })) ∧
  (∀ m : MemberMsg, Does (.henvyMember m)
    (fun s => cxRuns s ∧ henvyState s = 2 ∧ (firstCopy s m.from_).1 = false) (fun s => (firstCopy s m.from_).2)) ∧
  Does .henvyMemberSend (fun s => cxRuns s ∧ henvyState s ≠ 0) sendMember ∧
  (∀ (m : StopMsg) (objects : BitVec 64), Does (.henvyStop m objects)
    (fun s => cxRuns s ∧ henvyState s = 2 ∧ (firstCopy s m.from_).1 = true)
    (fun s =>
      let t := softStamp (firstCopy s m.from_).2 .henvyControl
      setObjects { t with henvy := { t.henvy with stopSeen := setAt t.henvy.stopSeen m.number.val (some t.clock.timClk) } } objects.toNat 4)) ∧
  Does .henvyStopSend (fun s => cxRuns s ∧ henvyState s = 2)
    (fun s =>
      let t := { s with henvy := { s.henvy with stopSeq := s.henvy.stopSeq + 1 } }
      upSend t 7 (henvyHead t 7 3) (.stop (s.rn 0x3018 2) (s.henvy.stopSeq + 1))) ∧
  (∀ (n : Fin 16) (t : Nat), Does (.henvyStopSilence n)
    (fun s => cxRuns s ∧ henvyState s = 2 ∧ silentSince s n.val = some t ∧ s.elapsed t (wallSec 1 / 100) = true)
    (fun s => setObjects { s with henvy := { s.henvy with stopSeen := setAt s.henvy.stopSeen n.val none,
                                                          members := setAt s.henvy.members n.val none } } (s.rn 0x3080 7) 4)) ∧
  Does .henvyCandidateEnd (fun s => cxRuns s ∧ henvyState s = 1 ∧ s.henvy.since + wallSec 3 ≤ s.clock.timClk)
    (fun s => s.setNum 0x3080 8 2) ∧
  (∀ (u : Fin 2) (b : Bool), Does (.preemptionVerify u b) cxRuns (fun s => s.setNum 0x3080 4 (setBit (s.rn 0x3080 4) u.val b))) ∧
  Does .prpSupervisionSend (fun s => cxRuns s ∧ s.rn 0x3080 1 ≠ 0)
    (fun s => upSend s 0 (fun u => beBytes 6 (Config.portAddress (8 + u)).toNat) .supervision) ∧
  (∀ p : Fin 2, Does (.prpPathDown p)
    (fun s => cxRuns s ∧ s.rn 0x3080 1 ≠ 0 ∧ s.elapsed (s.uplink p.val).lastRx (wallSec 6) = true)
    (fun s => s.setNum 0x3080 5 (setBit (s.rn 0x3080 5) p.val false))) ∧
  (∀ p : Fin 2, Does (.prpPathUp p) (fun s => cxRuns s ∧ s.rn 0x3080 1 ≠ 0)
    (fun s => (s.setUplink p.val { s.uplink p.val with lastRx := s.clock.timClk }).setNum 0x3080 5 (setBit (s.rn 0x3080 5) p.val true)))

/-- What sample boundaries, missed deadlines, encoders, capture lines, limits and homing do (R222, R228, R232, R253, R254, R298,
R302 to R314). -/
def Obligations.SampleAndLocalEventsAct : Prop :=
  (∀ n : Fin 4096, Does (.channelSample n)
    (fun s => servesFn 3 s ∧ (s.chan n.val).placed = true ∧ s.clock.tick % s.rn (0x4000 + n.val) 4 = (s.chan n.val).phase)
    (fun s => chanSample s n.val)) ∧
  (∀ n : Fin 4096, Does (.channelInputFault n)
    (fun s => servesFn 3 s ∧ (s.chan n.val).placed = true ∧ (s.chan n.val).faultDue = true ∧
      s.clock.tick % s.rn (0x4000 + n.val) 4 = (s.chan n.val).phase)
    (fun s => faultReaction s n.val)) ∧
  (∀ n : Fin 4096, Does (.channelOverrun n) (fun s => cxRuns s ∧ (s.chan n.val).placed = true)
    (fun s => retireUnit ((s.setChan n.val { s.chan n.val with overrun := true, toCome := none }).bump (0x4000 + n.val) 0x21)
      (s.chan n.val).unit 2)) ∧
  (∀ n : Fin 2048, Does (.axisSample n)
    (fun s => servesFn 4 s ∧ declaredHere s (0x5000 + n.val) 3 = true ∧ s.clock.tick % axisPeriod s n.val = phaseOf s 2 n.val ∧
      axisCoasts s n.val = false ∧ (axisLocal s n.val = true ∨ enginesAck s = true))
    (fun s => commitCoastRec (axisSample s n.val) n.val)) ∧
  (∀ n : Fin 2048, Does (.axisSample n)
    (fun s => servesFn 4 s ∧ declaredHere s (0x5000 + n.val) 3 = true ∧ s.clock.tick % axisPeriod s n.val = phaseOf s 2 n.val ∧
      axisCoasts s n.val = false ∧ axisLocal s n.val = false ∧ enginesAck s = false)
    (fun s => commitCoastRec (heldSample s n.val) n.val)) ∧
  (∀ n : Fin 2048, Does (.axisOverrun n) (fun s => cxRuns s ∧ (s.axis n.val).placed = true)
    (fun s => retireUnit ((s.setAxis n.val { s.axis n.val with overrun := true, toCome := none }).bump (0x5000 + n.val) 0x26)
      (s.axis n.val).unit 2)) ∧
  (∀ a : Fin 32, Does (.holdAmplitudeDelay a)
    (fun s => axRuns s ∧ s.rn (0x7580 + a.val) 1 = 2 ∧ (s.loc a.val).sNew = (s.loc a.val).x ∧
      msPassed s (s.loc a.val).lastMove (s.rn (0x7580 + a.val) 0x0A) = true)
    (fun s => s.setLoc a.val { s.loc a.val with holding := true })) ∧
  (∀ (e : Fin 16) (a b : Bool) (offset : Nat), Does (.encoderEdge e a b offset)
    (fun s => axRuns s ∧ s.rn (0x7500 + e.val) 1 = 1) (fun s => encoderEdge s e.val a b offset)) ∧
  (∀ (e : Fin 16) (offset : Nat), Does (.encoderIndex e offset)
    (fun s => axRuns s ∧ s.rn (0x7500 + e.val) 1 = 1 ∧ s.rn (0x7500 + e.val) 8 = 0) (fun s => encoderIndex s e.val offset)) ∧
  (∀ e : Fin 16, Does (.encoderLineFault e) (fun s => axRuns s ∧ s.rn (0x7500 + e.val) 1 ≠ 0)
    (fun s => clearHomed (s.setEnc e.val { s.enc e.val with lineFault := true, faultTick := true }) e.val)) ∧
  (∀ e : Fin 16, Does (.lineFaultClear e) axRuns (fun s => s.setEnc e.val { s.enc e.val with lineFault := false })) ∧
  (∀ (e : Fin 16) (word : BitVec 40) (i m p : Bool), Does (.ssiTransfer e word i m p)
    (fun s => axRuns s ∧ s.rn (0x7500 + e.val) 1 = 2 ∧ (s.enc e.val).lineFault = false) (fun s => ssiTransfer s e.val word.toNat i m p)) ∧
  (∀ (c : Fin 16) (rising : Bool) (offset : Nat), Does (.captureEvent c rising offset)
    (fun s => axRuns s ∧ s.rn (0x7520 + c.val) 1 = 2) (fun s => captureEvent s c.val rising offset)) ∧
  (∀ (a : Fin 32) (which : Fin 3) (ago : Nat), Does (.limitInputEdge a which ago)
    (fun s => axRuns s ∧ inputQualified s a.val which.val ago = true) (fun s => limitEdge s a.val which.val ago)) ∧
  (∀ (a : Fin 32) (which : Fin 3) (ago : Nat), Does (.limitInputRearm a which ago)
    (fun s => axRuns s ∧ (getAt InLatch.init (s.loc a.val).latches which.val).latched = true ∧
      s.rn (0x7580 + a.val) 0x15 * 1000 < ago + 6250) (fun s => limitRearm s a.val which.val ago)) ∧
  (∀ (a : Fin 32) (t : Nat), Does (.hardStopDwell a)
    (fun s => axRuns s ∧ s.rn (0x5A00 + a.val) 1 = 5 ∧ (s.loc a.val).homing.phase = 1 ∧ (s.loc a.val).homing.devSince = some t ∧
      msPassed s t (s.rn (0x5A00 + a.val) 0x0B) = true)
    (fun s => s.setLoc a.val { s.loc a.val with
      homing := (s.loc a.val).homing.setEdge ((localActual s a.val).getD (s.loc a.val).x) })) ∧
  (∀ (a : Fin 32) (r : Int) (n : Nat), Does (.homingComplete a)
    (fun s => cxRuns s ∧ (s.loc a.val).homing.phase = 9 ∧ (s.loc a.val).homing.edge = some r ∧ axisOfLocal s a.val = some n ∧
      axisBoundary s n = true)
    (fun s => homingDone s a.val))

/-- Triggers, conversions, reference checks and analogue outputs' losses and faults (R406 to R421). -/
def Obligations.AnalogueEventsAct : Prop :=
  (∀ (t : Fin 64) (offset : Nat), Does (.conversionTrigger t offset)
    (fun s => axRuns s ∧ s.rn (0x6200 + t.val) 1 = 1 ∧ (s.trig t.val).st = 1 ∧ (s.trig t.val).fromTick ≤ s.clock.tick ∧
      (s.trig t.val).lastEvent < adcClock s 0 ∧ s.clock.tick % max 1 (s.rn (0x6200 + t.val) 3) = s.rn (0x6200 + t.val) 4)
    (fun s => fireTrigger (s.setTrig t.val { s.trig t.val with lastEvent := adcClock s 0 }) t.val (adcClock s 0))) ∧
  (∀ (a : Fin 32) (offset : Nat), Does (.conversionStart a offset) axRuns (fun s => seqRun s a.val (adcClock s offset))) ∧
  (∀ (a : Fin 32) (nv : Int), Does (.conversionLatch a nv) (fun s => axRuns s ∧ (s.conv a.val).running.isSome = true)
    (fun s => latchConv s a.val nv)) ∧
  (∀ a : Fin 32, Does (.referenceCheck a .started)
    (fun s => axRuns s ∧ (s.conv a.val).failed = false ∧ (s.conv a.val).running = none ∧ (s.conv a.val).urgent = none ∧
      (s.conv a.val).normal = [])
    (fun s => s.setConv a.val { s.conv a.val with checking := true })) ∧
  (∀ a : Fin 32, Does (.referenceCheck a .noGap) (fun s => axRuns s ∧ (s.conv a.val).failed = false ∧ checkDue s a.val = true)
    (fun s => s.setConv a.val { s.conv a.val with
      noGap := (s.conv a.val).noGap + 1, starved := (s.conv a.val).starved || 10 ≤ (s.conv a.val).noGap + 1, checkedAt := s.now })) ∧
  (∀ (a : Fin 32) (d : Int), Does (.referenceCheck a (.reading d))
    (fun s => axRuns s ∧ (s.conv a.val).failed = false ∧ (s.conv a.val).checking = true ∧ (s.conv a.val).running = none ∧
      (s.conv a.val).urgent = none ∧ (s.conv a.val).normal = [])
    (fun s => checkRead s a.val d)) ∧
  (∀ o : Fin 16, Does (.aoutLossTimeout o)
    (fun s => axRuns s ∧ (s.aout o.val).holding = true ∧ s.rn (0x6300 + o.val) 5 ≠ 0 ∧
      msPassed s (s.aout o.val).holdFrom (s.rn (0x6300 + o.val) 5) = true)
    (fun s => s.setAout o.val { s.aout o.val with safe := true, code := safeCode s o.val })) ∧
  (∀ o : Fin 16, Does (.aoutFault o .openLoop)
    (fun s => axRuns s ∧ s.rn (0x6300 + o.val) 1 = 2 ∧ (s.aout o.val).openF = false)
    (fun s => (s.setAout o.val { s.aout o.val with openF := true }).bump (0x6300 + o.val) 8)) ∧
  (∀ o : Fin 16, Does (.aoutFault o .short)
    (fun s => axRuns s ∧ s.rn (0x6300 + o.val) 1 = 1 ∧ (s.aout o.val).shortF = false)
    (fun s => (s.setAout o.val { s.aout o.val with shortF := true }).bump (0x6300 + o.val) 8)) ∧
  (∀ o : Fin 16, Does (.aoutFault o .overtemp)
    (fun s => axRuns s ∧ s.rn (0x6300 + o.val) 1 ≠ 0 ∧ (s.aout o.val).overtemp = false)
    (fun s => (s.setAout o.val { s.aout o.val with overtemp := true }).bump (0x6300 + o.val) 8)) ∧
  (∀ o : Fin 16, Does (.aoutFaultClear o .openLoop) axRuns (fun s => s.setAout o.val { s.aout o.val with openF := false })) ∧
  (∀ o : Fin 16, Does (.aoutFaultClear o .short) axRuns (fun s => s.setAout o.val { s.aout o.val with shortF := false })) ∧
  (∀ o : Fin 16, Does (.aoutFaultClear o .overtemp) axRuns (fun s => s.setAout o.val { s.aout o.val with overtemp := false }))

/-- Field inputs, the field link, outputs and supplies (R431 to R444). -/
def Obligations.FieldEventsAct : Prop :=
  (∀ (i : Fin 64) (level : Bool) (stamp : Nat), Does (.diEdgeAccept i level stamp)
    (fun s => s.on = true ∧ (s.din i.val).fx ≠ level ∧ debounced s i.val stamp = true)
    (fun s =>
      let t := (s.setDin i.val { s.din i.val with fx := level }).bump (0x7100 + i.val) 6
      let lv : Bool := level != (s.rn (0x7100 + i.val) 2 = 1 : Bool)
      { t with field := { t.field with edges := t.field.edges ++ [⟨i.val, lv, stamp - inputDelay⟩] } })) ∧
  (∀ i : Fin 64, Does (.wireBreak i)
    (fun s => s.on = true ∧ s.rn (0x7100 + i.val) 7 = 1 ∧ (s.din i.val).wireBreak = false)
    (fun s => (s.setDin i.val { s.din i.val with wireBreak := true }).bump (0x7100 + i.val) 8)) ∧
  (∀ i : Fin 64, Does (.wireBreakClear i) up (fun s => s.setDin i.val { s.din i.val with wireBreak := false })) ∧
  (∀ good : Bool, Does (.fieldUplinkFrame good) axRuns (fun s => uplinkFrame s good)) ∧
  (∀ good : Bool, Does (.fieldDownlinkFrame good) axRuns (fun s => downlinkFrame s good (ownsField s))) ∧
  (∀ o : Fin 32, Does (.outputFault o .short)
    (fun s => s.on = true ∧ (s.dout o.val).st = 1 ∧ s.elapsed (s.dout o.val).onClk (wallNs 200000) = true)
    (fun s =>
      let n := (s.dout o.val).consec + 1
      let st := if n ≤ s.rn (0x7300 + o.val) 7 ∨ s.rn (0x7300 + o.val) 7 = 255 then 2 else 3
      ((s.setDout o.val { s.dout o.val with st := st, consec := n, lastFault := 1, faultClk := s.clock.timClk }).bump
        (0x7300 + o.val) 0x0B).emit
        (.pin pinField o.val false s.clock.tick 0))) ∧
  (∀ (o : Fin 32) (f : OutFaultKind), Does (.outputFault o f)
    (fun s => s.on = true ∧ (s.dout o.val).st = 1 ∧ s.elapsed (s.dout o.val).onClk (wallNs (faultTime f)) = true)
    (fun s => outputFault s o.val f)) ∧
  (∀ o : Fin 32, Does (.outputRetry o)
    (fun s => s.on = true ∧ (s.dout o.val).st = 2 ∧
      s.elapsed (s.dout o.val).faultClk (wallNs (s.rn (0x7300 + o.val) 6 * 1000000)) = true)
    (fun s =>
      let t := releaseOut s o.val
      if (t.dout o.val).st = 1 then t.bump (0x7300 + o.val) 0x0C else t)) ∧
  (∀ o : Fin 32, Does (.outputFaultCountClear o)
    (fun s => s.on = true ∧ (s.dout o.val).st = 1 ∧ s.elapsed (s.dout o.val).onClk (wallSec 1) = true)
    (fun s => s.setDout o.val { s.dout o.val with consec := 0 })) ∧
  (∀ (q : Fin 4) (mv : BitVec 16), Does (.lplusSample q mv) up (fun s => lplusSample s q.val mv.toNat)) ∧
  (∀ q : Fin 4, Does (.lplusOutputRestart q)
    (fun s => s.on = true ∧ (s.supply q.val).missing = false ∧ (∀ t, (s.supply q.val).lastOn = some t → s.elapsed t (wallNs 1000000) = true) ∧
      ∃ k < 8, (s.dout (8 * q.val + k)).st = 4)
    (fun s => lplusRestart s q.val)) ∧
  Does .fieldLinkLoss (fun s => s.on = true ∧ s.field.linkLost = false ∧ 3 ≤ (s.link (linkNum .axFx)).noGood)
    (fun s => switchAll (({ s with field := { s.field with linkLost := true } }).bump 0x7000 7)) ∧
  Does .fieldLinkRecover (fun s => s.on = true ∧ s.field.linkLost = true ∧ 16 ≤ s.field.goodRun)
    (fun s => switchAll (freshLevels { s with field := { s.field with linkLost := false } })) ∧
  (∀ o : Fin 32, Does (.doLossTimeout o)
    (fun s => s.on = true ∧ (s.dout o.val).holding = true ∧ s.rn (0x7300 + o.val) 4 ≠ 0 ∧
      (s.dout o.val).holdTick + 160 * s.rn (0x7300 + o.val) 4 ≤ s.clock.tick)
    (fun s => switchOut (s.setDout o.val { s.dout o.val with expired := true }) o.val)) ∧
  (∀ o : Fin 32, Does (.openLoad o)
    (fun s => s.on = true ∧ (s.dout o.val).st = 1 ∧ s.elapsed (s.dout o.val).onClk (wallNs 100000000) = true)
    (fun s => s.setDout o.val { s.dout o.val with openLoad := true })) ∧
  (∀ o : Fin 32, Does (.openLoadClear o) up (fun s => s.setDout o.val { s.dout o.val with openLoad := false }))

/-- Releases, cycles, overruns, debug and exchanges of the cyclic program, and work items (R326 to R358, R369 to R372, R460). -/
def Obligations.ProgramEventsAct : Prop :=
  (∀ i : Fin 64, Does (.taskRelease i)
    (fun s => cxRuns s ∧ (s.task i.val).due.isSome = true ∧ (s.task i.val).decl.isSome = true ∧ (s.task i.val).core.isSome = true ∧
      s.prog.pausing = false ∧ (s.task i.val).running = false)
    (fun s => takeRelease s i.val)) ∧
  (∀ (i : Fin 64) (r : CycleResult), Does (.cycleComplete i r) (fun s => cxRuns s ∧ (s.task i.val).running = true)
    (fun s => r.effects.foldl (takeEffect i.val) (completeCycle s i.val r))) ∧
  (∀ i : Fin 64, Does (.cycleTrap i) (fun s => cxRuns s ∧ (s.task i.val).running = true)
    (fun s => taskReaction (rollback s i.val) i.val 6)) ∧
  (∀ (i : Fin 64) (d : TaskDecl) (r : Release), Does (.taskBudgetOverrun i)
    (fun s => cxRuns s ∧ (s.task i.val).running = true ∧ (s.task i.val).decl = some d ∧ (s.task i.val).rel = some r ∧
      overrunExempt s i.val = false ∧ scaledBudget s d < (s.clock.tick + 1 - r.rtick) * 6250) (fun s => countOverrun s i.val)) ∧
  (∀ i : Fin 64, Does (.taskDeadlineMiss i)
    (fun s => cxRuns s ∧ (s.task i.val).running = true ∧ (s.task i.val).missed = false ∧ deadlineNext s i.val = true)
    (fun s =>
      let t := s.setTask i.val { s.task i.val with missed := true }
      if overrunExempt t i.val then t else countOverrun t i.val)) ∧
  (∀ (i : Fin 64) (c : Nat), Does (.overrunReaction i) (fun s => cxRuns s ∧ (s.task i.val).react = some c)
    (fun s => taskReaction s i.val c)) ∧
  (∀ (b : Fin 16) (i : Fin 64), Does (.breakpointHit b i)
    (fun s => cxRuns s ∧ s.rn 0x8000 8 = 1 ∧ s.rn 0x8000 1 = 2 ∧ bit (s.rn 0x8030 (b.val + 1)) 63 = true ∧
      (bits (s.rn 0x8030 (b.val + 1)) 55 48 = i.val ∨ bits (s.rn 0x8030 (b.val + 1)) 55 48 = 0xFF) ∧ (s.task i.val).running = true ∧ (s.task i.val).atBreak = false)
    (fun s => (progHold (s.setTask i.val { s.task i.val with atBreak := true }) 0).setNum 0x8030 0x11 b.val)) ∧
  Does .holdTimeout
    (fun s => cxRuns s ∧ s.rn 0x8000 1 = 3 ∧ s.rn 0x8000 7 ≠ 0 ∧ s.prog.holdFrom + s.rn 0x8000 7 * secUnits < s.now + tickUnits)
    (fun s => requestStop s 4) ∧
  Does .retainCommit (fun s => cxRuns s ∧ s.prog.commitDue = true) retainCommit ∧
  Does .exchangeSwitch (fun s => cxRuns s ∧ s.prog.pausing = true ∧ s.tasks.any (fun r => r.2.running) = false) exchangeSwitch ∧
  Does .exchangePauseLimit
    (fun s => cxRuns s ∧ s.prog.pausing = true ∧ s.rn 0x8010 6 < (s.clock.tick + 1 - s.prog.xTick) * 6250) pauseLimit ∧
  (∀ (job : Nat) (i : Fin 64) (result : List Byte), Does (.libraryJobComplete job i result)
    (fun s => cxRuns s ∧ getAt none s.prog.jobs job = some i.val)
    (fun s => (s.setTask i.val { s.task i.val with results := (s.task i.val).results ++ [(job, result)] }).setProg
      { s.prog with jobs := setAt s.prog.jobs job none })) ∧
  (∀ item : WorkItem, Does (.workItemEnter item) cxRuns (fun s => enterItem s item)) ∧
  (∀ core : Fin 8, Does (.workItemComplete core) (fun s => cxRuns s ∧ (running s core.val).isSome = true)
    (fun s => completeItem s core.val)) ∧
  (∀ (f : Fin 256) (word : BitVec 72), Does (.streamWordWrite f word) (fun s => cxRuns s ∧ fifoProducer s f.val ≠ 0)
    (fun s => (streamWrite s f.val (wordPayload word.toNat)).1))

/-- Migrations, rotation and self-tests of the Ostler (R385 to R396). An item kind counts channel, axis, task from 0 in the command
and from 1 in the Ostler (R378). -/
def Obligations.OstlerEventsAct : Prop :=
  (∀ (kind : Fin 3) (item : Fin 4096) (target : Fin 104), Does (.migrationStart kind item target)
    (fun s => cxRuns s ∧ ∃ p ∈ s.ost.plans, p.kind = kind.val + 1 ∧ p.item = item.val ∧ p.target = target.val)
    (fun s => migrationStart s (kind.val + 1) item.val target.val)) ∧
  (∀ (kind : Fin 3) (item : Fin 4096) (m : Migr), Does (.migrationCopyComplete kind item)
    (fun s => cxRuns s ∧ migOf s (kind.val + 1) item.val = some m ∧ m.stage = 0)
    (fun s => setMig s { m with stage := 1, k0 := nextSample s (kind.val + 1) item.val (s.clock.tick + 1) })) ∧
  (∀ (kind : Fin 3) (item : Fin 4096) (m : Migr), Does (.migrationCompare kind item true)
    (fun s => cxRuns s ∧ migOf s (kind.val + 1) item.val = some m ∧ m.stage = 1 ∧ m.k0 ≤ s.clock.tick)
    (fun s => setMig s { m with equal := m.equal + 1 })) ∧
  (∀ (kind : Fin 3) (item : Fin 4096) (m : Migr), Does (.migrationCompare kind item false)
    (fun s => cxRuns s ∧ migOf s (kind.val + 1) item.val = some m ∧ m.stage = 1 ∧ m.k0 ≤ s.clock.tick)
    (fun s => compareMig s (kind.val + 1) item.val false)) ∧
  (∀ (kind : Fin 3) (item : Fin 4096) (m : Migr), Does (.migrationSwitch kind item)
    (fun s => cxRuns s ∧ migOf s (kind.val + 1) item.val = some m) (fun s => switchMig s (kind.val + 1) item.val)) ∧
  Does .rotation (fun s => cxRuns s ∧ rotationDue s = true) rotation ∧
  (∀ (u : Fin 104) (passed : Bool), Does (.selfTestComplete u passed)
    (fun s => cxRuns s ∧ ((s.unit u.val).st = 3 ∨ (s.unit u.val).st = 4) ∧
      s.elapsed (getAt 0 s.ost.tests u.val) (wallNs (testTime u.val)) = true)
    (fun s => selfTest s u.val passed))

/-- The recorder, stream FIFOs and SSDs (R456, R461, R464, R467, R473 to R479). -/
def Obligations.RecorderEventsAct : Prop :=
  Does .tickAssembly (fun s => cxRuns s ∧ 2 ≤ s.clock.tick ∧ s.rcd.assembled = none ∧ s.rn 0x9000 1 ≠ 0 ∧ s.rcd.sealed = false ∧
    s.rcd.stopped = false ∧ s.serves 9 = true) assembleTick ∧
  Does .shedTimer
    (fun s => cxRuns s ∧ anyActive s = true ∧ s.rcd.waterAt + shedTicks ≤ s.clock.tick ∧ s.rcd.above = true ∧
      s.rn 0x9000 0x0A ≤ bufferFill s)
    (fun s => shedOne { s with rcd := { s.rcd with waterAt := s.clock.tick } }) ∧
  Does .shedTimer
    (fun s => cxRuns s ∧ anyActive s = true ∧ s.rcd.waterAt + shedTicks ≤ s.clock.tick ∧ s.rcd.below = true ∧
      bufferFill s < s.rn 0x9000 0x0A ∧ bufferFill s < s.rn 0x9000 0x0B)
    (fun s => unshedOne { s with rcd := { s.rcd with waterAt := s.clock.tick } }) ∧
  Does .chunkClose (fun s => cxRuns s ∧ chunkDue s = true) (fun s => closeChunk s s.rcd.effort) ∧
  (∀ d : Fin 2, Does (.chunkWritten d) (fun s => cxRuns s ∧ ((s.ssd d.val).st = 4 ∨ (s.ssd d.val).st = 5))
    (fun s => chunkWritten s d.val)) ∧
  (∀ f : Fin 256, Does (.streamFlushTimeout f)
    (fun s => cxRuns s ∧ (s.fifo f.val).fill ≠ [] ∧ (s.fifo f.val).fillAt + s.rn (0x9100 + f.val) 5 ≤ s.clock.tick)
    (fun s => swapBanks (s.setFifo f.val { s.fifo f.val with flush := true }) f.val)) ∧
  (∀ (d : Fin 2) (link : Byte), Does (.ssdLinkUp d link) (fun s => cxRuns s ∧ (s.ssd d.val).st = 0)
    (fun s => ssdUp s d.val link.toNat)) ∧
  (∀ (d : Fin 2) (r : ProbeResult), Does (.ssdProbeComplete d r) (fun s => cxRuns s ∧ (s.ssd d.val).st = 1)
    (fun s => ssdProbed s d.val r)) ∧
  (∀ d : Fin 2, Does (.ssdFormatComplete d) (fun s => cxRuns s ∧ (s.ssd d.val).st = 3) (fun s => ssdFormatted s d.val)) ∧
  (∀ d : Fin 2, Does (.ssdLinkLoss d) (fun s => cxRuns s ∧ (s.ssd d.val).st ≠ 0) (fun s => ssdLost s d.val)) ∧
  (∀ d : Fin 2, Does (.ssdWriteFail ⟨d, true⟩) (fun s => cxRuns s ∧ ((s.ssd d.val).st = 4 ∨ (s.ssd d.val).st = 5))
    (fun s => freeChunks (setSsdState s d.val 7))) ∧
  (∀ d : Fin 2, Does (.ssdWriteFail ⟨d, false⟩)
    (fun s => cxRuns s ∧ ((s.ssd d.val).st = 4 ∨ (s.ssd d.val).st = 5) ∧ (s.ssd d.val).fails < 2)
    (fun s => (s.setSsd d.val { s.ssd d.val with fails := (s.ssd d.val).fails + 1 }).bump (0x9200 + d.val) 0x0A)) ∧
  (∀ d : Fin 2, Does (.ssdWriteFail ⟨d, false⟩)
    (fun s => cxRuns s ∧ ((s.ssd d.val).st = 4 ∨ (s.ssd d.val).st = 5) ∧ 2 ≤ (s.ssd d.val).fails)
    (fun s => freeChunks (setSsdState
      ((s.setSsd d.val { s.ssd d.val with fails := (s.ssd d.val).fails + 1 }).bump (0x9200 + d.val) 0x0A) d.val 7)))

/-- Power, start-up, resets and restarts (R508 to R525, R533 to R535). -/
def Obligations.PowerAndStartupEventsAct : Prop :=
  Does .powerOn (fun s => s.on = false ∧ s.health.supplied = false) powerOn ∧
  (∀ r : StepResult, Does (.startupStepComplete r)
    (fun s => s.on = true ∧ s.health.step ≠ 0 ∧ (s.health.step = 2 → r ≠ .bootFail) ∧ (s.health.step = 7 → acquired s = true) ∧
      s.health.bootRom = false)
    (fun s => endStep (stepWork s s.health.step r) s.health.step)) ∧
  Does .acquisitionTimeout
    (fun s => s.on = true ∧ s.health.step = 7 ∧ s.tickTb.st = .acquiring ∧ s.elapsed s.health.stepClk (wallSec (s.rn 0xB010 2)) = true)
    (fun s => s.setNum 0xB010 5 (s.rn 0xB010 5 ||| 16)) ∧
  Does .resetAssert up
    (fun s =>
      let t := coldState { s with health := { s.health with supplied := true } }
      t.setHealth { t.health with reset := true, nor := .lands }) ∧
  Does .resetRelease (fun s => s.health.reset = true ∧ s.health.supplied = true)
    (fun s => beginStartup (s.setHealth { s.health with reset := false, nor := .cx })) ∧
  Does .resetRelease (fun s => s.health.reset = true ∧ s.health.supplied = false)
    (fun s => s.setHealth { s.health with reset := false, nor := .cx }) ∧
  Does .inputFuseOpen up (fun s => paddockLog ((coldState s).setHealth { (coldState s).health with supplied := false }) 8 0) ∧
  Does .powerFailWarning (fun s => s.on = true ∧ s.health.pfw = none) powerFailWarning ∧
  (∀ clk : Nat, Does .shutdownStep (fun s => s.on = true ∧ s.health.pfw = some clk ∧ s.health.shut = false) shutdownStep) ∧
  (∀ micros : Nat, Does (.undervoltageLockout micros) up (fun s => lockout s micros)) ∧
  (∀ clk : Nat, Does .powerFailClear (fun s => s.on = true ∧ s.health.pfw = some clk)
    (fun s =>
      let t := if s.health.pfwOut = true then s.emit (.pin pinPfw 0 true s.clock.tick 0) else s
      unsealRecorder ((t.setHealth { s.health with pfw := none, pfwHigh := s.clock.timClk, pfwOut := false }).setNum 0xB020 5 0))) ∧
  Does .declareClear
    (fun s => axRuns s ∧ s.health.shut = true ∧ s.health.pfw = none ∧ s.elapsed s.health.pfwHigh (wallNs 100000000) = true)
    (fun s => { s with field := { s.field with sendDecl := false }, health := { s.health with shut := false } }) ∧
  (∀ (v : Nat) (l : List (Fin 104)), Does (.regionUpdateComplete l) (fun s => s.on = true ∧ s.health.updating = some v ∧ v ≠ 1)
    (fun s => updateComplete s (l.map (·.val)))) ∧
  Does .cbWatchdog cxRuns (fun s => unplannedRestart s 3) ∧
  Does .fabricParityError cxRuns (fun s => unplannedRestart s 5) ∧
  (∀ (r : Restart) (good taskGood : Bool), Does (.warmRestartReturn good taskGood)
    (fun s => s.on = true ∧ s.health.restart = some r ∧ s.health.down = true ∧ s.health.tripped = false)
    (fun s => warmReturn s good taskGood))

/-- Memory protection, the governor, trips and the Paddock (R526 to R532, R537 to R539). -/
def Obligations.HealthEventsAct : Prop :=
  Does .dramCorrectableError up (fun s => s.bump 0xF000 1) ∧
  (∀ o : DramOwner, Does (.dramUncorrectableError o) up (fun s => dramUncorrected s o)) ∧
  Does (.mramError .corrected) up (fun s => s.bump 0xF000 4) ∧
  Does (.mramError .copyFailed) up (fun s => s.bump 0xF000 5) ∧
  (∀ n : Fin 64, Does (.mramError (.retainSlot n)) up (fun s => s.setProg { s.prog with slots := setAt s.prog.slots n.val [] })) ∧
  (∀ (kind : Fin 3) (item : Fin 4096), kind ≠ 2 → Does (.clusterMemoryError ⟨true, kind⟩ item) up (fun s => s.bump 0xF000 6)) ∧
  (∀ (kind : Fin 3) (item : Fin 4096), Does (.clusterMemoryError ⟨false, kind⟩ item) up
    (fun s => clusterError s false (kind.val + 1) item.val)) ∧
  Does .dramPatrolScrub up (fun s => s.bump 0xF000 8) ∧
  (∀ (hot : Int) (p : Nat), Does (.governorUpdate hot p) up (fun s => governorUpdate s hot p)) ∧
  (∀ d : Die, Does (.thermalTrip d) up (fun s => thermalTrip s d)) ∧
  Does .thermalTripRelease up (fun s => s.setHealth { s.health with tripped := false }) ∧
  (∀ mv : Nat, Does (.paddockVbatCompare mv) (fun _ => True) (fun s => vbatCompare s mv)) ∧
  Does .paddockPowerReturn (fun _ => True) (fun s => paddockLog s 3 0) ∧
  (∀ b : Bool, Does (.paddockCaseSample b) (fun s => s.paddock.caseOpen ≠ b) (fun s => caseSample s b)) ∧
  (∀ c : Int, Does (.paddockTempSample c) (fun s => s.paddock.tempHigh ≠ decide (c > s.ri 0xB080 3 8))
    (fun s => paddockLog { s with paddock := { s.paddock with tempHigh := decide (c > s.ri 0xB080 3 8) } }
      (if c > s.ri 0xB080 3 8 then 6 else 7) 0)) ∧
  Does .vbatBrownout (fun s => s.on = true) (fun s => { s with paddock := { s.paddock with latch := true } }) ∧
  Does .vbatBrownout (fun s => s.on = false) (fun s => { s with paddock := { s.paddock with latch := true, log := [] } }) ∧
  Does .wakePulseEnd (fun s => s.paddock.wake = true ∧ (s.on = false ∨ s.paddock.wakeAt + 3276 ≤ s.paddock.clock))
    (fun s => ({ s with paddock := { s.paddock with wake := false } }).emit (.pin pinWake 0 true s.clock.tick 0))

/-- What falls due for clients, and their sessions (R63, R73 to R82), and the end of a recipe step (R498). -/
def Obligations.SessionEventsAct : Prop :=
  (∀ (c : ClientId) (txn : BitVec 16) (d : Due), Does (.scheduledWriteDue c txn)
    (fun s => cxRuns s ∧ lcAhead s = false ∧ d ∈ dueWrites s ∧ d.action.work.who = some (c, txn.toNat))
    (fun s =>
      let t := stepEndsDue (applyFirst (applyFirst s isActivate false) isModeRequest false)
      applyDue t [] ((dueWrites t).filter fun d => !((boundaryOf d).any fun w => w.elems.any (isRwc t))))) ∧
  (∀ (c : ClientId) (index : BitVec 16) (sub : Byte) (t : Transfer), Does (.segmentTimeout c index sub)
    (fun s => cxRuns s ∧ s.dict.transfers.find? (fun t => t.client = c && t.index = index.toNat && t.sub = sub.toNat) = some t ∧
      t.last + wallSec 10 < s.clock.timClk)
    (fun s => { s with dict := { s.dict with
      transfers := s.dict.transfers.filter fun t => !(t.index = index.toNat && t.sub = sub.toNat),
      abandoned := s.dict.abandoned ++ [(c, index.toNat, sub.toNat)] } })) ∧
  (∀ (u : Fin 2) (r : Role), Does (.dazSessionOpen u true [r])
    (fun s => servesFn 0 s ∧ bit (s.rn 0x1100 6) u.val = true ∧ s.lay.base.isSome = true ∧ s.dict.sessions = [] ∧ 0 < s.rn 0x1100 2)
    (fun s => { s with dict := { s.dict with sessions := setAt s.dict.sessions 0 (some ⟨u.val, r, s.clock.timClk⟩) } })) ∧
  (∀ (n : Fin 16) (x : Session), Does (.sessionIdleTimeout n)
    (fun s => cxRuns s ∧ getAt none s.dict.sessions n.val = some x ∧ x.lastRequest + wallSec (s.rn 0x1100 3) ≤ s.clock.timClk)
    (fun s => (endSession s n.val).emit (.closed (.session n)))) ∧
  (∀ n : Fin 16, Does (.dazSessionClose n) cxRuns (fun s => endSession s n.val)) ∧
  (∀ (k : Fin 64) (d : Due), Does (.stepEnd k)
    (fun s => cxRuns s ∧ lcAhead s = false ∧ d ∈ endsDue s ∧ d.action.work = .stepEnd k.val) stepEndsDue)

/-- Requests of the dictionary service that nothing refuses (R65, R76 to R80, R571). -/
def Obligations.DictionaryRequestsAct : Prop :=
  (∀ (c : ClientId) (m : DazMsg), headerGood c m = true → m.count = 1 → schedFlag m = false →
    (m.data = [] →
      Does (.dazRead c m) (fun s => served s c ∧ readable s c m.index.toNat m.sub.toNat)
        (fun s => afterRead s c m.txn.toNat m.index.toNat m.sub.toNat) ∧
      (∀ e : Entry, Does (.info c m)
        (fun s => served s c ∧ accessCauses (asked s c) m.index.toNat m.sub.toNat = [] ∧
          entryDef (asked s c) m.index.toNat m.sub.toNat = some e)
        (fun s => respond (asked s c) c 7 m.txn.toNat m.index.toNat m.sub.toNat 1 abOk
          (infoRecord (asked s c) m.index.toNat m.sub.toNat e))) ∧
      Does (.watch c m)
        (fun s => served s c ∧ readable s c m.index.toNat m.sub.toNat ∧
          (s.dict.watches.filter fun w => w.client = c).length < watchLimit c)
        (fun s => serveWatch (asked s c) c m.txn.toNat m.index.toNat m.sub.toNat)) ∧
    (∀ off len : Nat, off < 2 ^ 32 → len + 4 ≤ messageLimit c → m.data = leBytes 4 off ++ leBytes 4 len →
      Does (.readSegment c m)
        (fun s => served s c ∧ readCauses (asked s c) m.index.toNat m.sub.toNat = [] ∧
          off ≤ (peek (asked s c) m.index.toNat m.sub.toNat).length)
        (fun s =>
          let r := take (asked s c) m.index.toNat m.sub.toNat
          respond r.2 c 5 m.txn.toNat m.index.toNat m.sub.toNat 1 abOk (leBytes 4 off ++ (r.1.drop off).take len))) ∧
    (∀ (n : BitVec 16) (w : Watch), m.data = leBytes 2 n.toNat → Does (.cancel c m)
      (fun s => served s c ∧ s.dict.watches = [w] ∧ w.client = c ∧ w.txn = n.toNat)
      (fun s =>
        let t := asked s c
        respond { t with dict := { t.dict with watches := [] } } c 9 m.txn.toNat m.index.toNat m.sub.toNat 1 abOk [])) ∧
    Does (.dazWrite c m)
      (fun s => served s c ∧ writeRefusal (asked s c) c none [⟨m.index.toNat, m.sub.toNat, .oct m.data⟩] [] = none)
      (fun s => acceptWrite (asked s c) 2 c m.txn.toNat none [⟨m.index.toNat, m.sub.toNat, .oct m.data⟩])) ∧
  (∀ (c : ClientId) (m : DazMsg) (l : List Elem), headerGood c m = true → schedFlag m = false →
    takeElems m.count.toNat m.data = some l → (l.head?.map fun e => (e.index, e.sub)) = some (m.index.toNat, m.sub.toNat) →
    Does (.writeMulti c m) (fun s => served s c ∧ writeRefusal (asked s c) c none l [] = none)
      (fun s => acceptWrite (asked s c) 4 c m.txn.toNat none l)) ∧
  (∀ (c : ClientId) (m : DazMsg), headerGood c m = true → m.count = 1 → schedFlag m = false →
    m.data = leBytes 2 m.index.toNat ++ leBytes 1 m.sub.toNat ++ [0, 0, 0, 0, 0] →
    Does (.readMulti c m)
      (fun s => served s c ∧ readCauses (asked s c) m.index.toNat m.sub.toNat = [] ∧
        (elementBytes m.index.toNat m.sub.toNat (peek (asked s c) m.index.toNat m.sub.toNat)).length ≤ messageLimit c)
      (fun s =>
        let r := take (asked s c) m.index.toNat m.sub.toNat
        respond r.2 c 3 m.txn.toNat m.index.toNat m.sub.toNat 1 abOk (elementBytes m.index.toNat m.sub.toNat r.1))) ∧
  (∀ (c : ClientId) (txn : BitVec 16) (k : Fin 16), Does (.captureRecordRead c txn k)
    (fun s => served s c ∧ readable s c (0x7520 + k.val) 7) (fun s => afterRead s c txn.toNat (0x7520 + k.val) 7)) ∧
  (∀ (c : ClientId) (txn : BitVec 16) (f : Fin 256), Does (.streamFifoRead c txn f)
    (fun s => served s c ∧ readable s c (0x9100 + f.val) 9) (fun s => afterRead s c txn.toNat (0x9100 + f.val) 9))

/-- The first segment of a transfer is kept, for each command that carries segments: each answers the next state named here wherever the
client is served, the message is well-formed and not the last segment, no transfer is open, and no cause refuses the segment (R79). -/
def Obligations.SegmentsAct : Prop :=
  (∀ (c : ClientId) (m : DazMsg), Does (.writeSegment c m) (takesSegment c m m.index.toNat m.sub.toNat)
    (fun s => keptSegment s c m m.index.toNat m.sub.toNat)) ∧
  (∀ (c : ClientId) (m : DazMsg), Does (.programImageSegment c m) (takesSegment c m 0x8010 3) (fun s => keptSegment s c m 0x8010 3)) ∧
  (∀ (c : ClientId) (m : DazMsg), Does (.configImageSegment c m) (takesSegment c m 0xC010 1) (fun s => keptSegment s c m 0xC010 1)) ∧
  (∀ (c : ClientId) (m : DazMsg), Does (.firmwarePackageSegment c m) (takesSegment c m 0xB030 1)
    (fun s => keptSegment s c m 0xB030 1))

/-- A write by the commands for the timing reference, the line-cycle length, time bases and Leads: where the dictionary server
serves the client and no cause of R65 refuses the write, the command answers the state after an accepted write of the entry and
bytes named here. -/
def Obligations.TimeAndLeadWritesAct : Prop :=
  ∀ w : WriteCtx,
    (∀ (v : BitVec 16), Writes (.lineCycleLengthWrite w v) w 0x2000 3 (leBytes 2 v.toNat)) ∧
    (∀ (v : Byte), Writes (.timingReferenceWrite w v) w 0x2000 7 [v]) ∧
    (∀ (n : Fin 8) (v : Byte), Writes (.tbModeWrite w n v) w (0x2010 + n.val) 1 [v]) ∧
    (∀ (n : Fin 8) (v : BitVec 96), Writes (.tbSetTime w n v) w (0x2010 + n.val) 0x0D (leBytes 12 v.toNat)) ∧
    (∀ (n : Fin 8) (v : BitVec 32), v.toNat < 256 → Writes (.leadSourceWrite w n false v) w (0x2040 + n.val) 1 (leBytes 1 v.toNat)) ∧
    (∀ (n : Fin 8) (v : BitVec 32), Writes (.leadSourceWrite w n true v) w (0x2040 + n.val) 2 (leBytes 4 v.toNat)) ∧
    (∀ (n : Fin 8) (v : BitVec 64), Writes (.leadRereference w n v) w (0x2040 + n.val) 0x0A (leBytes 8 v.toNat)) ∧
    (∀ (n : Fin 8), Writes (.leadResume w n) w (0x2040 + n.val) 0x15 [1]) ∧
    (∀ (n : Fin 8) (v : BitVec 64), Writes (.virtualLeadCommand w n 0 v) w (0x2040 + n.val) 0x0E (leBytes 8 v.toNat)) ∧
    (∀ (n : Fin 8) (v : BitVec 64), v.toNat < 2 ^ 32 → Writes (.virtualLeadCommand w n 1 v) w (0x2040 + n.val) 0x0F (leBytes 4 v.toNat)) ∧
    (∀ (n : Fin 8) (v : BitVec 64), v.toNat < 2 ^ 32 → Writes (.virtualLeadCommand w n 2 v) w (0x2040 + n.val) 0x10 (leBytes 4 v.toNat))

/-- A write by the commands for stop objects, stations, path engines and Henvy: where the dictionary server serves the client and no
cause of R65 refuses the write, the command answers the state after an accepted write of the entry and bytes named here. -/
def Obligations.BusWritesAct : Prop :=
  ∀ w : WriteCtx,
    (∀ (v : BitVec 64), Writes (.stopObjectSet w v) w 0x3018 3 (leBytes 8 v.toNat)) ∧
    (∀ (v : BitVec 64), Writes (.stopObjectReset w v) w 0x3018 4 (leBytes 8 v.toNat)) ∧
    (∀ (a : Fin 2048) (k : Fin 4) (v : BitVec 64), k ≠ 3 ∧ v.toNat < 256 → Writes (.stationConfigWrite w a k v) w (0x3800 + a.val) (0x0A + k.val) (leBytes 1 v.toNat)) ∧
    (∀ (a : Fin 2048) (v : BitVec 64), Writes (.stationConfigWrite w a 3 v) w (0x3800 + a.val) 0x0D (leBytes 8 v.toNat)) ∧
    (∀ (v : Byte), Writes (.engineRejoin w v) w 0x3060 3 [v]) ∧
    (Writes (.henvyEnable w) w 0x3080 2 [1])

/-- A write by the commands for control channels and traces: where the dictionary server serves the client and no cause of R65
refuses the write, the command answers the state after an accepted write of the entry and bytes named here. -/
def Obligations.ChannelWritesAct : Prop :=
  ∀ w : WriteCtx,
    (∀ (n : Fin 4096), Writes (.channelEnable w n) w (0x4000 + n.val) 3 [1]) ∧
    (∀ (n : Fin 4096), Writes (.channelDisable w n) w (0x4000 + n.val) 3 [0]) ∧
    (∀ (n : Fin 4096) (v : BitVec 16), Writes (.channelCommit w n v) w (0x4000 + n.val) 0x19 (leBytes 2 v.toNat)) ∧
    (∀ (t : Fin 8), Writes (.traceDisarm w t) w (0xF400 + t.val) 8 [0]) ∧
    (∀ (t : Fin 8), Writes (.traceArm w t) w (0xF400 + t.val) 8 [1]) ∧
    (∀ (t : Fin 8), Writes (.traceTriggerNow w t) w (0xF400 + t.val) 8 [2])

/-- A write by the commands for axes and groups: where the dictionary server serves the client and no cause of R65 refuses the
write, the command answers the state after an accepted write of the entry and bytes named here. -/
def Obligations.AxisWritesAct : Prop :=
  ∀ w : WriteCtx,
    (∀ (n : Fin 2048), Writes (.axisEnable w n) w (0x5000 + n.val) 3 [1]) ∧
    (∀ (n : Fin 2048), Writes (.axisDisable w n) w (0x5000 + n.val) 3 [0]) ∧
    (∀ (n : Fin 2048) (r : AxisCmd), Writes (.moveAbs w n r) w (0x5000 + n.val) 0x1C (commandRecord 1 r)) ∧
    (∀ (n : Fin 2048) (r : AxisCmd), Writes (.moveRel w n r) w (0x5000 + n.val) 0x1C (commandRecord 2 r)) ∧
    (∀ (n : Fin 2048) (r : AxisCmd), Writes (.moveVel w n r) w (0x5000 + n.val) 0x1C (commandRecord 3 r)) ∧
    (∀ (n : Fin 2048) (r : AxisCmd), Writes (.stop w n r) w (0x5000 + n.val) 0x1C (commandRecord 4 r)) ∧
    (∀ (n : Fin 2048) (r : AxisCmd), Writes (.gearIn w n r) w (0x5000 + n.val) 0x1C (commandRecord 5 r)) ∧
    (∀ (n : Fin 2048) (r : AxisCmd), Writes (.ratio w n r) w (0x5000 + n.val) 0x1C (commandRecord 6 r)) ∧
    (∀ (n : Fin 2048) (r : AxisCmd), Writes (.gearOut w n r) w (0x5000 + n.val) 0x1C (commandRecord 7 r)) ∧
    (∀ (n : Fin 2048) (r : AxisCmd), Writes (.reset w n r) w (0x5000 + n.val) 0x1C (commandRecord 8 r)) ∧
    (∀ (g : Fin 256) (l : List (BitVec 64)), l.length ≤ 16 → Writes (.groupMoveAbs w g l) w (0x5800 + g.val) 4 (groupRecordBytes 1 l)) ∧
    (∀ (g : Fin 256) (l : List (BitVec 64)), l.length ≤ 16 → Writes (.groupMoveRel w g l) w (0x5800 + g.val) 4 (groupRecordBytes 2 l)) ∧
    (∀ (g : Fin 256), Writes (.groupStop w g) w (0x5800 + g.val) 4 (groupRecordBytes 4 []))

/-- A write by the commands for pulses, encoders, capture lines and homing: where the dictionary server serves the client and no
cause of R65 refuses the write, the command answers the state after an accepted write of the entry and bytes named here. -/
def Obligations.LocalWritesAct : Prop :=
  ∀ w : WriteCtx,
    (∀ (c : Fin 96), Writes (.pwmPulse w c) w (0x7400 + c.val) 0x0B [1]) ∧
    (∀ (e : Fin 16) (v : BitVec 16), Writes (.encoderClearStatus w e v) w (0x7500 + e.val) 6 (leBytes 2 v.toNat)) ∧
    (∀ (c : Fin 16) (v : BitVec 64), Writes (.captureRerefArm w c v) w (0x7520 + c.val) 0x0A (leBytes 8 v.toNat)) ∧
    (∀ (a : Fin 32), Writes (.homingStart w a) w (0x5A00 + a.val) 0x0C [1])

/-- A write by the commands for triggers, analogue inputs and outputs and field I/O: where the dictionary server serves the client
and no cause of R65 refuses the write, the command answers the state after an accepted write of the entry and bytes named here. -/
def Obligations.FieldWritesAct : Prop :=
  ∀ w : WriteCtx,
    (∀ (t : Fin 64), Writes (.triggerFire w t) w (0x6200 + t.val) 0x0B [1]) ∧
    (∀ (t : Fin 64) (v : Byte), Writes (.triggerKindWrite w t v) w (0x6200 + t.val) 1 [v]) ∧
    (∀ (t : Fin 64) (v : BitVec 64), Writes (.triggerLeadPositionWrite w t v) w (0x6200 + t.val) 5 (leBytes 8 v.toNat)) ∧
    (∀ (i : Fin 96) (v : Byte), Writes (.inputRangeWrite w i v) w (0x6100 + i.val) 1 [v]) ∧
    (∀ (o : Fin 16) (v : Byte), Writes (.aoutModeWrite w o v) w (0x6300 + o.val) 1 [v]) ∧
    (∀ (g : Fin 8) (v : Byte), Writes (.inputTypeWrite w g v) w (0x7008 + g.val) 1 [v]) ∧
    (∀ (o : Fin 32) (v : Byte), Writes (.outputEdge w o v) w (0x7300 + o.val) 3 [v]) ∧
    (∀ (o : Fin 32), Writes (.outputReset w o) w (0x7300 + o.val) 9 [1])

/-- A write by the commands for the cyclic program, its images and its tasks: where the dictionary server serves the client and no
cause of R65 refuses the write, the command answers the state after an accepted write of the entry and bytes named here. -/
def Obligations.ProgramWritesAct : Prop :=
  ∀ w : WriteCtx,
    (Writes (.programRun w) w 0x8000 3 [1]) ∧
    (Writes (.programStop w) w 0x8000 3 [2]) ∧
    (Writes (.programHold w) w 0x8000 4 [1]) ∧
    (Writes (.programResume w) w 0x8000 4 [2]) ∧
    (Writes (.programStep w) w 0x8000 4 [3]) ∧
    (Writes (.imageVerify w) w 0x8010 5 [1]) ∧
    (Writes (.programExchange w) w 0x8010 5 [2]) ∧
    (Writes (.programDownload w) w 0x8010 5 [3]) ∧
    (Writes (.imageDiscard w) w 0x8010 5 [4]) ∧
    (Writes (.resetRetain w) w 0x8020 0x0A [1]) ∧
    (Writes (.resetRetainPersistent w) w 0x8020 0x0A [2]) ∧
    (∀ (i : Fin 64), Writes (.taskRestart w i) w (0x8100 + i.val) 0x1B [1]) ∧
    (∀ (i : Fin 64), Writes (.taskClearStatistics w i) w (0x8100 + i.val) 0x1A [1]) ∧
    (∀ (i : Fin 64) (l : List (BitVec 64)), Writes (.taskLeadPositionsWrite w i l) w (0x8100 + i.val) 8 (l.flatMap fun p => leBytes 8 p.toNat)) ∧
    (∀ (i : Fin 64) (v : BitVec 32), Writes (.taskBudgetWrite w i v) w (0x8100 + i.val) 0x0C (leBytes 4 v.toNat)) ∧
    (∀ (index : BitVec 16) (sub : Byte) (data : List Byte), Writes (.exportedVariableWrite w index sub data) w index.toNat sub.toNat data)

/-- A write by the commands for the Ostler and SSDs: where the dictionary server serves the client and no cause of R65 refuses the
write, the command answers the state after an accepted write of the entry and bytes named here. -/
def Obligations.OstlerAndRecorderWritesAct : Prop :=
  ∀ w : WriteCtx,
    (∀ (data : List Byte), Writes (.declareRecordWrite w data) w 0xA000 0x0B data) ∧
    (∀ (kind unit : Byte) (item : BitVec 16), Writes (.migrate w kind item unit) w 0xA010 1 ([1, kind] ++ leBytes 2 item.toNat ++ [unit, 0, 0, 0])) ∧
    (∀ (unit : Byte), Writes (.retest w unit) w 0xA010 1 [2, 0, 0, 0, unit, 0, 0, 0]) ∧
    (∀ (region : Byte), Writes (.evacuate w region) w 0xA010 1 [3, 0, 0, 0, region, 0, 0, 0]) ∧
    (∀ (kind : Byte), Writes (.rebalance w kind) w 0xA010 1 [4, kind, 0, 0, 0, 0, 0, 0]) ∧
    (∀ (c : Fin 13) (v : Byte), Writes (.spareCountWrite w c v) w (0xA200 + c.val) 1 [v]) ∧
    (∀ (d : Fin 2), Writes (.prepareRemove w d) w (0x9200 + d.val) 2 [1]) ∧
    (∀ (d : Fin 2), Writes (.format w d) w (0x9200 + d.val) 2 [2]) ∧
    (∀ (d : Fin 2), Writes (.resume w d) w (0x9200 + d.val) 2 [3])

/-- A write by the commands for configurations, modes, recipes, firmware, restarts and the Paddock: where the dictionary server
serves the client and no cause of R65 refuses the write, the command answers the state after an accepted write of the entry and
bytes named here. -/
def Obligations.LayerAndHealthWritesAct : Prop :=
  ∀ w : WriteCtx,
    (∀ (v : Byte), Writes (.modeRequest w v) w 0xC000 1 [v]) ∧
    (Writes (.liveValueCapture w) w 0xC000 9 [1]) ∧
    (Writes (.configVerify w) w 0xC010 3 [1]) ∧
    (Writes (.configActivate w) w 0xC010 3 [2]) ∧
    (Writes (.configDiscard w) w 0xC010 3 [4]) ∧
    (∀ (k : Fin 64), Writes (.recipeStart w k) w (0xC200 + k.val) 2 [1]) ∧
    (∀ (k : Fin 64), Writes (.recipePause w k) w (0xC200 + k.val) 2 [2]) ∧
    (∀ (k : Fin 64), Writes (.recipeResume w k) w (0xC200 + k.val) 2 [3]) ∧
    (∀ (k : Fin 64), Writes (.recipeAbort w k) w (0xC200 + k.val) 2 [4]) ∧
    (∀ (k : Fin 64), Writes (.recipeAdvance w k) w (0xC200 + k.val) 2 [5]) ∧
    (Writes (.firmwareVerify w) w 0xB030 2 [1]) ∧
    (Writes (.firmwareCommit w) w 0xB030 2 [2]) ∧
    (Writes (.firmwareDiscard w) w 0xB030 2 [3]) ∧
    (Writes (.firmwareCommitAndLock w) w 0xB030 2 [4]) ∧
    (∀ (v : Byte), Writes (.regionUpdate w v) w 0xB030 3 [v]) ∧
    (Writes (.restartCommand w) w 0xB000 7 [1]) ∧
    (Writes (.paddockClearLog w) w 0xB080 5 [1]) ∧
    (∀ (index : BitVec 16) (sub : Byte) (data : List Byte), Writes (.registerWrite w index sub data) w index.toNat sub.toNat data)

end Statements
end

