-- ==== Sys2Proof/Laws/Map.lean ====
section
/-! SUPPORT. Reads and the canonical form of the maps that hold the instances of the state. -/

namespace Sys2Proof.Machine

variable {α : Type}

@[simp] theorem getAt_setAt_self (d : α) (m : Map α) (k : Nat) (a : α) : getAt d (setAt m k a) k = a := by
  induction m with
  | nil => simp [setAt, getAt]
  | cons p t ih =>
    obtain ⟨j, b⟩ := p
    unfold setAt
    split
    · simp [getAt]
    · split
      · simp [getAt]
      · have : j ≠ k := by omega
        simp [getAt, this, ih]

theorem getAt_setAt_ne (d : α) (m : Map α) (k j : Nat) (a : α) (h : j ≠ k) : getAt d (setAt m k a) j = getAt d m j := by
  induction m with
  | nil => simp [setAt, getAt, Ne.symm h]
  | cons p t ih =>
    obtain ⟨i, b⟩ := p
    unfold setAt
    split
    · subst_vars
      simp [getAt, Ne.symm h]
    · split
      · simp [getAt, Ne.symm h]
      · simp only [getAt, ih]

theorem Map.wf_tail {p : Nat × α} {t : Map α} (h : Map.wf (p :: t) = true) : Map.wf t = true := by
  cases t with
  | nil => rfl
  | cons q t => simp [Map.wf] at h; exact h.2

/-- A change of one value keeps the canonical form. -/
theorem Map.wf_setAt (m : Map α) (k : Nat) (a : α) (h : Map.wf m = true) : Map.wf (setAt m k a) = true := by
  induction m with
  | nil => rfl
  | cons p t ih =>
    obtain ⟨j, b⟩ := p
    have ht := ih (Map.wf_tail h)
    unfold setAt
    split
    · subst_vars
      cases t with
      | nil => rfl
      | cons q t => simpa [Map.wf] using h
    · split
      · simp only [Map.wf, Bool.and_eq_true, decide_eq_true_eq]
        exact ⟨by assumption, h⟩
      · cases t with
        | nil => simp only [setAt, Map.wf, Bool.and_eq_true, decide_eq_true_eq]; exact ⟨by omega, trivial⟩
        | cons q t =>
          obtain ⟨i, c⟩ := q
          simp only [Map.wf, Bool.and_eq_true, decide_eq_true_eq] at h
          unfold setAt at ht ⊢
          split <;> rename_i h1
          · subst_vars
            rw [if_pos rfl] at ht
            simp only [Map.wf, Bool.and_eq_true, decide_eq_true_eq]
            exact ⟨h.1, ht⟩
          · rw [if_neg h1] at ht
            split <;> rename_i h2
            · rw [if_pos h2] at ht
              simp only [Map.wf, Bool.and_eq_true, decide_eq_true_eq] at ht ⊢
              exact ⟨by omega, ht⟩
            · rw [if_neg h2] at ht
              simp only [Map.wf, Bool.and_eq_true, decide_eq_true_eq]
              exact ⟨h.1, ht⟩

end Sys2Proof.Machine
end

