-- ==== Sys2Proof/Laws/State.lean ====
section
/-! SUPPORT. One lemma per field for each update of the state, each true by rfl, and what a read gives after an update. -/

namespace Sys2Proof.Machine

variable (s : State)

/-! `State.setTb`. -/
@[simp] theorem State.setTb_regs (n : Nat) (x : TimeBase) : (s.setTb n x).regs = s.regs := rfl
@[simp] theorem State.setTb_dict (n : Nat) (x : TimeBase) : (s.setTb n x).dict = s.dict := rfl
@[simp] theorem State.setTb_clock (n : Nat) (x : TimeBase) : (s.setTb n x).clock = s.clock := rfl
@[simp] theorem State.setTb_tbs (n : Nat) (x : TimeBase) : (s.setTb n x).tbs = setAt s.tbs n x := rfl
@[simp] theorem State.setTb_ports (n : Nat) (x : TimeBase) : (s.setTb n x).ports = s.ports := rfl
@[simp] theorem State.setTb_leads (n : Nat) (x : TimeBase) : (s.setTb n x).leads = s.leads := rfl
@[simp] theorem State.setTb_actions (n : Nat) (x : TimeBase) : (s.setTb n x).actions = s.actions := rfl
@[simp] theorem State.setTb_links (n : Nat) (x : TimeBase) : (s.setTb n x).links = s.links := rfl
@[simp] theorem State.setTb_stations (n : Nat) (x : TimeBase) : (s.setTb n x).stations = s.stations := rfl
@[simp] theorem State.setTb_rings (n : Nat) (x : TimeBase) : (s.setTb n x).rings = s.rings := rfl
@[simp] theorem State.setTb_na (n : Nat) (x : TimeBase) : (s.setTb n x).na = s.na := rfl
@[simp] theorem State.setTb_nb (n : Nat) (x : TimeBase) : (s.setTb n x).nb = s.nb := rfl
@[simp] theorem State.setTb_rein (n : Nat) (x : TimeBase) : (s.setTb n x).rein = s.rein := rfl
@[simp] theorem State.setTb_coast (n : Nat) (x : TimeBase) : (s.setTb n x).coast = s.coast := rfl
@[simp] theorem State.setTb_henvy (n : Nat) (x : TimeBase) : (s.setTb n x).henvy = s.henvy := rfl
@[simp] theorem State.setTb_uplinks (n : Nat) (x : TimeBase) : (s.setTb n x).uplinks = s.uplinks := rfl
@[simp] theorem State.setTb_prp (n : Nat) (x : TimeBase) : (s.setTb n x).prp = s.prp := rfl
@[simp] theorem State.setTb_taken (n : Nat) (x : TimeBase) : (s.setTb n x).taken = s.taken := rfl
@[simp] theorem State.setTb_stored (n : Nat) (x : TimeBase) : (s.setTb n x).stored = s.stored := rfl
@[simp] theorem State.setTb_chans (n : Nat) (x : TimeBase) : (s.setTb n x).chans = s.chans := rfl
@[simp] theorem State.setTb_traces (n : Nat) (x : TimeBase) : (s.setTb n x).traces = s.traces := rfl
@[simp] theorem State.setTb_axes (n : Nat) (x : TimeBase) : (s.setTb n x).axes = s.axes := rfl
@[simp] theorem State.setTb_groups (n : Nat) (x : TimeBase) : (s.setTb n x).groups = s.groups := rfl
@[simp] theorem State.setTb_pwms (n : Nat) (x : TimeBase) : (s.setTb n x).pwms = s.pwms := rfl
@[simp] theorem State.setTb_locals (n : Nat) (x : TimeBase) : (s.setTb n x).locals = s.locals := rfl
@[simp] theorem State.setTb_encs (n : Nat) (x : TimeBase) : (s.setTb n x).encs = s.encs := rfl
@[simp] theorem State.setTb_caps (n : Nat) (x : TimeBase) : (s.setTb n x).caps = s.caps := rfl
@[simp] theorem State.setTb_convs (n : Nat) (x : TimeBase) : (s.setTb n x).convs = s.convs := rfl
@[simp] theorem State.setTb_ains (n : Nat) (x : TimeBase) : (s.setTb n x).ains = s.ains := rfl
@[simp] theorem State.setTb_trigs (n : Nat) (x : TimeBase) : (s.setTb n x).trigs = s.trigs := rfl
@[simp] theorem State.setTb_aouts (n : Nat) (x : TimeBase) : (s.setTb n x).aouts = s.aouts := rfl
@[simp] theorem State.setTb_dins (n : Nat) (x : TimeBase) : (s.setTb n x).dins = s.dins := rfl
@[simp] theorem State.setTb_douts (n : Nat) (x : TimeBase) : (s.setTb n x).douts = s.douts := rfl
@[simp] theorem State.setTb_supplies (n : Nat) (x : TimeBase) : (s.setTb n x).supplies = s.supplies := rfl
@[simp] theorem State.setTb_field (n : Nat) (x : TimeBase) : (s.setTb n x).field = s.field := rfl
@[simp] theorem State.setTb_rcd (n : Nat) (x : TimeBase) : (s.setTb n x).rcd = s.rcd := rfl
@[simp] theorem State.setTb_fifos (n : Nat) (x : TimeBase) : (s.setTb n x).fifos = s.fifos := rfl
@[simp] theorem State.setTb_ssds (n : Nat) (x : TimeBase) : (s.setTb n x).ssds = s.ssds := rfl
@[simp] theorem State.setTb_tasks (n : Nat) (x : TimeBase) : (s.setTb n x).tasks = s.tasks := rfl
@[simp] theorem State.setTb_prog (n : Nat) (x : TimeBase) : (s.setTb n x).prog = s.prog := rfl
@[simp] theorem State.setTb_sched (n : Nat) (x : TimeBase) : (s.setTb n x).sched = s.sched := rfl
@[simp] theorem State.setTb_ost (n : Nat) (x : TimeBase) : (s.setTb n x).ost = s.ost := rfl
@[simp] theorem State.setTb_lay (n : Nat) (x : TimeBase) : (s.setTb n x).lay = s.lay := rfl
@[simp] theorem State.setTb_gov (n : Nat) (x : TimeBase) : (s.setTb n x).gov = s.gov := rfl
@[simp] theorem State.setTb_health (n : Nat) (x : TimeBase) : (s.setTb n x).health = s.health := rfl
@[simp] theorem State.setTb_paddock (n : Nat) (x : TimeBase) : (s.setTb n x).paddock = s.paddock := rfl
@[simp] theorem State.setTb_sent (n : Nat) (x : TimeBase) : (s.setTb n x).sent = s.sent := rfl
@[simp] theorem State.setTb_freeCtr (n : Nat) (x : TimeBase) : (s.setTb n x).freeCtr = s.freeCtr := rfl
@[simp] theorem State.setTb_pending (n : Nat) (x : TimeBase) : (s.setTb n x).pending = s.pending := rfl

@[simp] theorem State.tb_setTb (n : Nat) (x : TimeBase) : (s.setTb n x).tb n = x := getAt_setAt_self _ _ _ _
theorem State.tb_setTb_ne (n m : Nat) (x : TimeBase) (h : m ≠ n) : (s.setTb n x).tb m = s.tb m := getAt_setAt_ne _ _ _ _ _ h

/-! `State.setPort`. -/
@[simp] theorem State.setPort_regs (n : Nat) (x : PtpPort) : (s.setPort n x).regs = s.regs := rfl
@[simp] theorem State.setPort_dict (n : Nat) (x : PtpPort) : (s.setPort n x).dict = s.dict := rfl
@[simp] theorem State.setPort_clock (n : Nat) (x : PtpPort) : (s.setPort n x).clock = s.clock := rfl
@[simp] theorem State.setPort_tbs (n : Nat) (x : PtpPort) : (s.setPort n x).tbs = s.tbs := rfl
@[simp] theorem State.setPort_ports (n : Nat) (x : PtpPort) : (s.setPort n x).ports = setAt s.ports n x := rfl
@[simp] theorem State.setPort_leads (n : Nat) (x : PtpPort) : (s.setPort n x).leads = s.leads := rfl
@[simp] theorem State.setPort_actions (n : Nat) (x : PtpPort) : (s.setPort n x).actions = s.actions := rfl
@[simp] theorem State.setPort_links (n : Nat) (x : PtpPort) : (s.setPort n x).links = s.links := rfl
@[simp] theorem State.setPort_stations (n : Nat) (x : PtpPort) : (s.setPort n x).stations = s.stations := rfl
@[simp] theorem State.setPort_rings (n : Nat) (x : PtpPort) : (s.setPort n x).rings = s.rings := rfl
@[simp] theorem State.setPort_na (n : Nat) (x : PtpPort) : (s.setPort n x).na = s.na := rfl
@[simp] theorem State.setPort_nb (n : Nat) (x : PtpPort) : (s.setPort n x).nb = s.nb := rfl
@[simp] theorem State.setPort_rein (n : Nat) (x : PtpPort) : (s.setPort n x).rein = s.rein := rfl
@[simp] theorem State.setPort_coast (n : Nat) (x : PtpPort) : (s.setPort n x).coast = s.coast := rfl
@[simp] theorem State.setPort_henvy (n : Nat) (x : PtpPort) : (s.setPort n x).henvy = s.henvy := rfl
@[simp] theorem State.setPort_uplinks (n : Nat) (x : PtpPort) : (s.setPort n x).uplinks = s.uplinks := rfl
@[simp] theorem State.setPort_prp (n : Nat) (x : PtpPort) : (s.setPort n x).prp = s.prp := rfl
@[simp] theorem State.setPort_taken (n : Nat) (x : PtpPort) : (s.setPort n x).taken = s.taken := rfl
@[simp] theorem State.setPort_stored (n : Nat) (x : PtpPort) : (s.setPort n x).stored = s.stored := rfl
@[simp] theorem State.setPort_chans (n : Nat) (x : PtpPort) : (s.setPort n x).chans = s.chans := rfl
@[simp] theorem State.setPort_traces (n : Nat) (x : PtpPort) : (s.setPort n x).traces = s.traces := rfl
@[simp] theorem State.setPort_axes (n : Nat) (x : PtpPort) : (s.setPort n x).axes = s.axes := rfl
@[simp] theorem State.setPort_groups (n : Nat) (x : PtpPort) : (s.setPort n x).groups = s.groups := rfl
@[simp] theorem State.setPort_pwms (n : Nat) (x : PtpPort) : (s.setPort n x).pwms = s.pwms := rfl
@[simp] theorem State.setPort_locals (n : Nat) (x : PtpPort) : (s.setPort n x).locals = s.locals := rfl
@[simp] theorem State.setPort_encs (n : Nat) (x : PtpPort) : (s.setPort n x).encs = s.encs := rfl
@[simp] theorem State.setPort_caps (n : Nat) (x : PtpPort) : (s.setPort n x).caps = s.caps := rfl
@[simp] theorem State.setPort_convs (n : Nat) (x : PtpPort) : (s.setPort n x).convs = s.convs := rfl
@[simp] theorem State.setPort_ains (n : Nat) (x : PtpPort) : (s.setPort n x).ains = s.ains := rfl
@[simp] theorem State.setPort_trigs (n : Nat) (x : PtpPort) : (s.setPort n x).trigs = s.trigs := rfl
@[simp] theorem State.setPort_aouts (n : Nat) (x : PtpPort) : (s.setPort n x).aouts = s.aouts := rfl
@[simp] theorem State.setPort_dins (n : Nat) (x : PtpPort) : (s.setPort n x).dins = s.dins := rfl
@[simp] theorem State.setPort_douts (n : Nat) (x : PtpPort) : (s.setPort n x).douts = s.douts := rfl
@[simp] theorem State.setPort_supplies (n : Nat) (x : PtpPort) : (s.setPort n x).supplies = s.supplies := rfl
@[simp] theorem State.setPort_field (n : Nat) (x : PtpPort) : (s.setPort n x).field = s.field := rfl
@[simp] theorem State.setPort_rcd (n : Nat) (x : PtpPort) : (s.setPort n x).rcd = s.rcd := rfl
@[simp] theorem State.setPort_fifos (n : Nat) (x : PtpPort) : (s.setPort n x).fifos = s.fifos := rfl
@[simp] theorem State.setPort_ssds (n : Nat) (x : PtpPort) : (s.setPort n x).ssds = s.ssds := rfl
@[simp] theorem State.setPort_tasks (n : Nat) (x : PtpPort) : (s.setPort n x).tasks = s.tasks := rfl
@[simp] theorem State.setPort_prog (n : Nat) (x : PtpPort) : (s.setPort n x).prog = s.prog := rfl
@[simp] theorem State.setPort_sched (n : Nat) (x : PtpPort) : (s.setPort n x).sched = s.sched := rfl
@[simp] theorem State.setPort_ost (n : Nat) (x : PtpPort) : (s.setPort n x).ost = s.ost := rfl
@[simp] theorem State.setPort_lay (n : Nat) (x : PtpPort) : (s.setPort n x).lay = s.lay := rfl
@[simp] theorem State.setPort_gov (n : Nat) (x : PtpPort) : (s.setPort n x).gov = s.gov := rfl
@[simp] theorem State.setPort_health (n : Nat) (x : PtpPort) : (s.setPort n x).health = s.health := rfl
@[simp] theorem State.setPort_paddock (n : Nat) (x : PtpPort) : (s.setPort n x).paddock = s.paddock := rfl
@[simp] theorem State.setPort_sent (n : Nat) (x : PtpPort) : (s.setPort n x).sent = s.sent := rfl
@[simp] theorem State.setPort_freeCtr (n : Nat) (x : PtpPort) : (s.setPort n x).freeCtr = s.freeCtr := rfl
@[simp] theorem State.setPort_pending (n : Nat) (x : PtpPort) : (s.setPort n x).pending = s.pending := rfl

@[simp] theorem State.port_setPort (n : Nat) (x : PtpPort) : (s.setPort n x).port n = x := getAt_setAt_self _ _ _ _
theorem State.port_setPort_ne (n m : Nat) (x : PtpPort) (h : m ≠ n) : (s.setPort n x).port m = s.port m := getAt_setAt_ne _ _ _ _ _ h

/-! `State.setLead`. -/
@[simp] theorem State.setLead_regs (n : Nat) (x : Lead) : (s.setLead n x).regs = s.regs := rfl
@[simp] theorem State.setLead_dict (n : Nat) (x : Lead) : (s.setLead n x).dict = s.dict := rfl
@[simp] theorem State.setLead_clock (n : Nat) (x : Lead) : (s.setLead n x).clock = s.clock := rfl
@[simp] theorem State.setLead_tbs (n : Nat) (x : Lead) : (s.setLead n x).tbs = s.tbs := rfl
@[simp] theorem State.setLead_ports (n : Nat) (x : Lead) : (s.setLead n x).ports = s.ports := rfl
@[simp] theorem State.setLead_leads (n : Nat) (x : Lead) : (s.setLead n x).leads = setAt s.leads n x := rfl
@[simp] theorem State.setLead_actions (n : Nat) (x : Lead) : (s.setLead n x).actions = s.actions := rfl
@[simp] theorem State.setLead_links (n : Nat) (x : Lead) : (s.setLead n x).links = s.links := rfl
@[simp] theorem State.setLead_stations (n : Nat) (x : Lead) : (s.setLead n x).stations = s.stations := rfl
@[simp] theorem State.setLead_rings (n : Nat) (x : Lead) : (s.setLead n x).rings = s.rings := rfl
@[simp] theorem State.setLead_na (n : Nat) (x : Lead) : (s.setLead n x).na = s.na := rfl
@[simp] theorem State.setLead_nb (n : Nat) (x : Lead) : (s.setLead n x).nb = s.nb := rfl
@[simp] theorem State.setLead_rein (n : Nat) (x : Lead) : (s.setLead n x).rein = s.rein := rfl
@[simp] theorem State.setLead_coast (n : Nat) (x : Lead) : (s.setLead n x).coast = s.coast := rfl
@[simp] theorem State.setLead_henvy (n : Nat) (x : Lead) : (s.setLead n x).henvy = s.henvy := rfl
@[simp] theorem State.setLead_uplinks (n : Nat) (x : Lead) : (s.setLead n x).uplinks = s.uplinks := rfl
@[simp] theorem State.setLead_prp (n : Nat) (x : Lead) : (s.setLead n x).prp = s.prp := rfl
@[simp] theorem State.setLead_taken (n : Nat) (x : Lead) : (s.setLead n x).taken = s.taken := rfl
@[simp] theorem State.setLead_stored (n : Nat) (x : Lead) : (s.setLead n x).stored = s.stored := rfl
@[simp] theorem State.setLead_chans (n : Nat) (x : Lead) : (s.setLead n x).chans = s.chans := rfl
@[simp] theorem State.setLead_traces (n : Nat) (x : Lead) : (s.setLead n x).traces = s.traces := rfl
@[simp] theorem State.setLead_axes (n : Nat) (x : Lead) : (s.setLead n x).axes = s.axes := rfl
@[simp] theorem State.setLead_groups (n : Nat) (x : Lead) : (s.setLead n x).groups = s.groups := rfl
@[simp] theorem State.setLead_pwms (n : Nat) (x : Lead) : (s.setLead n x).pwms = s.pwms := rfl
@[simp] theorem State.setLead_locals (n : Nat) (x : Lead) : (s.setLead n x).locals = s.locals := rfl
@[simp] theorem State.setLead_encs (n : Nat) (x : Lead) : (s.setLead n x).encs = s.encs := rfl
@[simp] theorem State.setLead_caps (n : Nat) (x : Lead) : (s.setLead n x).caps = s.caps := rfl
@[simp] theorem State.setLead_convs (n : Nat) (x : Lead) : (s.setLead n x).convs = s.convs := rfl
@[simp] theorem State.setLead_ains (n : Nat) (x : Lead) : (s.setLead n x).ains = s.ains := rfl
@[simp] theorem State.setLead_trigs (n : Nat) (x : Lead) : (s.setLead n x).trigs = s.trigs := rfl
@[simp] theorem State.setLead_aouts (n : Nat) (x : Lead) : (s.setLead n x).aouts = s.aouts := rfl
@[simp] theorem State.setLead_dins (n : Nat) (x : Lead) : (s.setLead n x).dins = s.dins := rfl
@[simp] theorem State.setLead_douts (n : Nat) (x : Lead) : (s.setLead n x).douts = s.douts := rfl
@[simp] theorem State.setLead_supplies (n : Nat) (x : Lead) : (s.setLead n x).supplies = s.supplies := rfl
@[simp] theorem State.setLead_field (n : Nat) (x : Lead) : (s.setLead n x).field = s.field := rfl
@[simp] theorem State.setLead_rcd (n : Nat) (x : Lead) : (s.setLead n x).rcd = s.rcd := rfl
@[simp] theorem State.setLead_fifos (n : Nat) (x : Lead) : (s.setLead n x).fifos = s.fifos := rfl
@[simp] theorem State.setLead_ssds (n : Nat) (x : Lead) : (s.setLead n x).ssds = s.ssds := rfl
@[simp] theorem State.setLead_tasks (n : Nat) (x : Lead) : (s.setLead n x).tasks = s.tasks := rfl
@[simp] theorem State.setLead_prog (n : Nat) (x : Lead) : (s.setLead n x).prog = s.prog := rfl
@[simp] theorem State.setLead_sched (n : Nat) (x : Lead) : (s.setLead n x).sched = s.sched := rfl
@[simp] theorem State.setLead_ost (n : Nat) (x : Lead) : (s.setLead n x).ost = s.ost := rfl
@[simp] theorem State.setLead_lay (n : Nat) (x : Lead) : (s.setLead n x).lay = s.lay := rfl
@[simp] theorem State.setLead_gov (n : Nat) (x : Lead) : (s.setLead n x).gov = s.gov := rfl
@[simp] theorem State.setLead_health (n : Nat) (x : Lead) : (s.setLead n x).health = s.health := rfl
@[simp] theorem State.setLead_paddock (n : Nat) (x : Lead) : (s.setLead n x).paddock = s.paddock := rfl
@[simp] theorem State.setLead_sent (n : Nat) (x : Lead) : (s.setLead n x).sent = s.sent := rfl
@[simp] theorem State.setLead_freeCtr (n : Nat) (x : Lead) : (s.setLead n x).freeCtr = s.freeCtr := rfl
@[simp] theorem State.setLead_pending (n : Nat) (x : Lead) : (s.setLead n x).pending = s.pending := rfl

@[simp] theorem State.lead_setLead (n : Nat) (x : Lead) : (s.setLead n x).lead n = x := getAt_setAt_self _ _ _ _
theorem State.lead_setLead_ne (n m : Nat) (x : Lead) (h : m ≠ n) : (s.setLead n x).lead m = s.lead m := getAt_setAt_ne _ _ _ _ _ h

/-! `State.setLink`. -/
@[simp] theorem State.setLink_regs (n : Nat) (x : LinkMon) : (s.setLink n x).regs = s.regs := rfl
@[simp] theorem State.setLink_dict (n : Nat) (x : LinkMon) : (s.setLink n x).dict = s.dict := rfl
@[simp] theorem State.setLink_clock (n : Nat) (x : LinkMon) : (s.setLink n x).clock = s.clock := rfl
@[simp] theorem State.setLink_tbs (n : Nat) (x : LinkMon) : (s.setLink n x).tbs = s.tbs := rfl
@[simp] theorem State.setLink_ports (n : Nat) (x : LinkMon) : (s.setLink n x).ports = s.ports := rfl
@[simp] theorem State.setLink_leads (n : Nat) (x : LinkMon) : (s.setLink n x).leads = s.leads := rfl
@[simp] theorem State.setLink_actions (n : Nat) (x : LinkMon) : (s.setLink n x).actions = s.actions := rfl
@[simp] theorem State.setLink_links (n : Nat) (x : LinkMon) : (s.setLink n x).links = setAt s.links n x := rfl
@[simp] theorem State.setLink_stations (n : Nat) (x : LinkMon) : (s.setLink n x).stations = s.stations := rfl
@[simp] theorem State.setLink_rings (n : Nat) (x : LinkMon) : (s.setLink n x).rings = s.rings := rfl
@[simp] theorem State.setLink_na (n : Nat) (x : LinkMon) : (s.setLink n x).na = s.na := rfl
@[simp] theorem State.setLink_nb (n : Nat) (x : LinkMon) : (s.setLink n x).nb = s.nb := rfl
@[simp] theorem State.setLink_rein (n : Nat) (x : LinkMon) : (s.setLink n x).rein = s.rein := rfl
@[simp] theorem State.setLink_coast (n : Nat) (x : LinkMon) : (s.setLink n x).coast = s.coast := rfl
@[simp] theorem State.setLink_henvy (n : Nat) (x : LinkMon) : (s.setLink n x).henvy = s.henvy := rfl
@[simp] theorem State.setLink_uplinks (n : Nat) (x : LinkMon) : (s.setLink n x).uplinks = s.uplinks := rfl
@[simp] theorem State.setLink_prp (n : Nat) (x : LinkMon) : (s.setLink n x).prp = s.prp := rfl
@[simp] theorem State.setLink_taken (n : Nat) (x : LinkMon) : (s.setLink n x).taken = s.taken := rfl
@[simp] theorem State.setLink_stored (n : Nat) (x : LinkMon) : (s.setLink n x).stored = s.stored := rfl
@[simp] theorem State.setLink_chans (n : Nat) (x : LinkMon) : (s.setLink n x).chans = s.chans := rfl
@[simp] theorem State.setLink_traces (n : Nat) (x : LinkMon) : (s.setLink n x).traces = s.traces := rfl
@[simp] theorem State.setLink_axes (n : Nat) (x : LinkMon) : (s.setLink n x).axes = s.axes := rfl
@[simp] theorem State.setLink_groups (n : Nat) (x : LinkMon) : (s.setLink n x).groups = s.groups := rfl
@[simp] theorem State.setLink_pwms (n : Nat) (x : LinkMon) : (s.setLink n x).pwms = s.pwms := rfl
@[simp] theorem State.setLink_locals (n : Nat) (x : LinkMon) : (s.setLink n x).locals = s.locals := rfl
@[simp] theorem State.setLink_encs (n : Nat) (x : LinkMon) : (s.setLink n x).encs = s.encs := rfl
@[simp] theorem State.setLink_caps (n : Nat) (x : LinkMon) : (s.setLink n x).caps = s.caps := rfl
@[simp] theorem State.setLink_convs (n : Nat) (x : LinkMon) : (s.setLink n x).convs = s.convs := rfl
@[simp] theorem State.setLink_ains (n : Nat) (x : LinkMon) : (s.setLink n x).ains = s.ains := rfl
@[simp] theorem State.setLink_trigs (n : Nat) (x : LinkMon) : (s.setLink n x).trigs = s.trigs := rfl
@[simp] theorem State.setLink_aouts (n : Nat) (x : LinkMon) : (s.setLink n x).aouts = s.aouts := rfl
@[simp] theorem State.setLink_dins (n : Nat) (x : LinkMon) : (s.setLink n x).dins = s.dins := rfl
@[simp] theorem State.setLink_douts (n : Nat) (x : LinkMon) : (s.setLink n x).douts = s.douts := rfl
@[simp] theorem State.setLink_supplies (n : Nat) (x : LinkMon) : (s.setLink n x).supplies = s.supplies := rfl
@[simp] theorem State.setLink_field (n : Nat) (x : LinkMon) : (s.setLink n x).field = s.field := rfl
@[simp] theorem State.setLink_rcd (n : Nat) (x : LinkMon) : (s.setLink n x).rcd = s.rcd := rfl
@[simp] theorem State.setLink_fifos (n : Nat) (x : LinkMon) : (s.setLink n x).fifos = s.fifos := rfl
@[simp] theorem State.setLink_ssds (n : Nat) (x : LinkMon) : (s.setLink n x).ssds = s.ssds := rfl
@[simp] theorem State.setLink_tasks (n : Nat) (x : LinkMon) : (s.setLink n x).tasks = s.tasks := rfl
@[simp] theorem State.setLink_prog (n : Nat) (x : LinkMon) : (s.setLink n x).prog = s.prog := rfl
@[simp] theorem State.setLink_sched (n : Nat) (x : LinkMon) : (s.setLink n x).sched = s.sched := rfl
@[simp] theorem State.setLink_ost (n : Nat) (x : LinkMon) : (s.setLink n x).ost = s.ost := rfl
@[simp] theorem State.setLink_lay (n : Nat) (x : LinkMon) : (s.setLink n x).lay = s.lay := rfl
@[simp] theorem State.setLink_gov (n : Nat) (x : LinkMon) : (s.setLink n x).gov = s.gov := rfl
@[simp] theorem State.setLink_health (n : Nat) (x : LinkMon) : (s.setLink n x).health = s.health := rfl
@[simp] theorem State.setLink_paddock (n : Nat) (x : LinkMon) : (s.setLink n x).paddock = s.paddock := rfl
@[simp] theorem State.setLink_sent (n : Nat) (x : LinkMon) : (s.setLink n x).sent = s.sent := rfl
@[simp] theorem State.setLink_freeCtr (n : Nat) (x : LinkMon) : (s.setLink n x).freeCtr = s.freeCtr := rfl
@[simp] theorem State.setLink_pending (n : Nat) (x : LinkMon) : (s.setLink n x).pending = s.pending := rfl

@[simp] theorem State.link_setLink (n : Nat) (x : LinkMon) : (s.setLink n x).link n = x := getAt_setAt_self _ _ _ _
theorem State.link_setLink_ne (n m : Nat) (x : LinkMon) (h : m ≠ n) : (s.setLink n x).link m = s.link m := getAt_setAt_ne _ _ _ _ _ h

/-! `State.setUplink`. -/
@[simp] theorem State.setUplink_regs (n : Nat) (x : Uplink) : (s.setUplink n x).regs = s.regs := rfl
@[simp] theorem State.setUplink_dict (n : Nat) (x : Uplink) : (s.setUplink n x).dict = s.dict := rfl
@[simp] theorem State.setUplink_clock (n : Nat) (x : Uplink) : (s.setUplink n x).clock = s.clock := rfl
@[simp] theorem State.setUplink_tbs (n : Nat) (x : Uplink) : (s.setUplink n x).tbs = s.tbs := rfl
@[simp] theorem State.setUplink_ports (n : Nat) (x : Uplink) : (s.setUplink n x).ports = s.ports := rfl
@[simp] theorem State.setUplink_leads (n : Nat) (x : Uplink) : (s.setUplink n x).leads = s.leads := rfl
@[simp] theorem State.setUplink_actions (n : Nat) (x : Uplink) : (s.setUplink n x).actions = s.actions := rfl
@[simp] theorem State.setUplink_links (n : Nat) (x : Uplink) : (s.setUplink n x).links = s.links := rfl
@[simp] theorem State.setUplink_stations (n : Nat) (x : Uplink) : (s.setUplink n x).stations = s.stations := rfl
@[simp] theorem State.setUplink_rings (n : Nat) (x : Uplink) : (s.setUplink n x).rings = s.rings := rfl
@[simp] theorem State.setUplink_na (n : Nat) (x : Uplink) : (s.setUplink n x).na = s.na := rfl
@[simp] theorem State.setUplink_nb (n : Nat) (x : Uplink) : (s.setUplink n x).nb = s.nb := rfl
@[simp] theorem State.setUplink_rein (n : Nat) (x : Uplink) : (s.setUplink n x).rein = s.rein := rfl
@[simp] theorem State.setUplink_coast (n : Nat) (x : Uplink) : (s.setUplink n x).coast = s.coast := rfl
@[simp] theorem State.setUplink_henvy (n : Nat) (x : Uplink) : (s.setUplink n x).henvy = s.henvy := rfl
@[simp] theorem State.setUplink_uplinks (n : Nat) (x : Uplink) : (s.setUplink n x).uplinks = setAt s.uplinks n x := rfl
@[simp] theorem State.setUplink_prp (n : Nat) (x : Uplink) : (s.setUplink n x).prp = s.prp := rfl
@[simp] theorem State.setUplink_taken (n : Nat) (x : Uplink) : (s.setUplink n x).taken = s.taken := rfl
@[simp] theorem State.setUplink_stored (n : Nat) (x : Uplink) : (s.setUplink n x).stored = s.stored := rfl
@[simp] theorem State.setUplink_chans (n : Nat) (x : Uplink) : (s.setUplink n x).chans = s.chans := rfl
@[simp] theorem State.setUplink_traces (n : Nat) (x : Uplink) : (s.setUplink n x).traces = s.traces := rfl
@[simp] theorem State.setUplink_axes (n : Nat) (x : Uplink) : (s.setUplink n x).axes = s.axes := rfl
@[simp] theorem State.setUplink_groups (n : Nat) (x : Uplink) : (s.setUplink n x).groups = s.groups := rfl
@[simp] theorem State.setUplink_pwms (n : Nat) (x : Uplink) : (s.setUplink n x).pwms = s.pwms := rfl
@[simp] theorem State.setUplink_locals (n : Nat) (x : Uplink) : (s.setUplink n x).locals = s.locals := rfl
@[simp] theorem State.setUplink_encs (n : Nat) (x : Uplink) : (s.setUplink n x).encs = s.encs := rfl
@[simp] theorem State.setUplink_caps (n : Nat) (x : Uplink) : (s.setUplink n x).caps = s.caps := rfl
@[simp] theorem State.setUplink_convs (n : Nat) (x : Uplink) : (s.setUplink n x).convs = s.convs := rfl
@[simp] theorem State.setUplink_ains (n : Nat) (x : Uplink) : (s.setUplink n x).ains = s.ains := rfl
@[simp] theorem State.setUplink_trigs (n : Nat) (x : Uplink) : (s.setUplink n x).trigs = s.trigs := rfl
@[simp] theorem State.setUplink_aouts (n : Nat) (x : Uplink) : (s.setUplink n x).aouts = s.aouts := rfl
@[simp] theorem State.setUplink_dins (n : Nat) (x : Uplink) : (s.setUplink n x).dins = s.dins := rfl
@[simp] theorem State.setUplink_douts (n : Nat) (x : Uplink) : (s.setUplink n x).douts = s.douts := rfl
@[simp] theorem State.setUplink_supplies (n : Nat) (x : Uplink) : (s.setUplink n x).supplies = s.supplies := rfl
@[simp] theorem State.setUplink_field (n : Nat) (x : Uplink) : (s.setUplink n x).field = s.field := rfl
@[simp] theorem State.setUplink_rcd (n : Nat) (x : Uplink) : (s.setUplink n x).rcd = s.rcd := rfl
@[simp] theorem State.setUplink_fifos (n : Nat) (x : Uplink) : (s.setUplink n x).fifos = s.fifos := rfl
@[simp] theorem State.setUplink_ssds (n : Nat) (x : Uplink) : (s.setUplink n x).ssds = s.ssds := rfl
@[simp] theorem State.setUplink_tasks (n : Nat) (x : Uplink) : (s.setUplink n x).tasks = s.tasks := rfl
@[simp] theorem State.setUplink_prog (n : Nat) (x : Uplink) : (s.setUplink n x).prog = s.prog := rfl
@[simp] theorem State.setUplink_sched (n : Nat) (x : Uplink) : (s.setUplink n x).sched = s.sched := rfl
@[simp] theorem State.setUplink_ost (n : Nat) (x : Uplink) : (s.setUplink n x).ost = s.ost := rfl
@[simp] theorem State.setUplink_lay (n : Nat) (x : Uplink) : (s.setUplink n x).lay = s.lay := rfl
@[simp] theorem State.setUplink_gov (n : Nat) (x : Uplink) : (s.setUplink n x).gov = s.gov := rfl
@[simp] theorem State.setUplink_health (n : Nat) (x : Uplink) : (s.setUplink n x).health = s.health := rfl
@[simp] theorem State.setUplink_paddock (n : Nat) (x : Uplink) : (s.setUplink n x).paddock = s.paddock := rfl
@[simp] theorem State.setUplink_sent (n : Nat) (x : Uplink) : (s.setUplink n x).sent = s.sent := rfl
@[simp] theorem State.setUplink_freeCtr (n : Nat) (x : Uplink) : (s.setUplink n x).freeCtr = s.freeCtr := rfl
@[simp] theorem State.setUplink_pending (n : Nat) (x : Uplink) : (s.setUplink n x).pending = s.pending := rfl

@[simp] theorem State.uplink_setUplink (n : Nat) (x : Uplink) : (s.setUplink n x).uplink n = x := getAt_setAt_self _ _ _ _
theorem State.uplink_setUplink_ne (n m : Nat) (x : Uplink) (h : m ≠ n) : (s.setUplink n x).uplink m = s.uplink m := getAt_setAt_ne _ _ _ _ _ h

/-! `State.setStation`. -/
@[simp] theorem State.setStation_regs (n : Nat) (x : Station) : (s.setStation n x).regs = s.regs := rfl
@[simp] theorem State.setStation_dict (n : Nat) (x : Station) : (s.setStation n x).dict = s.dict := rfl
@[simp] theorem State.setStation_clock (n : Nat) (x : Station) : (s.setStation n x).clock = s.clock := rfl
@[simp] theorem State.setStation_tbs (n : Nat) (x : Station) : (s.setStation n x).tbs = s.tbs := rfl
@[simp] theorem State.setStation_ports (n : Nat) (x : Station) : (s.setStation n x).ports = s.ports := rfl
@[simp] theorem State.setStation_leads (n : Nat) (x : Station) : (s.setStation n x).leads = s.leads := rfl
@[simp] theorem State.setStation_actions (n : Nat) (x : Station) : (s.setStation n x).actions = s.actions := rfl
@[simp] theorem State.setStation_links (n : Nat) (x : Station) : (s.setStation n x).links = s.links := rfl
@[simp] theorem State.setStation_stations (n : Nat) (x : Station) : (s.setStation n x).stations = setAt s.stations n x := rfl
@[simp] theorem State.setStation_rings (n : Nat) (x : Station) : (s.setStation n x).rings = s.rings := rfl
@[simp] theorem State.setStation_na (n : Nat) (x : Station) : (s.setStation n x).na = s.na := rfl
@[simp] theorem State.setStation_nb (n : Nat) (x : Station) : (s.setStation n x).nb = s.nb := rfl
@[simp] theorem State.setStation_rein (n : Nat) (x : Station) : (s.setStation n x).rein = s.rein := rfl
@[simp] theorem State.setStation_coast (n : Nat) (x : Station) : (s.setStation n x).coast = s.coast := rfl
@[simp] theorem State.setStation_henvy (n : Nat) (x : Station) : (s.setStation n x).henvy = s.henvy := rfl
@[simp] theorem State.setStation_uplinks (n : Nat) (x : Station) : (s.setStation n x).uplinks = s.uplinks := rfl
@[simp] theorem State.setStation_prp (n : Nat) (x : Station) : (s.setStation n x).prp = s.prp := rfl
@[simp] theorem State.setStation_taken (n : Nat) (x : Station) : (s.setStation n x).taken = s.taken := rfl
@[simp] theorem State.setStation_stored (n : Nat) (x : Station) : (s.setStation n x).stored = s.stored := rfl
@[simp] theorem State.setStation_chans (n : Nat) (x : Station) : (s.setStation n x).chans = s.chans := rfl
@[simp] theorem State.setStation_traces (n : Nat) (x : Station) : (s.setStation n x).traces = s.traces := rfl
@[simp] theorem State.setStation_axes (n : Nat) (x : Station) : (s.setStation n x).axes = s.axes := rfl
@[simp] theorem State.setStation_groups (n : Nat) (x : Station) : (s.setStation n x).groups = s.groups := rfl
@[simp] theorem State.setStation_pwms (n : Nat) (x : Station) : (s.setStation n x).pwms = s.pwms := rfl
@[simp] theorem State.setStation_locals (n : Nat) (x : Station) : (s.setStation n x).locals = s.locals := rfl
@[simp] theorem State.setStation_encs (n : Nat) (x : Station) : (s.setStation n x).encs = s.encs := rfl
@[simp] theorem State.setStation_caps (n : Nat) (x : Station) : (s.setStation n x).caps = s.caps := rfl
@[simp] theorem State.setStation_convs (n : Nat) (x : Station) : (s.setStation n x).convs = s.convs := rfl
@[simp] theorem State.setStation_ains (n : Nat) (x : Station) : (s.setStation n x).ains = s.ains := rfl
@[simp] theorem State.setStation_trigs (n : Nat) (x : Station) : (s.setStation n x).trigs = s.trigs := rfl
@[simp] theorem State.setStation_aouts (n : Nat) (x : Station) : (s.setStation n x).aouts = s.aouts := rfl
@[simp] theorem State.setStation_dins (n : Nat) (x : Station) : (s.setStation n x).dins = s.dins := rfl
@[simp] theorem State.setStation_douts (n : Nat) (x : Station) : (s.setStation n x).douts = s.douts := rfl
@[simp] theorem State.setStation_supplies (n : Nat) (x : Station) : (s.setStation n x).supplies = s.supplies := rfl
@[simp] theorem State.setStation_field (n : Nat) (x : Station) : (s.setStation n x).field = s.field := rfl
@[simp] theorem State.setStation_rcd (n : Nat) (x : Station) : (s.setStation n x).rcd = s.rcd := rfl
@[simp] theorem State.setStation_fifos (n : Nat) (x : Station) : (s.setStation n x).fifos = s.fifos := rfl
@[simp] theorem State.setStation_ssds (n : Nat) (x : Station) : (s.setStation n x).ssds = s.ssds := rfl
@[simp] theorem State.setStation_tasks (n : Nat) (x : Station) : (s.setStation n x).tasks = s.tasks := rfl
@[simp] theorem State.setStation_prog (n : Nat) (x : Station) : (s.setStation n x).prog = s.prog := rfl
@[simp] theorem State.setStation_sched (n : Nat) (x : Station) : (s.setStation n x).sched = s.sched := rfl
@[simp] theorem State.setStation_ost (n : Nat) (x : Station) : (s.setStation n x).ost = s.ost := rfl
@[simp] theorem State.setStation_lay (n : Nat) (x : Station) : (s.setStation n x).lay = s.lay := rfl
@[simp] theorem State.setStation_gov (n : Nat) (x : Station) : (s.setStation n x).gov = s.gov := rfl
@[simp] theorem State.setStation_health (n : Nat) (x : Station) : (s.setStation n x).health = s.health := rfl
@[simp] theorem State.setStation_paddock (n : Nat) (x : Station) : (s.setStation n x).paddock = s.paddock := rfl
@[simp] theorem State.setStation_sent (n : Nat) (x : Station) : (s.setStation n x).sent = s.sent := rfl
@[simp] theorem State.setStation_freeCtr (n : Nat) (x : Station) : (s.setStation n x).freeCtr = s.freeCtr := rfl
@[simp] theorem State.setStation_pending (n : Nat) (x : Station) : (s.setStation n x).pending = s.pending := rfl

@[simp] theorem State.station_setStation (n : Nat) (x : Station) : (s.setStation n x).station n = x := getAt_setAt_self _ _ _ _
theorem State.station_setStation_ne (n m : Nat) (x : Station) (h : m ≠ n) : (s.setStation n x).station m = s.station m := getAt_setAt_ne _ _ _ _ _ h

/-! `State.setRing`. -/
@[simp] theorem State.setRing_regs (n : Nat) (x : Ring) : (s.setRing n x).regs = s.regs := rfl
@[simp] theorem State.setRing_dict (n : Nat) (x : Ring) : (s.setRing n x).dict = s.dict := rfl
@[simp] theorem State.setRing_clock (n : Nat) (x : Ring) : (s.setRing n x).clock = s.clock := rfl
@[simp] theorem State.setRing_tbs (n : Nat) (x : Ring) : (s.setRing n x).tbs = s.tbs := rfl
@[simp] theorem State.setRing_ports (n : Nat) (x : Ring) : (s.setRing n x).ports = s.ports := rfl
@[simp] theorem State.setRing_leads (n : Nat) (x : Ring) : (s.setRing n x).leads = s.leads := rfl
@[simp] theorem State.setRing_actions (n : Nat) (x : Ring) : (s.setRing n x).actions = s.actions := rfl
@[simp] theorem State.setRing_links (n : Nat) (x : Ring) : (s.setRing n x).links = s.links := rfl
@[simp] theorem State.setRing_stations (n : Nat) (x : Ring) : (s.setRing n x).stations = s.stations := rfl
@[simp] theorem State.setRing_rings (n : Nat) (x : Ring) : (s.setRing n x).rings = setAt s.rings n x := rfl
@[simp] theorem State.setRing_na (n : Nat) (x : Ring) : (s.setRing n x).na = s.na := rfl
@[simp] theorem State.setRing_nb (n : Nat) (x : Ring) : (s.setRing n x).nb = s.nb := rfl
@[simp] theorem State.setRing_rein (n : Nat) (x : Ring) : (s.setRing n x).rein = s.rein := rfl
@[simp] theorem State.setRing_coast (n : Nat) (x : Ring) : (s.setRing n x).coast = s.coast := rfl
@[simp] theorem State.setRing_henvy (n : Nat) (x : Ring) : (s.setRing n x).henvy = s.henvy := rfl
@[simp] theorem State.setRing_uplinks (n : Nat) (x : Ring) : (s.setRing n x).uplinks = s.uplinks := rfl
@[simp] theorem State.setRing_prp (n : Nat) (x : Ring) : (s.setRing n x).prp = s.prp := rfl
@[simp] theorem State.setRing_taken (n : Nat) (x : Ring) : (s.setRing n x).taken = s.taken := rfl
@[simp] theorem State.setRing_stored (n : Nat) (x : Ring) : (s.setRing n x).stored = s.stored := rfl
@[simp] theorem State.setRing_chans (n : Nat) (x : Ring) : (s.setRing n x).chans = s.chans := rfl
@[simp] theorem State.setRing_traces (n : Nat) (x : Ring) : (s.setRing n x).traces = s.traces := rfl
@[simp] theorem State.setRing_axes (n : Nat) (x : Ring) : (s.setRing n x).axes = s.axes := rfl
@[simp] theorem State.setRing_groups (n : Nat) (x : Ring) : (s.setRing n x).groups = s.groups := rfl
@[simp] theorem State.setRing_pwms (n : Nat) (x : Ring) : (s.setRing n x).pwms = s.pwms := rfl
@[simp] theorem State.setRing_locals (n : Nat) (x : Ring) : (s.setRing n x).locals = s.locals := rfl
@[simp] theorem State.setRing_encs (n : Nat) (x : Ring) : (s.setRing n x).encs = s.encs := rfl
@[simp] theorem State.setRing_caps (n : Nat) (x : Ring) : (s.setRing n x).caps = s.caps := rfl
@[simp] theorem State.setRing_convs (n : Nat) (x : Ring) : (s.setRing n x).convs = s.convs := rfl
@[simp] theorem State.setRing_ains (n : Nat) (x : Ring) : (s.setRing n x).ains = s.ains := rfl
@[simp] theorem State.setRing_trigs (n : Nat) (x : Ring) : (s.setRing n x).trigs = s.trigs := rfl
@[simp] theorem State.setRing_aouts (n : Nat) (x : Ring) : (s.setRing n x).aouts = s.aouts := rfl
@[simp] theorem State.setRing_dins (n : Nat) (x : Ring) : (s.setRing n x).dins = s.dins := rfl
@[simp] theorem State.setRing_douts (n : Nat) (x : Ring) : (s.setRing n x).douts = s.douts := rfl
@[simp] theorem State.setRing_supplies (n : Nat) (x : Ring) : (s.setRing n x).supplies = s.supplies := rfl
@[simp] theorem State.setRing_field (n : Nat) (x : Ring) : (s.setRing n x).field = s.field := rfl
@[simp] theorem State.setRing_rcd (n : Nat) (x : Ring) : (s.setRing n x).rcd = s.rcd := rfl
@[simp] theorem State.setRing_fifos (n : Nat) (x : Ring) : (s.setRing n x).fifos = s.fifos := rfl
@[simp] theorem State.setRing_ssds (n : Nat) (x : Ring) : (s.setRing n x).ssds = s.ssds := rfl
@[simp] theorem State.setRing_tasks (n : Nat) (x : Ring) : (s.setRing n x).tasks = s.tasks := rfl
@[simp] theorem State.setRing_prog (n : Nat) (x : Ring) : (s.setRing n x).prog = s.prog := rfl
@[simp] theorem State.setRing_sched (n : Nat) (x : Ring) : (s.setRing n x).sched = s.sched := rfl
@[simp] theorem State.setRing_ost (n : Nat) (x : Ring) : (s.setRing n x).ost = s.ost := rfl
@[simp] theorem State.setRing_lay (n : Nat) (x : Ring) : (s.setRing n x).lay = s.lay := rfl
@[simp] theorem State.setRing_gov (n : Nat) (x : Ring) : (s.setRing n x).gov = s.gov := rfl
@[simp] theorem State.setRing_health (n : Nat) (x : Ring) : (s.setRing n x).health = s.health := rfl
@[simp] theorem State.setRing_paddock (n : Nat) (x : Ring) : (s.setRing n x).paddock = s.paddock := rfl
@[simp] theorem State.setRing_sent (n : Nat) (x : Ring) : (s.setRing n x).sent = s.sent := rfl
@[simp] theorem State.setRing_freeCtr (n : Nat) (x : Ring) : (s.setRing n x).freeCtr = s.freeCtr := rfl
@[simp] theorem State.setRing_pending (n : Nat) (x : Ring) : (s.setRing n x).pending = s.pending := rfl

@[simp] theorem State.ring_setRing (n : Nat) (x : Ring) : (s.setRing n x).ring n = x := getAt_setAt_self _ _ _ _
theorem State.ring_setRing_ne (n m : Nat) (x : Ring) (h : m ≠ n) : (s.setRing n x).ring m = s.ring m := getAt_setAt_ne _ _ _ _ _ h

/-! `State.setChan`. -/
@[simp] theorem State.setChan_regs (n : Nat) (x : Chan) : (s.setChan n x).regs = s.regs := rfl
@[simp] theorem State.setChan_dict (n : Nat) (x : Chan) : (s.setChan n x).dict = s.dict := rfl
@[simp] theorem State.setChan_clock (n : Nat) (x : Chan) : (s.setChan n x).clock = s.clock := rfl
@[simp] theorem State.setChan_tbs (n : Nat) (x : Chan) : (s.setChan n x).tbs = s.tbs := rfl
@[simp] theorem State.setChan_ports (n : Nat) (x : Chan) : (s.setChan n x).ports = s.ports := rfl
@[simp] theorem State.setChan_leads (n : Nat) (x : Chan) : (s.setChan n x).leads = s.leads := rfl
@[simp] theorem State.setChan_actions (n : Nat) (x : Chan) : (s.setChan n x).actions = s.actions := rfl
@[simp] theorem State.setChan_links (n : Nat) (x : Chan) : (s.setChan n x).links = s.links := rfl
@[simp] theorem State.setChan_stations (n : Nat) (x : Chan) : (s.setChan n x).stations = s.stations := rfl
@[simp] theorem State.setChan_rings (n : Nat) (x : Chan) : (s.setChan n x).rings = s.rings := rfl
@[simp] theorem State.setChan_na (n : Nat) (x : Chan) : (s.setChan n x).na = s.na := rfl
@[simp] theorem State.setChan_nb (n : Nat) (x : Chan) : (s.setChan n x).nb = s.nb := rfl
@[simp] theorem State.setChan_rein (n : Nat) (x : Chan) : (s.setChan n x).rein = s.rein := rfl
@[simp] theorem State.setChan_coast (n : Nat) (x : Chan) : (s.setChan n x).coast = s.coast := rfl
@[simp] theorem State.setChan_henvy (n : Nat) (x : Chan) : (s.setChan n x).henvy = s.henvy := rfl
@[simp] theorem State.setChan_uplinks (n : Nat) (x : Chan) : (s.setChan n x).uplinks = s.uplinks := rfl
@[simp] theorem State.setChan_prp (n : Nat) (x : Chan) : (s.setChan n x).prp = s.prp := rfl
@[simp] theorem State.setChan_taken (n : Nat) (x : Chan) : (s.setChan n x).taken = s.taken := rfl
@[simp] theorem State.setChan_stored (n : Nat) (x : Chan) : (s.setChan n x).stored = s.stored := rfl
@[simp] theorem State.setChan_chans (n : Nat) (x : Chan) : (s.setChan n x).chans = setAt s.chans n x := rfl
@[simp] theorem State.setChan_traces (n : Nat) (x : Chan) : (s.setChan n x).traces = s.traces := rfl
@[simp] theorem State.setChan_axes (n : Nat) (x : Chan) : (s.setChan n x).axes = s.axes := rfl
@[simp] theorem State.setChan_groups (n : Nat) (x : Chan) : (s.setChan n x).groups = s.groups := rfl
@[simp] theorem State.setChan_pwms (n : Nat) (x : Chan) : (s.setChan n x).pwms = s.pwms := rfl
@[simp] theorem State.setChan_locals (n : Nat) (x : Chan) : (s.setChan n x).locals = s.locals := rfl
@[simp] theorem State.setChan_encs (n : Nat) (x : Chan) : (s.setChan n x).encs = s.encs := rfl
@[simp] theorem State.setChan_caps (n : Nat) (x : Chan) : (s.setChan n x).caps = s.caps := rfl
@[simp] theorem State.setChan_convs (n : Nat) (x : Chan) : (s.setChan n x).convs = s.convs := rfl
@[simp] theorem State.setChan_ains (n : Nat) (x : Chan) : (s.setChan n x).ains = s.ains := rfl
@[simp] theorem State.setChan_trigs (n : Nat) (x : Chan) : (s.setChan n x).trigs = s.trigs := rfl
@[simp] theorem State.setChan_aouts (n : Nat) (x : Chan) : (s.setChan n x).aouts = s.aouts := rfl
@[simp] theorem State.setChan_dins (n : Nat) (x : Chan) : (s.setChan n x).dins = s.dins := rfl
@[simp] theorem State.setChan_douts (n : Nat) (x : Chan) : (s.setChan n x).douts = s.douts := rfl
@[simp] theorem State.setChan_supplies (n : Nat) (x : Chan) : (s.setChan n x).supplies = s.supplies := rfl
@[simp] theorem State.setChan_field (n : Nat) (x : Chan) : (s.setChan n x).field = s.field := rfl
@[simp] theorem State.setChan_rcd (n : Nat) (x : Chan) : (s.setChan n x).rcd = s.rcd := rfl
@[simp] theorem State.setChan_fifos (n : Nat) (x : Chan) : (s.setChan n x).fifos = s.fifos := rfl
@[simp] theorem State.setChan_ssds (n : Nat) (x : Chan) : (s.setChan n x).ssds = s.ssds := rfl
@[simp] theorem State.setChan_tasks (n : Nat) (x : Chan) : (s.setChan n x).tasks = s.tasks := rfl
@[simp] theorem State.setChan_prog (n : Nat) (x : Chan) : (s.setChan n x).prog = s.prog := rfl
@[simp] theorem State.setChan_sched (n : Nat) (x : Chan) : (s.setChan n x).sched = s.sched := rfl
@[simp] theorem State.setChan_ost (n : Nat) (x : Chan) : (s.setChan n x).ost = s.ost := rfl
@[simp] theorem State.setChan_lay (n : Nat) (x : Chan) : (s.setChan n x).lay = s.lay := rfl
@[simp] theorem State.setChan_gov (n : Nat) (x : Chan) : (s.setChan n x).gov = s.gov := rfl
@[simp] theorem State.setChan_health (n : Nat) (x : Chan) : (s.setChan n x).health = s.health := rfl
@[simp] theorem State.setChan_paddock (n : Nat) (x : Chan) : (s.setChan n x).paddock = s.paddock := rfl
@[simp] theorem State.setChan_sent (n : Nat) (x : Chan) : (s.setChan n x).sent = s.sent := rfl
@[simp] theorem State.setChan_freeCtr (n : Nat) (x : Chan) : (s.setChan n x).freeCtr = s.freeCtr := rfl
@[simp] theorem State.setChan_pending (n : Nat) (x : Chan) : (s.setChan n x).pending = s.pending := rfl

@[simp] theorem State.chan_setChan (n : Nat) (x : Chan) : (s.setChan n x).chan n = x := getAt_setAt_self _ _ _ _
theorem State.chan_setChan_ne (n m : Nat) (x : Chan) (h : m ≠ n) : (s.setChan n x).chan m = s.chan m := getAt_setAt_ne _ _ _ _ _ h

/-! `State.setTrace`. -/
@[simp] theorem State.setTrace_regs (n : Nat) (x : Trace) : (s.setTrace n x).regs = s.regs := rfl
@[simp] theorem State.setTrace_dict (n : Nat) (x : Trace) : (s.setTrace n x).dict = s.dict := rfl
@[simp] theorem State.setTrace_clock (n : Nat) (x : Trace) : (s.setTrace n x).clock = s.clock := rfl
@[simp] theorem State.setTrace_tbs (n : Nat) (x : Trace) : (s.setTrace n x).tbs = s.tbs := rfl
@[simp] theorem State.setTrace_ports (n : Nat) (x : Trace) : (s.setTrace n x).ports = s.ports := rfl
@[simp] theorem State.setTrace_leads (n : Nat) (x : Trace) : (s.setTrace n x).leads = s.leads := rfl
@[simp] theorem State.setTrace_actions (n : Nat) (x : Trace) : (s.setTrace n x).actions = s.actions := rfl
@[simp] theorem State.setTrace_links (n : Nat) (x : Trace) : (s.setTrace n x).links = s.links := rfl
@[simp] theorem State.setTrace_stations (n : Nat) (x : Trace) : (s.setTrace n x).stations = s.stations := rfl
@[simp] theorem State.setTrace_rings (n : Nat) (x : Trace) : (s.setTrace n x).rings = s.rings := rfl
@[simp] theorem State.setTrace_na (n : Nat) (x : Trace) : (s.setTrace n x).na = s.na := rfl
@[simp] theorem State.setTrace_nb (n : Nat) (x : Trace) : (s.setTrace n x).nb = s.nb := rfl
@[simp] theorem State.setTrace_rein (n : Nat) (x : Trace) : (s.setTrace n x).rein = s.rein := rfl
@[simp] theorem State.setTrace_coast (n : Nat) (x : Trace) : (s.setTrace n x).coast = s.coast := rfl
@[simp] theorem State.setTrace_henvy (n : Nat) (x : Trace) : (s.setTrace n x).henvy = s.henvy := rfl
@[simp] theorem State.setTrace_uplinks (n : Nat) (x : Trace) : (s.setTrace n x).uplinks = s.uplinks := rfl
@[simp] theorem State.setTrace_prp (n : Nat) (x : Trace) : (s.setTrace n x).prp = s.prp := rfl
@[simp] theorem State.setTrace_taken (n : Nat) (x : Trace) : (s.setTrace n x).taken = s.taken := rfl
@[simp] theorem State.setTrace_stored (n : Nat) (x : Trace) : (s.setTrace n x).stored = s.stored := rfl
@[simp] theorem State.setTrace_chans (n : Nat) (x : Trace) : (s.setTrace n x).chans = s.chans := rfl
@[simp] theorem State.setTrace_traces (n : Nat) (x : Trace) : (s.setTrace n x).traces = setAt s.traces n x := rfl
@[simp] theorem State.setTrace_axes (n : Nat) (x : Trace) : (s.setTrace n x).axes = s.axes := rfl
@[simp] theorem State.setTrace_groups (n : Nat) (x : Trace) : (s.setTrace n x).groups = s.groups := rfl
@[simp] theorem State.setTrace_pwms (n : Nat) (x : Trace) : (s.setTrace n x).pwms = s.pwms := rfl
@[simp] theorem State.setTrace_locals (n : Nat) (x : Trace) : (s.setTrace n x).locals = s.locals := rfl
@[simp] theorem State.setTrace_encs (n : Nat) (x : Trace) : (s.setTrace n x).encs = s.encs := rfl
@[simp] theorem State.setTrace_caps (n : Nat) (x : Trace) : (s.setTrace n x).caps = s.caps := rfl
@[simp] theorem State.setTrace_convs (n : Nat) (x : Trace) : (s.setTrace n x).convs = s.convs := rfl
@[simp] theorem State.setTrace_ains (n : Nat) (x : Trace) : (s.setTrace n x).ains = s.ains := rfl
@[simp] theorem State.setTrace_trigs (n : Nat) (x : Trace) : (s.setTrace n x).trigs = s.trigs := rfl
@[simp] theorem State.setTrace_aouts (n : Nat) (x : Trace) : (s.setTrace n x).aouts = s.aouts := rfl
@[simp] theorem State.setTrace_dins (n : Nat) (x : Trace) : (s.setTrace n x).dins = s.dins := rfl
@[simp] theorem State.setTrace_douts (n : Nat) (x : Trace) : (s.setTrace n x).douts = s.douts := rfl
@[simp] theorem State.setTrace_supplies (n : Nat) (x : Trace) : (s.setTrace n x).supplies = s.supplies := rfl
@[simp] theorem State.setTrace_field (n : Nat) (x : Trace) : (s.setTrace n x).field = s.field := rfl
@[simp] theorem State.setTrace_rcd (n : Nat) (x : Trace) : (s.setTrace n x).rcd = s.rcd := rfl
@[simp] theorem State.setTrace_fifos (n : Nat) (x : Trace) : (s.setTrace n x).fifos = s.fifos := rfl
@[simp] theorem State.setTrace_ssds (n : Nat) (x : Trace) : (s.setTrace n x).ssds = s.ssds := rfl
@[simp] theorem State.setTrace_tasks (n : Nat) (x : Trace) : (s.setTrace n x).tasks = s.tasks := rfl
@[simp] theorem State.setTrace_prog (n : Nat) (x : Trace) : (s.setTrace n x).prog = s.prog := rfl
@[simp] theorem State.setTrace_sched (n : Nat) (x : Trace) : (s.setTrace n x).sched = s.sched := rfl
@[simp] theorem State.setTrace_ost (n : Nat) (x : Trace) : (s.setTrace n x).ost = s.ost := rfl
@[simp] theorem State.setTrace_lay (n : Nat) (x : Trace) : (s.setTrace n x).lay = s.lay := rfl
@[simp] theorem State.setTrace_gov (n : Nat) (x : Trace) : (s.setTrace n x).gov = s.gov := rfl
@[simp] theorem State.setTrace_health (n : Nat) (x : Trace) : (s.setTrace n x).health = s.health := rfl
@[simp] theorem State.setTrace_paddock (n : Nat) (x : Trace) : (s.setTrace n x).paddock = s.paddock := rfl
@[simp] theorem State.setTrace_sent (n : Nat) (x : Trace) : (s.setTrace n x).sent = s.sent := rfl
@[simp] theorem State.setTrace_freeCtr (n : Nat) (x : Trace) : (s.setTrace n x).freeCtr = s.freeCtr := rfl
@[simp] theorem State.setTrace_pending (n : Nat) (x : Trace) : (s.setTrace n x).pending = s.pending := rfl

@[simp] theorem State.trace_setTrace (n : Nat) (x : Trace) : (s.setTrace n x).trace n = x := getAt_setAt_self _ _ _ _
theorem State.trace_setTrace_ne (n m : Nat) (x : Trace) (h : m ≠ n) : (s.setTrace n x).trace m = s.trace m := getAt_setAt_ne _ _ _ _ _ h

/-! `State.setAxis`. -/
@[simp] theorem State.setAxis_regs (n : Nat) (x : Axis) : (s.setAxis n x).regs = s.regs := rfl
@[simp] theorem State.setAxis_dict (n : Nat) (x : Axis) : (s.setAxis n x).dict = s.dict := rfl
@[simp] theorem State.setAxis_clock (n : Nat) (x : Axis) : (s.setAxis n x).clock = s.clock := rfl
@[simp] theorem State.setAxis_tbs (n : Nat) (x : Axis) : (s.setAxis n x).tbs = s.tbs := rfl
@[simp] theorem State.setAxis_ports (n : Nat) (x : Axis) : (s.setAxis n x).ports = s.ports := rfl
@[simp] theorem State.setAxis_leads (n : Nat) (x : Axis) : (s.setAxis n x).leads = s.leads := rfl
@[simp] theorem State.setAxis_actions (n : Nat) (x : Axis) : (s.setAxis n x).actions = s.actions := rfl
@[simp] theorem State.setAxis_links (n : Nat) (x : Axis) : (s.setAxis n x).links = s.links := rfl
@[simp] theorem State.setAxis_stations (n : Nat) (x : Axis) : (s.setAxis n x).stations = s.stations := rfl
@[simp] theorem State.setAxis_rings (n : Nat) (x : Axis) : (s.setAxis n x).rings = s.rings := rfl
@[simp] theorem State.setAxis_na (n : Nat) (x : Axis) : (s.setAxis n x).na = s.na := rfl
@[simp] theorem State.setAxis_nb (n : Nat) (x : Axis) : (s.setAxis n x).nb = s.nb := rfl
@[simp] theorem State.setAxis_rein (n : Nat) (x : Axis) : (s.setAxis n x).rein = s.rein := rfl
@[simp] theorem State.setAxis_coast (n : Nat) (x : Axis) : (s.setAxis n x).coast = s.coast := rfl
@[simp] theorem State.setAxis_henvy (n : Nat) (x : Axis) : (s.setAxis n x).henvy = s.henvy := rfl
@[simp] theorem State.setAxis_uplinks (n : Nat) (x : Axis) : (s.setAxis n x).uplinks = s.uplinks := rfl
@[simp] theorem State.setAxis_prp (n : Nat) (x : Axis) : (s.setAxis n x).prp = s.prp := rfl
@[simp] theorem State.setAxis_taken (n : Nat) (x : Axis) : (s.setAxis n x).taken = s.taken := rfl
@[simp] theorem State.setAxis_stored (n : Nat) (x : Axis) : (s.setAxis n x).stored = s.stored := rfl
@[simp] theorem State.setAxis_chans (n : Nat) (x : Axis) : (s.setAxis n x).chans = s.chans := rfl
@[simp] theorem State.setAxis_traces (n : Nat) (x : Axis) : (s.setAxis n x).traces = s.traces := rfl
@[simp] theorem State.setAxis_axes (n : Nat) (x : Axis) : (s.setAxis n x).axes = setAt s.axes n x := rfl
@[simp] theorem State.setAxis_groups (n : Nat) (x : Axis) : (s.setAxis n x).groups = s.groups := rfl
@[simp] theorem State.setAxis_pwms (n : Nat) (x : Axis) : (s.setAxis n x).pwms = s.pwms := rfl
@[simp] theorem State.setAxis_locals (n : Nat) (x : Axis) : (s.setAxis n x).locals = s.locals := rfl
@[simp] theorem State.setAxis_encs (n : Nat) (x : Axis) : (s.setAxis n x).encs = s.encs := rfl
@[simp] theorem State.setAxis_caps (n : Nat) (x : Axis) : (s.setAxis n x).caps = s.caps := rfl
@[simp] theorem State.setAxis_convs (n : Nat) (x : Axis) : (s.setAxis n x).convs = s.convs := rfl
@[simp] theorem State.setAxis_ains (n : Nat) (x : Axis) : (s.setAxis n x).ains = s.ains := rfl
@[simp] theorem State.setAxis_trigs (n : Nat) (x : Axis) : (s.setAxis n x).trigs = s.trigs := rfl
@[simp] theorem State.setAxis_aouts (n : Nat) (x : Axis) : (s.setAxis n x).aouts = s.aouts := rfl
@[simp] theorem State.setAxis_dins (n : Nat) (x : Axis) : (s.setAxis n x).dins = s.dins := rfl
@[simp] theorem State.setAxis_douts (n : Nat) (x : Axis) : (s.setAxis n x).douts = s.douts := rfl
@[simp] theorem State.setAxis_supplies (n : Nat) (x : Axis) : (s.setAxis n x).supplies = s.supplies := rfl
@[simp] theorem State.setAxis_field (n : Nat) (x : Axis) : (s.setAxis n x).field = s.field := rfl
@[simp] theorem State.setAxis_rcd (n : Nat) (x : Axis) : (s.setAxis n x).rcd = s.rcd := rfl
@[simp] theorem State.setAxis_fifos (n : Nat) (x : Axis) : (s.setAxis n x).fifos = s.fifos := rfl
@[simp] theorem State.setAxis_ssds (n : Nat) (x : Axis) : (s.setAxis n x).ssds = s.ssds := rfl
@[simp] theorem State.setAxis_tasks (n : Nat) (x : Axis) : (s.setAxis n x).tasks = s.tasks := rfl
@[simp] theorem State.setAxis_prog (n : Nat) (x : Axis) : (s.setAxis n x).prog = s.prog := rfl
@[simp] theorem State.setAxis_sched (n : Nat) (x : Axis) : (s.setAxis n x).sched = s.sched := rfl
@[simp] theorem State.setAxis_ost (n : Nat) (x : Axis) : (s.setAxis n x).ost = s.ost := rfl
@[simp] theorem State.setAxis_lay (n : Nat) (x : Axis) : (s.setAxis n x).lay = s.lay := rfl
@[simp] theorem State.setAxis_gov (n : Nat) (x : Axis) : (s.setAxis n x).gov = s.gov := rfl
@[simp] theorem State.setAxis_health (n : Nat) (x : Axis) : (s.setAxis n x).health = s.health := rfl
@[simp] theorem State.setAxis_paddock (n : Nat) (x : Axis) : (s.setAxis n x).paddock = s.paddock := rfl
@[simp] theorem State.setAxis_sent (n : Nat) (x : Axis) : (s.setAxis n x).sent = s.sent := rfl
@[simp] theorem State.setAxis_freeCtr (n : Nat) (x : Axis) : (s.setAxis n x).freeCtr = s.freeCtr := rfl
@[simp] theorem State.setAxis_pending (n : Nat) (x : Axis) : (s.setAxis n x).pending = s.pending := rfl

@[simp] theorem State.axis_setAxis (n : Nat) (x : Axis) : (s.setAxis n x).axis n = x := getAt_setAt_self _ _ _ _
theorem State.axis_setAxis_ne (n m : Nat) (x : Axis) (h : m ≠ n) : (s.setAxis n x).axis m = s.axis m := getAt_setAt_ne _ _ _ _ _ h

/-! `State.setGroup`. -/
@[simp] theorem State.setGroup_regs (n : Nat) (x : Group) : (s.setGroup n x).regs = s.regs := rfl
@[simp] theorem State.setGroup_dict (n : Nat) (x : Group) : (s.setGroup n x).dict = s.dict := rfl
@[simp] theorem State.setGroup_clock (n : Nat) (x : Group) : (s.setGroup n x).clock = s.clock := rfl
@[simp] theorem State.setGroup_tbs (n : Nat) (x : Group) : (s.setGroup n x).tbs = s.tbs := rfl
@[simp] theorem State.setGroup_ports (n : Nat) (x : Group) : (s.setGroup n x).ports = s.ports := rfl
@[simp] theorem State.setGroup_leads (n : Nat) (x : Group) : (s.setGroup n x).leads = s.leads := rfl
@[simp] theorem State.setGroup_actions (n : Nat) (x : Group) : (s.setGroup n x).actions = s.actions := rfl
@[simp] theorem State.setGroup_links (n : Nat) (x : Group) : (s.setGroup n x).links = s.links := rfl
@[simp] theorem State.setGroup_stations (n : Nat) (x : Group) : (s.setGroup n x).stations = s.stations := rfl
@[simp] theorem State.setGroup_rings (n : Nat) (x : Group) : (s.setGroup n x).rings = s.rings := rfl
@[simp] theorem State.setGroup_na (n : Nat) (x : Group) : (s.setGroup n x).na = s.na := rfl
@[simp] theorem State.setGroup_nb (n : Nat) (x : Group) : (s.setGroup n x).nb = s.nb := rfl
@[simp] theorem State.setGroup_rein (n : Nat) (x : Group) : (s.setGroup n x).rein = s.rein := rfl
@[simp] theorem State.setGroup_coast (n : Nat) (x : Group) : (s.setGroup n x).coast = s.coast := rfl
@[simp] theorem State.setGroup_henvy (n : Nat) (x : Group) : (s.setGroup n x).henvy = s.henvy := rfl
@[simp] theorem State.setGroup_uplinks (n : Nat) (x : Group) : (s.setGroup n x).uplinks = s.uplinks := rfl
@[simp] theorem State.setGroup_prp (n : Nat) (x : Group) : (s.setGroup n x).prp = s.prp := rfl
@[simp] theorem State.setGroup_taken (n : Nat) (x : Group) : (s.setGroup n x).taken = s.taken := rfl
@[simp] theorem State.setGroup_stored (n : Nat) (x : Group) : (s.setGroup n x).stored = s.stored := rfl
@[simp] theorem State.setGroup_chans (n : Nat) (x : Group) : (s.setGroup n x).chans = s.chans := rfl
@[simp] theorem State.setGroup_traces (n : Nat) (x : Group) : (s.setGroup n x).traces = s.traces := rfl
@[simp] theorem State.setGroup_axes (n : Nat) (x : Group) : (s.setGroup n x).axes = s.axes := rfl
@[simp] theorem State.setGroup_groups (n : Nat) (x : Group) : (s.setGroup n x).groups = setAt s.groups n x := rfl
@[simp] theorem State.setGroup_pwms (n : Nat) (x : Group) : (s.setGroup n x).pwms = s.pwms := rfl
@[simp] theorem State.setGroup_locals (n : Nat) (x : Group) : (s.setGroup n x).locals = s.locals := rfl
@[simp] theorem State.setGroup_encs (n : Nat) (x : Group) : (s.setGroup n x).encs = s.encs := rfl
@[simp] theorem State.setGroup_caps (n : Nat) (x : Group) : (s.setGroup n x).caps = s.caps := rfl
@[simp] theorem State.setGroup_convs (n : Nat) (x : Group) : (s.setGroup n x).convs = s.convs := rfl
@[simp] theorem State.setGroup_ains (n : Nat) (x : Group) : (s.setGroup n x).ains = s.ains := rfl
@[simp] theorem State.setGroup_trigs (n : Nat) (x : Group) : (s.setGroup n x).trigs = s.trigs := rfl
@[simp] theorem State.setGroup_aouts (n : Nat) (x : Group) : (s.setGroup n x).aouts = s.aouts := rfl
@[simp] theorem State.setGroup_dins (n : Nat) (x : Group) : (s.setGroup n x).dins = s.dins := rfl
@[simp] theorem State.setGroup_douts (n : Nat) (x : Group) : (s.setGroup n x).douts = s.douts := rfl
@[simp] theorem State.setGroup_supplies (n : Nat) (x : Group) : (s.setGroup n x).supplies = s.supplies := rfl
@[simp] theorem State.setGroup_field (n : Nat) (x : Group) : (s.setGroup n x).field = s.field := rfl
@[simp] theorem State.setGroup_rcd (n : Nat) (x : Group) : (s.setGroup n x).rcd = s.rcd := rfl
@[simp] theorem State.setGroup_fifos (n : Nat) (x : Group) : (s.setGroup n x).fifos = s.fifos := rfl
@[simp] theorem State.setGroup_ssds (n : Nat) (x : Group) : (s.setGroup n x).ssds = s.ssds := rfl
@[simp] theorem State.setGroup_tasks (n : Nat) (x : Group) : (s.setGroup n x).tasks = s.tasks := rfl
@[simp] theorem State.setGroup_prog (n : Nat) (x : Group) : (s.setGroup n x).prog = s.prog := rfl
@[simp] theorem State.setGroup_sched (n : Nat) (x : Group) : (s.setGroup n x).sched = s.sched := rfl
@[simp] theorem State.setGroup_ost (n : Nat) (x : Group) : (s.setGroup n x).ost = s.ost := rfl
@[simp] theorem State.setGroup_lay (n : Nat) (x : Group) : (s.setGroup n x).lay = s.lay := rfl
@[simp] theorem State.setGroup_gov (n : Nat) (x : Group) : (s.setGroup n x).gov = s.gov := rfl
@[simp] theorem State.setGroup_health (n : Nat) (x : Group) : (s.setGroup n x).health = s.health := rfl
@[simp] theorem State.setGroup_paddock (n : Nat) (x : Group) : (s.setGroup n x).paddock = s.paddock := rfl
@[simp] theorem State.setGroup_sent (n : Nat) (x : Group) : (s.setGroup n x).sent = s.sent := rfl
@[simp] theorem State.setGroup_freeCtr (n : Nat) (x : Group) : (s.setGroup n x).freeCtr = s.freeCtr := rfl
@[simp] theorem State.setGroup_pending (n : Nat) (x : Group) : (s.setGroup n x).pending = s.pending := rfl

@[simp] theorem State.group_setGroup (n : Nat) (x : Group) : (s.setGroup n x).group n = x := getAt_setAt_self _ _ _ _
theorem State.group_setGroup_ne (n m : Nat) (x : Group) (h : m ≠ n) : (s.setGroup n x).group m = s.group m := getAt_setAt_ne _ _ _ _ _ h

/-! `State.setPwm`. -/
@[simp] theorem State.setPwm_regs (n : Nat) (x : Pwm) : (s.setPwm n x).regs = s.regs := rfl
@[simp] theorem State.setPwm_dict (n : Nat) (x : Pwm) : (s.setPwm n x).dict = s.dict := rfl
@[simp] theorem State.setPwm_clock (n : Nat) (x : Pwm) : (s.setPwm n x).clock = s.clock := rfl
@[simp] theorem State.setPwm_tbs (n : Nat) (x : Pwm) : (s.setPwm n x).tbs = s.tbs := rfl
@[simp] theorem State.setPwm_ports (n : Nat) (x : Pwm) : (s.setPwm n x).ports = s.ports := rfl
@[simp] theorem State.setPwm_leads (n : Nat) (x : Pwm) : (s.setPwm n x).leads = s.leads := rfl
@[simp] theorem State.setPwm_actions (n : Nat) (x : Pwm) : (s.setPwm n x).actions = s.actions := rfl
@[simp] theorem State.setPwm_links (n : Nat) (x : Pwm) : (s.setPwm n x).links = s.links := rfl
@[simp] theorem State.setPwm_stations (n : Nat) (x : Pwm) : (s.setPwm n x).stations = s.stations := rfl
@[simp] theorem State.setPwm_rings (n : Nat) (x : Pwm) : (s.setPwm n x).rings = s.rings := rfl
@[simp] theorem State.setPwm_na (n : Nat) (x : Pwm) : (s.setPwm n x).na = s.na := rfl
@[simp] theorem State.setPwm_nb (n : Nat) (x : Pwm) : (s.setPwm n x).nb = s.nb := rfl
@[simp] theorem State.setPwm_rein (n : Nat) (x : Pwm) : (s.setPwm n x).rein = s.rein := rfl
@[simp] theorem State.setPwm_coast (n : Nat) (x : Pwm) : (s.setPwm n x).coast = s.coast := rfl
@[simp] theorem State.setPwm_henvy (n : Nat) (x : Pwm) : (s.setPwm n x).henvy = s.henvy := rfl
@[simp] theorem State.setPwm_uplinks (n : Nat) (x : Pwm) : (s.setPwm n x).uplinks = s.uplinks := rfl
@[simp] theorem State.setPwm_prp (n : Nat) (x : Pwm) : (s.setPwm n x).prp = s.prp := rfl
@[simp] theorem State.setPwm_taken (n : Nat) (x : Pwm) : (s.setPwm n x).taken = s.taken := rfl
@[simp] theorem State.setPwm_stored (n : Nat) (x : Pwm) : (s.setPwm n x).stored = s.stored := rfl
@[simp] theorem State.setPwm_chans (n : Nat) (x : Pwm) : (s.setPwm n x).chans = s.chans := rfl
@[simp] theorem State.setPwm_traces (n : Nat) (x : Pwm) : (s.setPwm n x).traces = s.traces := rfl
@[simp] theorem State.setPwm_axes (n : Nat) (x : Pwm) : (s.setPwm n x).axes = s.axes := rfl
@[simp] theorem State.setPwm_groups (n : Nat) (x : Pwm) : (s.setPwm n x).groups = s.groups := rfl
@[simp] theorem State.setPwm_pwms (n : Nat) (x : Pwm) : (s.setPwm n x).pwms = setAt s.pwms n x := rfl
@[simp] theorem State.setPwm_locals (n : Nat) (x : Pwm) : (s.setPwm n x).locals = s.locals := rfl
@[simp] theorem State.setPwm_encs (n : Nat) (x : Pwm) : (s.setPwm n x).encs = s.encs := rfl
@[simp] theorem State.setPwm_caps (n : Nat) (x : Pwm) : (s.setPwm n x).caps = s.caps := rfl
@[simp] theorem State.setPwm_convs (n : Nat) (x : Pwm) : (s.setPwm n x).convs = s.convs := rfl
@[simp] theorem State.setPwm_ains (n : Nat) (x : Pwm) : (s.setPwm n x).ains = s.ains := rfl
@[simp] theorem State.setPwm_trigs (n : Nat) (x : Pwm) : (s.setPwm n x).trigs = s.trigs := rfl
@[simp] theorem State.setPwm_aouts (n : Nat) (x : Pwm) : (s.setPwm n x).aouts = s.aouts := rfl
@[simp] theorem State.setPwm_dins (n : Nat) (x : Pwm) : (s.setPwm n x).dins = s.dins := rfl
@[simp] theorem State.setPwm_douts (n : Nat) (x : Pwm) : (s.setPwm n x).douts = s.douts := rfl
@[simp] theorem State.setPwm_supplies (n : Nat) (x : Pwm) : (s.setPwm n x).supplies = s.supplies := rfl
@[simp] theorem State.setPwm_field (n : Nat) (x : Pwm) : (s.setPwm n x).field = s.field := rfl
@[simp] theorem State.setPwm_rcd (n : Nat) (x : Pwm) : (s.setPwm n x).rcd = s.rcd := rfl
@[simp] theorem State.setPwm_fifos (n : Nat) (x : Pwm) : (s.setPwm n x).fifos = s.fifos := rfl
@[simp] theorem State.setPwm_ssds (n : Nat) (x : Pwm) : (s.setPwm n x).ssds = s.ssds := rfl
@[simp] theorem State.setPwm_tasks (n : Nat) (x : Pwm) : (s.setPwm n x).tasks = s.tasks := rfl
@[simp] theorem State.setPwm_prog (n : Nat) (x : Pwm) : (s.setPwm n x).prog = s.prog := rfl
@[simp] theorem State.setPwm_sched (n : Nat) (x : Pwm) : (s.setPwm n x).sched = s.sched := rfl
@[simp] theorem State.setPwm_ost (n : Nat) (x : Pwm) : (s.setPwm n x).ost = s.ost := rfl
@[simp] theorem State.setPwm_lay (n : Nat) (x : Pwm) : (s.setPwm n x).lay = s.lay := rfl
@[simp] theorem State.setPwm_gov (n : Nat) (x : Pwm) : (s.setPwm n x).gov = s.gov := rfl
@[simp] theorem State.setPwm_health (n : Nat) (x : Pwm) : (s.setPwm n x).health = s.health := rfl
@[simp] theorem State.setPwm_paddock (n : Nat) (x : Pwm) : (s.setPwm n x).paddock = s.paddock := rfl
@[simp] theorem State.setPwm_sent (n : Nat) (x : Pwm) : (s.setPwm n x).sent = s.sent := rfl
@[simp] theorem State.setPwm_freeCtr (n : Nat) (x : Pwm) : (s.setPwm n x).freeCtr = s.freeCtr := rfl
@[simp] theorem State.setPwm_pending (n : Nat) (x : Pwm) : (s.setPwm n x).pending = s.pending := rfl

@[simp] theorem State.pwm_setPwm (n : Nat) (x : Pwm) : (s.setPwm n x).pwm n = x := getAt_setAt_self _ _ _ _
theorem State.pwm_setPwm_ne (n m : Nat) (x : Pwm) (h : m ≠ n) : (s.setPwm n x).pwm m = s.pwm m := getAt_setAt_ne _ _ _ _ _ h

/-! `State.setLoc`. -/
@[simp] theorem State.setLoc_regs (n : Nat) (x : LocalAxis) : (s.setLoc n x).regs = s.regs := rfl
@[simp] theorem State.setLoc_dict (n : Nat) (x : LocalAxis) : (s.setLoc n x).dict = s.dict := rfl
@[simp] theorem State.setLoc_clock (n : Nat) (x : LocalAxis) : (s.setLoc n x).clock = s.clock := rfl
@[simp] theorem State.setLoc_tbs (n : Nat) (x : LocalAxis) : (s.setLoc n x).tbs = s.tbs := rfl
@[simp] theorem State.setLoc_ports (n : Nat) (x : LocalAxis) : (s.setLoc n x).ports = s.ports := rfl
@[simp] theorem State.setLoc_leads (n : Nat) (x : LocalAxis) : (s.setLoc n x).leads = s.leads := rfl
@[simp] theorem State.setLoc_actions (n : Nat) (x : LocalAxis) : (s.setLoc n x).actions = s.actions := rfl
@[simp] theorem State.setLoc_links (n : Nat) (x : LocalAxis) : (s.setLoc n x).links = s.links := rfl
@[simp] theorem State.setLoc_stations (n : Nat) (x : LocalAxis) : (s.setLoc n x).stations = s.stations := rfl
@[simp] theorem State.setLoc_rings (n : Nat) (x : LocalAxis) : (s.setLoc n x).rings = s.rings := rfl
@[simp] theorem State.setLoc_na (n : Nat) (x : LocalAxis) : (s.setLoc n x).na = s.na := rfl
@[simp] theorem State.setLoc_nb (n : Nat) (x : LocalAxis) : (s.setLoc n x).nb = s.nb := rfl
@[simp] theorem State.setLoc_rein (n : Nat) (x : LocalAxis) : (s.setLoc n x).rein = s.rein := rfl
@[simp] theorem State.setLoc_coast (n : Nat) (x : LocalAxis) : (s.setLoc n x).coast = s.coast := rfl
@[simp] theorem State.setLoc_henvy (n : Nat) (x : LocalAxis) : (s.setLoc n x).henvy = s.henvy := rfl
@[simp] theorem State.setLoc_uplinks (n : Nat) (x : LocalAxis) : (s.setLoc n x).uplinks = s.uplinks := rfl
@[simp] theorem State.setLoc_prp (n : Nat) (x : LocalAxis) : (s.setLoc n x).prp = s.prp := rfl
@[simp] theorem State.setLoc_taken (n : Nat) (x : LocalAxis) : (s.setLoc n x).taken = s.taken := rfl
@[simp] theorem State.setLoc_stored (n : Nat) (x : LocalAxis) : (s.setLoc n x).stored = s.stored := rfl
@[simp] theorem State.setLoc_chans (n : Nat) (x : LocalAxis) : (s.setLoc n x).chans = s.chans := rfl
@[simp] theorem State.setLoc_traces (n : Nat) (x : LocalAxis) : (s.setLoc n x).traces = s.traces := rfl
@[simp] theorem State.setLoc_axes (n : Nat) (x : LocalAxis) : (s.setLoc n x).axes = s.axes := rfl
@[simp] theorem State.setLoc_groups (n : Nat) (x : LocalAxis) : (s.setLoc n x).groups = s.groups := rfl
@[simp] theorem State.setLoc_pwms (n : Nat) (x : LocalAxis) : (s.setLoc n x).pwms = s.pwms := rfl
@[simp] theorem State.setLoc_locals (n : Nat) (x : LocalAxis) : (s.setLoc n x).locals = setAt s.locals n x := rfl
@[simp] theorem State.setLoc_encs (n : Nat) (x : LocalAxis) : (s.setLoc n x).encs = s.encs := rfl
@[simp] theorem State.setLoc_caps (n : Nat) (x : LocalAxis) : (s.setLoc n x).caps = s.caps := rfl
@[simp] theorem State.setLoc_convs (n : Nat) (x : LocalAxis) : (s.setLoc n x).convs = s.convs := rfl
@[simp] theorem State.setLoc_ains (n : Nat) (x : LocalAxis) : (s.setLoc n x).ains = s.ains := rfl
@[simp] theorem State.setLoc_trigs (n : Nat) (x : LocalAxis) : (s.setLoc n x).trigs = s.trigs := rfl
@[simp] theorem State.setLoc_aouts (n : Nat) (x : LocalAxis) : (s.setLoc n x).aouts = s.aouts := rfl
@[simp] theorem State.setLoc_dins (n : Nat) (x : LocalAxis) : (s.setLoc n x).dins = s.dins := rfl
@[simp] theorem State.setLoc_douts (n : Nat) (x : LocalAxis) : (s.setLoc n x).douts = s.douts := rfl
@[simp] theorem State.setLoc_supplies (n : Nat) (x : LocalAxis) : (s.setLoc n x).supplies = s.supplies := rfl
@[simp] theorem State.setLoc_field (n : Nat) (x : LocalAxis) : (s.setLoc n x).field = s.field := rfl
@[simp] theorem State.setLoc_rcd (n : Nat) (x : LocalAxis) : (s.setLoc n x).rcd = s.rcd := rfl
@[simp] theorem State.setLoc_fifos (n : Nat) (x : LocalAxis) : (s.setLoc n x).fifos = s.fifos := rfl
@[simp] theorem State.setLoc_ssds (n : Nat) (x : LocalAxis) : (s.setLoc n x).ssds = s.ssds := rfl
@[simp] theorem State.setLoc_tasks (n : Nat) (x : LocalAxis) : (s.setLoc n x).tasks = s.tasks := rfl
@[simp] theorem State.setLoc_prog (n : Nat) (x : LocalAxis) : (s.setLoc n x).prog = s.prog := rfl
@[simp] theorem State.setLoc_sched (n : Nat) (x : LocalAxis) : (s.setLoc n x).sched = s.sched := rfl
@[simp] theorem State.setLoc_ost (n : Nat) (x : LocalAxis) : (s.setLoc n x).ost = s.ost := rfl
@[simp] theorem State.setLoc_lay (n : Nat) (x : LocalAxis) : (s.setLoc n x).lay = s.lay := rfl
@[simp] theorem State.setLoc_gov (n : Nat) (x : LocalAxis) : (s.setLoc n x).gov = s.gov := rfl
@[simp] theorem State.setLoc_health (n : Nat) (x : LocalAxis) : (s.setLoc n x).health = s.health := rfl
@[simp] theorem State.setLoc_paddock (n : Nat) (x : LocalAxis) : (s.setLoc n x).paddock = s.paddock := rfl
@[simp] theorem State.setLoc_sent (n : Nat) (x : LocalAxis) : (s.setLoc n x).sent = s.sent := rfl
@[simp] theorem State.setLoc_freeCtr (n : Nat) (x : LocalAxis) : (s.setLoc n x).freeCtr = s.freeCtr := rfl
@[simp] theorem State.setLoc_pending (n : Nat) (x : LocalAxis) : (s.setLoc n x).pending = s.pending := rfl

@[simp] theorem State.loc_setLoc (n : Nat) (x : LocalAxis) : (s.setLoc n x).loc n = x := getAt_setAt_self _ _ _ _
theorem State.loc_setLoc_ne (n m : Nat) (x : LocalAxis) (h : m ≠ n) : (s.setLoc n x).loc m = s.loc m := getAt_setAt_ne _ _ _ _ _ h

/-! `State.setEnc`. -/
@[simp] theorem State.setEnc_regs (n : Nat) (x : Enc) : (s.setEnc n x).regs = s.regs := rfl
@[simp] theorem State.setEnc_dict (n : Nat) (x : Enc) : (s.setEnc n x).dict = s.dict := rfl
@[simp] theorem State.setEnc_clock (n : Nat) (x : Enc) : (s.setEnc n x).clock = s.clock := rfl
@[simp] theorem State.setEnc_tbs (n : Nat) (x : Enc) : (s.setEnc n x).tbs = s.tbs := rfl
@[simp] theorem State.setEnc_ports (n : Nat) (x : Enc) : (s.setEnc n x).ports = s.ports := rfl
@[simp] theorem State.setEnc_leads (n : Nat) (x : Enc) : (s.setEnc n x).leads = s.leads := rfl
@[simp] theorem State.setEnc_actions (n : Nat) (x : Enc) : (s.setEnc n x).actions = s.actions := rfl
@[simp] theorem State.setEnc_links (n : Nat) (x : Enc) : (s.setEnc n x).links = s.links := rfl
@[simp] theorem State.setEnc_stations (n : Nat) (x : Enc) : (s.setEnc n x).stations = s.stations := rfl
@[simp] theorem State.setEnc_rings (n : Nat) (x : Enc) : (s.setEnc n x).rings = s.rings := rfl
@[simp] theorem State.setEnc_na (n : Nat) (x : Enc) : (s.setEnc n x).na = s.na := rfl
@[simp] theorem State.setEnc_nb (n : Nat) (x : Enc) : (s.setEnc n x).nb = s.nb := rfl
@[simp] theorem State.setEnc_rein (n : Nat) (x : Enc) : (s.setEnc n x).rein = s.rein := rfl
@[simp] theorem State.setEnc_coast (n : Nat) (x : Enc) : (s.setEnc n x).coast = s.coast := rfl
@[simp] theorem State.setEnc_henvy (n : Nat) (x : Enc) : (s.setEnc n x).henvy = s.henvy := rfl
@[simp] theorem State.setEnc_uplinks (n : Nat) (x : Enc) : (s.setEnc n x).uplinks = s.uplinks := rfl
@[simp] theorem State.setEnc_prp (n : Nat) (x : Enc) : (s.setEnc n x).prp = s.prp := rfl
@[simp] theorem State.setEnc_taken (n : Nat) (x : Enc) : (s.setEnc n x).taken = s.taken := rfl
@[simp] theorem State.setEnc_stored (n : Nat) (x : Enc) : (s.setEnc n x).stored = s.stored := rfl
@[simp] theorem State.setEnc_chans (n : Nat) (x : Enc) : (s.setEnc n x).chans = s.chans := rfl
@[simp] theorem State.setEnc_traces (n : Nat) (x : Enc) : (s.setEnc n x).traces = s.traces := rfl
@[simp] theorem State.setEnc_axes (n : Nat) (x : Enc) : (s.setEnc n x).axes = s.axes := rfl
@[simp] theorem State.setEnc_groups (n : Nat) (x : Enc) : (s.setEnc n x).groups = s.groups := rfl
@[simp] theorem State.setEnc_pwms (n : Nat) (x : Enc) : (s.setEnc n x).pwms = s.pwms := rfl
@[simp] theorem State.setEnc_locals (n : Nat) (x : Enc) : (s.setEnc n x).locals = s.locals := rfl
@[simp] theorem State.setEnc_encs (n : Nat) (x : Enc) : (s.setEnc n x).encs = setAt s.encs n x := rfl
@[simp] theorem State.setEnc_caps (n : Nat) (x : Enc) : (s.setEnc n x).caps = s.caps := rfl
@[simp] theorem State.setEnc_convs (n : Nat) (x : Enc) : (s.setEnc n x).convs = s.convs := rfl
@[simp] theorem State.setEnc_ains (n : Nat) (x : Enc) : (s.setEnc n x).ains = s.ains := rfl
@[simp] theorem State.setEnc_trigs (n : Nat) (x : Enc) : (s.setEnc n x).trigs = s.trigs := rfl
@[simp] theorem State.setEnc_aouts (n : Nat) (x : Enc) : (s.setEnc n x).aouts = s.aouts := rfl
@[simp] theorem State.setEnc_dins (n : Nat) (x : Enc) : (s.setEnc n x).dins = s.dins := rfl
@[simp] theorem State.setEnc_douts (n : Nat) (x : Enc) : (s.setEnc n x).douts = s.douts := rfl
@[simp] theorem State.setEnc_supplies (n : Nat) (x : Enc) : (s.setEnc n x).supplies = s.supplies := rfl
@[simp] theorem State.setEnc_field (n : Nat) (x : Enc) : (s.setEnc n x).field = s.field := rfl
@[simp] theorem State.setEnc_rcd (n : Nat) (x : Enc) : (s.setEnc n x).rcd = s.rcd := rfl
@[simp] theorem State.setEnc_fifos (n : Nat) (x : Enc) : (s.setEnc n x).fifos = s.fifos := rfl
@[simp] theorem State.setEnc_ssds (n : Nat) (x : Enc) : (s.setEnc n x).ssds = s.ssds := rfl
@[simp] theorem State.setEnc_tasks (n : Nat) (x : Enc) : (s.setEnc n x).tasks = s.tasks := rfl
@[simp] theorem State.setEnc_prog (n : Nat) (x : Enc) : (s.setEnc n x).prog = s.prog := rfl
@[simp] theorem State.setEnc_sched (n : Nat) (x : Enc) : (s.setEnc n x).sched = s.sched := rfl
@[simp] theorem State.setEnc_ost (n : Nat) (x : Enc) : (s.setEnc n x).ost = s.ost := rfl
@[simp] theorem State.setEnc_lay (n : Nat) (x : Enc) : (s.setEnc n x).lay = s.lay := rfl
@[simp] theorem State.setEnc_gov (n : Nat) (x : Enc) : (s.setEnc n x).gov = s.gov := rfl
@[simp] theorem State.setEnc_health (n : Nat) (x : Enc) : (s.setEnc n x).health = s.health := rfl
@[simp] theorem State.setEnc_paddock (n : Nat) (x : Enc) : (s.setEnc n x).paddock = s.paddock := rfl
@[simp] theorem State.setEnc_sent (n : Nat) (x : Enc) : (s.setEnc n x).sent = s.sent := rfl
@[simp] theorem State.setEnc_freeCtr (n : Nat) (x : Enc) : (s.setEnc n x).freeCtr = s.freeCtr := rfl
@[simp] theorem State.setEnc_pending (n : Nat) (x : Enc) : (s.setEnc n x).pending = s.pending := rfl

@[simp] theorem State.enc_setEnc (n : Nat) (x : Enc) : (s.setEnc n x).enc n = x := getAt_setAt_self _ _ _ _
theorem State.enc_setEnc_ne (n m : Nat) (x : Enc) (h : m ≠ n) : (s.setEnc n x).enc m = s.enc m := getAt_setAt_ne _ _ _ _ _ h

/-! `State.setCap`. -/
@[simp] theorem State.setCap_regs (n : Nat) (x : Capture) : (s.setCap n x).regs = s.regs := rfl
@[simp] theorem State.setCap_dict (n : Nat) (x : Capture) : (s.setCap n x).dict = s.dict := rfl
@[simp] theorem State.setCap_clock (n : Nat) (x : Capture) : (s.setCap n x).clock = s.clock := rfl
@[simp] theorem State.setCap_tbs (n : Nat) (x : Capture) : (s.setCap n x).tbs = s.tbs := rfl
@[simp] theorem State.setCap_ports (n : Nat) (x : Capture) : (s.setCap n x).ports = s.ports := rfl
@[simp] theorem State.setCap_leads (n : Nat) (x : Capture) : (s.setCap n x).leads = s.leads := rfl
@[simp] theorem State.setCap_actions (n : Nat) (x : Capture) : (s.setCap n x).actions = s.actions := rfl
@[simp] theorem State.setCap_links (n : Nat) (x : Capture) : (s.setCap n x).links = s.links := rfl
@[simp] theorem State.setCap_stations (n : Nat) (x : Capture) : (s.setCap n x).stations = s.stations := rfl
@[simp] theorem State.setCap_rings (n : Nat) (x : Capture) : (s.setCap n x).rings = s.rings := rfl
@[simp] theorem State.setCap_na (n : Nat) (x : Capture) : (s.setCap n x).na = s.na := rfl
@[simp] theorem State.setCap_nb (n : Nat) (x : Capture) : (s.setCap n x).nb = s.nb := rfl
@[simp] theorem State.setCap_rein (n : Nat) (x : Capture) : (s.setCap n x).rein = s.rein := rfl
@[simp] theorem State.setCap_coast (n : Nat) (x : Capture) : (s.setCap n x).coast = s.coast := rfl
@[simp] theorem State.setCap_henvy (n : Nat) (x : Capture) : (s.setCap n x).henvy = s.henvy := rfl
@[simp] theorem State.setCap_uplinks (n : Nat) (x : Capture) : (s.setCap n x).uplinks = s.uplinks := rfl
@[simp] theorem State.setCap_prp (n : Nat) (x : Capture) : (s.setCap n x).prp = s.prp := rfl
@[simp] theorem State.setCap_taken (n : Nat) (x : Capture) : (s.setCap n x).taken = s.taken := rfl
@[simp] theorem State.setCap_stored (n : Nat) (x : Capture) : (s.setCap n x).stored = s.stored := rfl
@[simp] theorem State.setCap_chans (n : Nat) (x : Capture) : (s.setCap n x).chans = s.chans := rfl
@[simp] theorem State.setCap_traces (n : Nat) (x : Capture) : (s.setCap n x).traces = s.traces := rfl
@[simp] theorem State.setCap_axes (n : Nat) (x : Capture) : (s.setCap n x).axes = s.axes := rfl
@[simp] theorem State.setCap_groups (n : Nat) (x : Capture) : (s.setCap n x).groups = s.groups := rfl
@[simp] theorem State.setCap_pwms (n : Nat) (x : Capture) : (s.setCap n x).pwms = s.pwms := rfl
@[simp] theorem State.setCap_locals (n : Nat) (x : Capture) : (s.setCap n x).locals = s.locals := rfl
@[simp] theorem State.setCap_encs (n : Nat) (x : Capture) : (s.setCap n x).encs = s.encs := rfl
@[simp] theorem State.setCap_caps (n : Nat) (x : Capture) : (s.setCap n x).caps = setAt s.caps n x := rfl
@[simp] theorem State.setCap_convs (n : Nat) (x : Capture) : (s.setCap n x).convs = s.convs := rfl
@[simp] theorem State.setCap_ains (n : Nat) (x : Capture) : (s.setCap n x).ains = s.ains := rfl
@[simp] theorem State.setCap_trigs (n : Nat) (x : Capture) : (s.setCap n x).trigs = s.trigs := rfl
@[simp] theorem State.setCap_aouts (n : Nat) (x : Capture) : (s.setCap n x).aouts = s.aouts := rfl
@[simp] theorem State.setCap_dins (n : Nat) (x : Capture) : (s.setCap n x).dins = s.dins := rfl
@[simp] theorem State.setCap_douts (n : Nat) (x : Capture) : (s.setCap n x).douts = s.douts := rfl
@[simp] theorem State.setCap_supplies (n : Nat) (x : Capture) : (s.setCap n x).supplies = s.supplies := rfl
@[simp] theorem State.setCap_field (n : Nat) (x : Capture) : (s.setCap n x).field = s.field := rfl
@[simp] theorem State.setCap_rcd (n : Nat) (x : Capture) : (s.setCap n x).rcd = s.rcd := rfl
@[simp] theorem State.setCap_fifos (n : Nat) (x : Capture) : (s.setCap n x).fifos = s.fifos := rfl
@[simp] theorem State.setCap_ssds (n : Nat) (x : Capture) : (s.setCap n x).ssds = s.ssds := rfl
@[simp] theorem State.setCap_tasks (n : Nat) (x : Capture) : (s.setCap n x).tasks = s.tasks := rfl
@[simp] theorem State.setCap_prog (n : Nat) (x : Capture) : (s.setCap n x).prog = s.prog := rfl
@[simp] theorem State.setCap_sched (n : Nat) (x : Capture) : (s.setCap n x).sched = s.sched := rfl
@[simp] theorem State.setCap_ost (n : Nat) (x : Capture) : (s.setCap n x).ost = s.ost := rfl
@[simp] theorem State.setCap_lay (n : Nat) (x : Capture) : (s.setCap n x).lay = s.lay := rfl
@[simp] theorem State.setCap_gov (n : Nat) (x : Capture) : (s.setCap n x).gov = s.gov := rfl
@[simp] theorem State.setCap_health (n : Nat) (x : Capture) : (s.setCap n x).health = s.health := rfl
@[simp] theorem State.setCap_paddock (n : Nat) (x : Capture) : (s.setCap n x).paddock = s.paddock := rfl
@[simp] theorem State.setCap_sent (n : Nat) (x : Capture) : (s.setCap n x).sent = s.sent := rfl
@[simp] theorem State.setCap_freeCtr (n : Nat) (x : Capture) : (s.setCap n x).freeCtr = s.freeCtr := rfl
@[simp] theorem State.setCap_pending (n : Nat) (x : Capture) : (s.setCap n x).pending = s.pending := rfl

@[simp] theorem State.cap_setCap (n : Nat) (x : Capture) : (s.setCap n x).cap n = x := getAt_setAt_self _ _ _ _
theorem State.cap_setCap_ne (n m : Nat) (x : Capture) (h : m ≠ n) : (s.setCap n x).cap m = s.cap m := getAt_setAt_ne _ _ _ _ _ h

/-! `State.setConv`. -/
@[simp] theorem State.setConv_regs (n : Nat) (x : Conv) : (s.setConv n x).regs = s.regs := rfl
@[simp] theorem State.setConv_dict (n : Nat) (x : Conv) : (s.setConv n x).dict = s.dict := rfl
@[simp] theorem State.setConv_clock (n : Nat) (x : Conv) : (s.setConv n x).clock = s.clock := rfl
@[simp] theorem State.setConv_tbs (n : Nat) (x : Conv) : (s.setConv n x).tbs = s.tbs := rfl
@[simp] theorem State.setConv_ports (n : Nat) (x : Conv) : (s.setConv n x).ports = s.ports := rfl
@[simp] theorem State.setConv_leads (n : Nat) (x : Conv) : (s.setConv n x).leads = s.leads := rfl
@[simp] theorem State.setConv_actions (n : Nat) (x : Conv) : (s.setConv n x).actions = s.actions := rfl
@[simp] theorem State.setConv_links (n : Nat) (x : Conv) : (s.setConv n x).links = s.links := rfl
@[simp] theorem State.setConv_stations (n : Nat) (x : Conv) : (s.setConv n x).stations = s.stations := rfl
@[simp] theorem State.setConv_rings (n : Nat) (x : Conv) : (s.setConv n x).rings = s.rings := rfl
@[simp] theorem State.setConv_na (n : Nat) (x : Conv) : (s.setConv n x).na = s.na := rfl
@[simp] theorem State.setConv_nb (n : Nat) (x : Conv) : (s.setConv n x).nb = s.nb := rfl
@[simp] theorem State.setConv_rein (n : Nat) (x : Conv) : (s.setConv n x).rein = s.rein := rfl
@[simp] theorem State.setConv_coast (n : Nat) (x : Conv) : (s.setConv n x).coast = s.coast := rfl
@[simp] theorem State.setConv_henvy (n : Nat) (x : Conv) : (s.setConv n x).henvy = s.henvy := rfl
@[simp] theorem State.setConv_uplinks (n : Nat) (x : Conv) : (s.setConv n x).uplinks = s.uplinks := rfl
@[simp] theorem State.setConv_prp (n : Nat) (x : Conv) : (s.setConv n x).prp = s.prp := rfl
@[simp] theorem State.setConv_taken (n : Nat) (x : Conv) : (s.setConv n x).taken = s.taken := rfl
@[simp] theorem State.setConv_stored (n : Nat) (x : Conv) : (s.setConv n x).stored = s.stored := rfl
@[simp] theorem State.setConv_chans (n : Nat) (x : Conv) : (s.setConv n x).chans = s.chans := rfl
@[simp] theorem State.setConv_traces (n : Nat) (x : Conv) : (s.setConv n x).traces = s.traces := rfl
@[simp] theorem State.setConv_axes (n : Nat) (x : Conv) : (s.setConv n x).axes = s.axes := rfl
@[simp] theorem State.setConv_groups (n : Nat) (x : Conv) : (s.setConv n x).groups = s.groups := rfl
@[simp] theorem State.setConv_pwms (n : Nat) (x : Conv) : (s.setConv n x).pwms = s.pwms := rfl
@[simp] theorem State.setConv_locals (n : Nat) (x : Conv) : (s.setConv n x).locals = s.locals := rfl
@[simp] theorem State.setConv_encs (n : Nat) (x : Conv) : (s.setConv n x).encs = s.encs := rfl
@[simp] theorem State.setConv_caps (n : Nat) (x : Conv) : (s.setConv n x).caps = s.caps := rfl
@[simp] theorem State.setConv_convs (n : Nat) (x : Conv) : (s.setConv n x).convs = setAt s.convs n x := rfl
@[simp] theorem State.setConv_ains (n : Nat) (x : Conv) : (s.setConv n x).ains = s.ains := rfl
@[simp] theorem State.setConv_trigs (n : Nat) (x : Conv) : (s.setConv n x).trigs = s.trigs := rfl
@[simp] theorem State.setConv_aouts (n : Nat) (x : Conv) : (s.setConv n x).aouts = s.aouts := rfl
@[simp] theorem State.setConv_dins (n : Nat) (x : Conv) : (s.setConv n x).dins = s.dins := rfl
@[simp] theorem State.setConv_douts (n : Nat) (x : Conv) : (s.setConv n x).douts = s.douts := rfl
@[simp] theorem State.setConv_supplies (n : Nat) (x : Conv) : (s.setConv n x).supplies = s.supplies := rfl
@[simp] theorem State.setConv_field (n : Nat) (x : Conv) : (s.setConv n x).field = s.field := rfl
@[simp] theorem State.setConv_rcd (n : Nat) (x : Conv) : (s.setConv n x).rcd = s.rcd := rfl
@[simp] theorem State.setConv_fifos (n : Nat) (x : Conv) : (s.setConv n x).fifos = s.fifos := rfl
@[simp] theorem State.setConv_ssds (n : Nat) (x : Conv) : (s.setConv n x).ssds = s.ssds := rfl
@[simp] theorem State.setConv_tasks (n : Nat) (x : Conv) : (s.setConv n x).tasks = s.tasks := rfl
@[simp] theorem State.setConv_prog (n : Nat) (x : Conv) : (s.setConv n x).prog = s.prog := rfl
@[simp] theorem State.setConv_sched (n : Nat) (x : Conv) : (s.setConv n x).sched = s.sched := rfl
@[simp] theorem State.setConv_ost (n : Nat) (x : Conv) : (s.setConv n x).ost = s.ost := rfl
@[simp] theorem State.setConv_lay (n : Nat) (x : Conv) : (s.setConv n x).lay = s.lay := rfl
@[simp] theorem State.setConv_gov (n : Nat) (x : Conv) : (s.setConv n x).gov = s.gov := rfl
@[simp] theorem State.setConv_health (n : Nat) (x : Conv) : (s.setConv n x).health = s.health := rfl
@[simp] theorem State.setConv_paddock (n : Nat) (x : Conv) : (s.setConv n x).paddock = s.paddock := rfl
@[simp] theorem State.setConv_sent (n : Nat) (x : Conv) : (s.setConv n x).sent = s.sent := rfl
@[simp] theorem State.setConv_freeCtr (n : Nat) (x : Conv) : (s.setConv n x).freeCtr = s.freeCtr := rfl
@[simp] theorem State.setConv_pending (n : Nat) (x : Conv) : (s.setConv n x).pending = s.pending := rfl

@[simp] theorem State.conv_setConv (n : Nat) (x : Conv) : (s.setConv n x).conv n = x := getAt_setAt_self _ _ _ _
theorem State.conv_setConv_ne (n m : Nat) (x : Conv) (h : m ≠ n) : (s.setConv n x).conv m = s.conv m := getAt_setAt_ne _ _ _ _ _ h

/-! `State.setAin`. -/
@[simp] theorem State.setAin_regs (n : Nat) (x : AnaIn) : (s.setAin n x).regs = s.regs := rfl
@[simp] theorem State.setAin_dict (n : Nat) (x : AnaIn) : (s.setAin n x).dict = s.dict := rfl
@[simp] theorem State.setAin_clock (n : Nat) (x : AnaIn) : (s.setAin n x).clock = s.clock := rfl
@[simp] theorem State.setAin_tbs (n : Nat) (x : AnaIn) : (s.setAin n x).tbs = s.tbs := rfl
@[simp] theorem State.setAin_ports (n : Nat) (x : AnaIn) : (s.setAin n x).ports = s.ports := rfl
@[simp] theorem State.setAin_leads (n : Nat) (x : AnaIn) : (s.setAin n x).leads = s.leads := rfl
@[simp] theorem State.setAin_actions (n : Nat) (x : AnaIn) : (s.setAin n x).actions = s.actions := rfl
@[simp] theorem State.setAin_links (n : Nat) (x : AnaIn) : (s.setAin n x).links = s.links := rfl
@[simp] theorem State.setAin_stations (n : Nat) (x : AnaIn) : (s.setAin n x).stations = s.stations := rfl
@[simp] theorem State.setAin_rings (n : Nat) (x : AnaIn) : (s.setAin n x).rings = s.rings := rfl
@[simp] theorem State.setAin_na (n : Nat) (x : AnaIn) : (s.setAin n x).na = s.na := rfl
@[simp] theorem State.setAin_nb (n : Nat) (x : AnaIn) : (s.setAin n x).nb = s.nb := rfl
@[simp] theorem State.setAin_rein (n : Nat) (x : AnaIn) : (s.setAin n x).rein = s.rein := rfl
@[simp] theorem State.setAin_coast (n : Nat) (x : AnaIn) : (s.setAin n x).coast = s.coast := rfl
@[simp] theorem State.setAin_henvy (n : Nat) (x : AnaIn) : (s.setAin n x).henvy = s.henvy := rfl
@[simp] theorem State.setAin_uplinks (n : Nat) (x : AnaIn) : (s.setAin n x).uplinks = s.uplinks := rfl
@[simp] theorem State.setAin_prp (n : Nat) (x : AnaIn) : (s.setAin n x).prp = s.prp := rfl
@[simp] theorem State.setAin_taken (n : Nat) (x : AnaIn) : (s.setAin n x).taken = s.taken := rfl
@[simp] theorem State.setAin_stored (n : Nat) (x : AnaIn) : (s.setAin n x).stored = s.stored := rfl
@[simp] theorem State.setAin_chans (n : Nat) (x : AnaIn) : (s.setAin n x).chans = s.chans := rfl
@[simp] theorem State.setAin_traces (n : Nat) (x : AnaIn) : (s.setAin n x).traces = s.traces := rfl
@[simp] theorem State.setAin_axes (n : Nat) (x : AnaIn) : (s.setAin n x).axes = s.axes := rfl
@[simp] theorem State.setAin_groups (n : Nat) (x : AnaIn) : (s.setAin n x).groups = s.groups := rfl
@[simp] theorem State.setAin_pwms (n : Nat) (x : AnaIn) : (s.setAin n x).pwms = s.pwms := rfl
@[simp] theorem State.setAin_locals (n : Nat) (x : AnaIn) : (s.setAin n x).locals = s.locals := rfl
@[simp] theorem State.setAin_encs (n : Nat) (x : AnaIn) : (s.setAin n x).encs = s.encs := rfl
@[simp] theorem State.setAin_caps (n : Nat) (x : AnaIn) : (s.setAin n x).caps = s.caps := rfl
@[simp] theorem State.setAin_convs (n : Nat) (x : AnaIn) : (s.setAin n x).convs = s.convs := rfl
@[simp] theorem State.setAin_ains (n : Nat) (x : AnaIn) : (s.setAin n x).ains = setAt s.ains n x := rfl
@[simp] theorem State.setAin_trigs (n : Nat) (x : AnaIn) : (s.setAin n x).trigs = s.trigs := rfl
@[simp] theorem State.setAin_aouts (n : Nat) (x : AnaIn) : (s.setAin n x).aouts = s.aouts := rfl
@[simp] theorem State.setAin_dins (n : Nat) (x : AnaIn) : (s.setAin n x).dins = s.dins := rfl
@[simp] theorem State.setAin_douts (n : Nat) (x : AnaIn) : (s.setAin n x).douts = s.douts := rfl
@[simp] theorem State.setAin_supplies (n : Nat) (x : AnaIn) : (s.setAin n x).supplies = s.supplies := rfl
@[simp] theorem State.setAin_field (n : Nat) (x : AnaIn) : (s.setAin n x).field = s.field := rfl
@[simp] theorem State.setAin_rcd (n : Nat) (x : AnaIn) : (s.setAin n x).rcd = s.rcd := rfl
@[simp] theorem State.setAin_fifos (n : Nat) (x : AnaIn) : (s.setAin n x).fifos = s.fifos := rfl
@[simp] theorem State.setAin_ssds (n : Nat) (x : AnaIn) : (s.setAin n x).ssds = s.ssds := rfl
@[simp] theorem State.setAin_tasks (n : Nat) (x : AnaIn) : (s.setAin n x).tasks = s.tasks := rfl
@[simp] theorem State.setAin_prog (n : Nat) (x : AnaIn) : (s.setAin n x).prog = s.prog := rfl
@[simp] theorem State.setAin_sched (n : Nat) (x : AnaIn) : (s.setAin n x).sched = s.sched := rfl
@[simp] theorem State.setAin_ost (n : Nat) (x : AnaIn) : (s.setAin n x).ost = s.ost := rfl
@[simp] theorem State.setAin_lay (n : Nat) (x : AnaIn) : (s.setAin n x).lay = s.lay := rfl
@[simp] theorem State.setAin_gov (n : Nat) (x : AnaIn) : (s.setAin n x).gov = s.gov := rfl
@[simp] theorem State.setAin_health (n : Nat) (x : AnaIn) : (s.setAin n x).health = s.health := rfl
@[simp] theorem State.setAin_paddock (n : Nat) (x : AnaIn) : (s.setAin n x).paddock = s.paddock := rfl
@[simp] theorem State.setAin_sent (n : Nat) (x : AnaIn) : (s.setAin n x).sent = s.sent := rfl
@[simp] theorem State.setAin_freeCtr (n : Nat) (x : AnaIn) : (s.setAin n x).freeCtr = s.freeCtr := rfl
@[simp] theorem State.setAin_pending (n : Nat) (x : AnaIn) : (s.setAin n x).pending = s.pending := rfl

@[simp] theorem State.ain_setAin (n : Nat) (x : AnaIn) : (s.setAin n x).ain n = x := getAt_setAt_self _ _ _ _
theorem State.ain_setAin_ne (n m : Nat) (x : AnaIn) (h : m ≠ n) : (s.setAin n x).ain m = s.ain m := getAt_setAt_ne _ _ _ _ _ h

/-! `State.setTrig`. -/
@[simp] theorem State.setTrig_regs (n : Nat) (x : Trig) : (s.setTrig n x).regs = s.regs := rfl
@[simp] theorem State.setTrig_dict (n : Nat) (x : Trig) : (s.setTrig n x).dict = s.dict := rfl
@[simp] theorem State.setTrig_clock (n : Nat) (x : Trig) : (s.setTrig n x).clock = s.clock := rfl
@[simp] theorem State.setTrig_tbs (n : Nat) (x : Trig) : (s.setTrig n x).tbs = s.tbs := rfl
@[simp] theorem State.setTrig_ports (n : Nat) (x : Trig) : (s.setTrig n x).ports = s.ports := rfl
@[simp] theorem State.setTrig_leads (n : Nat) (x : Trig) : (s.setTrig n x).leads = s.leads := rfl
@[simp] theorem State.setTrig_actions (n : Nat) (x : Trig) : (s.setTrig n x).actions = s.actions := rfl
@[simp] theorem State.setTrig_links (n : Nat) (x : Trig) : (s.setTrig n x).links = s.links := rfl
@[simp] theorem State.setTrig_stations (n : Nat) (x : Trig) : (s.setTrig n x).stations = s.stations := rfl
@[simp] theorem State.setTrig_rings (n : Nat) (x : Trig) : (s.setTrig n x).rings = s.rings := rfl
@[simp] theorem State.setTrig_na (n : Nat) (x : Trig) : (s.setTrig n x).na = s.na := rfl
@[simp] theorem State.setTrig_nb (n : Nat) (x : Trig) : (s.setTrig n x).nb = s.nb := rfl
@[simp] theorem State.setTrig_rein (n : Nat) (x : Trig) : (s.setTrig n x).rein = s.rein := rfl
@[simp] theorem State.setTrig_coast (n : Nat) (x : Trig) : (s.setTrig n x).coast = s.coast := rfl
@[simp] theorem State.setTrig_henvy (n : Nat) (x : Trig) : (s.setTrig n x).henvy = s.henvy := rfl
@[simp] theorem State.setTrig_uplinks (n : Nat) (x : Trig) : (s.setTrig n x).uplinks = s.uplinks := rfl
@[simp] theorem State.setTrig_prp (n : Nat) (x : Trig) : (s.setTrig n x).prp = s.prp := rfl
@[simp] theorem State.setTrig_taken (n : Nat) (x : Trig) : (s.setTrig n x).taken = s.taken := rfl
@[simp] theorem State.setTrig_stored (n : Nat) (x : Trig) : (s.setTrig n x).stored = s.stored := rfl
@[simp] theorem State.setTrig_chans (n : Nat) (x : Trig) : (s.setTrig n x).chans = s.chans := rfl
@[simp] theorem State.setTrig_traces (n : Nat) (x : Trig) : (s.setTrig n x).traces = s.traces := rfl
@[simp] theorem State.setTrig_axes (n : Nat) (x : Trig) : (s.setTrig n x).axes = s.axes := rfl
@[simp] theorem State.setTrig_groups (n : Nat) (x : Trig) : (s.setTrig n x).groups = s.groups := rfl
@[simp] theorem State.setTrig_pwms (n : Nat) (x : Trig) : (s.setTrig n x).pwms = s.pwms := rfl
@[simp] theorem State.setTrig_locals (n : Nat) (x : Trig) : (s.setTrig n x).locals = s.locals := rfl
@[simp] theorem State.setTrig_encs (n : Nat) (x : Trig) : (s.setTrig n x).encs = s.encs := rfl
@[simp] theorem State.setTrig_caps (n : Nat) (x : Trig) : (s.setTrig n x).caps = s.caps := rfl
@[simp] theorem State.setTrig_convs (n : Nat) (x : Trig) : (s.setTrig n x).convs = s.convs := rfl
@[simp] theorem State.setTrig_ains (n : Nat) (x : Trig) : (s.setTrig n x).ains = s.ains := rfl
@[simp] theorem State.setTrig_trigs (n : Nat) (x : Trig) : (s.setTrig n x).trigs = setAt s.trigs n x := rfl
@[simp] theorem State.setTrig_aouts (n : Nat) (x : Trig) : (s.setTrig n x).aouts = s.aouts := rfl
@[simp] theorem State.setTrig_dins (n : Nat) (x : Trig) : (s.setTrig n x).dins = s.dins := rfl
@[simp] theorem State.setTrig_douts (n : Nat) (x : Trig) : (s.setTrig n x).douts = s.douts := rfl
@[simp] theorem State.setTrig_supplies (n : Nat) (x : Trig) : (s.setTrig n x).supplies = s.supplies := rfl
@[simp] theorem State.setTrig_field (n : Nat) (x : Trig) : (s.setTrig n x).field = s.field := rfl
@[simp] theorem State.setTrig_rcd (n : Nat) (x : Trig) : (s.setTrig n x).rcd = s.rcd := rfl
@[simp] theorem State.setTrig_fifos (n : Nat) (x : Trig) : (s.setTrig n x).fifos = s.fifos := rfl
@[simp] theorem State.setTrig_ssds (n : Nat) (x : Trig) : (s.setTrig n x).ssds = s.ssds := rfl
@[simp] theorem State.setTrig_tasks (n : Nat) (x : Trig) : (s.setTrig n x).tasks = s.tasks := rfl
@[simp] theorem State.setTrig_prog (n : Nat) (x : Trig) : (s.setTrig n x).prog = s.prog := rfl
@[simp] theorem State.setTrig_sched (n : Nat) (x : Trig) : (s.setTrig n x).sched = s.sched := rfl
@[simp] theorem State.setTrig_ost (n : Nat) (x : Trig) : (s.setTrig n x).ost = s.ost := rfl
@[simp] theorem State.setTrig_lay (n : Nat) (x : Trig) : (s.setTrig n x).lay = s.lay := rfl
@[simp] theorem State.setTrig_gov (n : Nat) (x : Trig) : (s.setTrig n x).gov = s.gov := rfl
@[simp] theorem State.setTrig_health (n : Nat) (x : Trig) : (s.setTrig n x).health = s.health := rfl
@[simp] theorem State.setTrig_paddock (n : Nat) (x : Trig) : (s.setTrig n x).paddock = s.paddock := rfl
@[simp] theorem State.setTrig_sent (n : Nat) (x : Trig) : (s.setTrig n x).sent = s.sent := rfl
@[simp] theorem State.setTrig_freeCtr (n : Nat) (x : Trig) : (s.setTrig n x).freeCtr = s.freeCtr := rfl
@[simp] theorem State.setTrig_pending (n : Nat) (x : Trig) : (s.setTrig n x).pending = s.pending := rfl

@[simp] theorem State.trig_setTrig (n : Nat) (x : Trig) : (s.setTrig n x).trig n = x := getAt_setAt_self _ _ _ _
theorem State.trig_setTrig_ne (n m : Nat) (x : Trig) (h : m ≠ n) : (s.setTrig n x).trig m = s.trig m := getAt_setAt_ne _ _ _ _ _ h

/-! `State.setAout`. -/
@[simp] theorem State.setAout_regs (n : Nat) (x : AOut) : (s.setAout n x).regs = s.regs := rfl
@[simp] theorem State.setAout_dict (n : Nat) (x : AOut) : (s.setAout n x).dict = s.dict := rfl
@[simp] theorem State.setAout_clock (n : Nat) (x : AOut) : (s.setAout n x).clock = s.clock := rfl
@[simp] theorem State.setAout_tbs (n : Nat) (x : AOut) : (s.setAout n x).tbs = s.tbs := rfl
@[simp] theorem State.setAout_ports (n : Nat) (x : AOut) : (s.setAout n x).ports = s.ports := rfl
@[simp] theorem State.setAout_leads (n : Nat) (x : AOut) : (s.setAout n x).leads = s.leads := rfl
@[simp] theorem State.setAout_actions (n : Nat) (x : AOut) : (s.setAout n x).actions = s.actions := rfl
@[simp] theorem State.setAout_links (n : Nat) (x : AOut) : (s.setAout n x).links = s.links := rfl
@[simp] theorem State.setAout_stations (n : Nat) (x : AOut) : (s.setAout n x).stations = s.stations := rfl
@[simp] theorem State.setAout_rings (n : Nat) (x : AOut) : (s.setAout n x).rings = s.rings := rfl
@[simp] theorem State.setAout_na (n : Nat) (x : AOut) : (s.setAout n x).na = s.na := rfl
@[simp] theorem State.setAout_nb (n : Nat) (x : AOut) : (s.setAout n x).nb = s.nb := rfl
@[simp] theorem State.setAout_rein (n : Nat) (x : AOut) : (s.setAout n x).rein = s.rein := rfl
@[simp] theorem State.setAout_coast (n : Nat) (x : AOut) : (s.setAout n x).coast = s.coast := rfl
@[simp] theorem State.setAout_henvy (n : Nat) (x : AOut) : (s.setAout n x).henvy = s.henvy := rfl
@[simp] theorem State.setAout_uplinks (n : Nat) (x : AOut) : (s.setAout n x).uplinks = s.uplinks := rfl
@[simp] theorem State.setAout_prp (n : Nat) (x : AOut) : (s.setAout n x).prp = s.prp := rfl
@[simp] theorem State.setAout_taken (n : Nat) (x : AOut) : (s.setAout n x).taken = s.taken := rfl
@[simp] theorem State.setAout_stored (n : Nat) (x : AOut) : (s.setAout n x).stored = s.stored := rfl
@[simp] theorem State.setAout_chans (n : Nat) (x : AOut) : (s.setAout n x).chans = s.chans := rfl
@[simp] theorem State.setAout_traces (n : Nat) (x : AOut) : (s.setAout n x).traces = s.traces := rfl
@[simp] theorem State.setAout_axes (n : Nat) (x : AOut) : (s.setAout n x).axes = s.axes := rfl
@[simp] theorem State.setAout_groups (n : Nat) (x : AOut) : (s.setAout n x).groups = s.groups := rfl
@[simp] theorem State.setAout_pwms (n : Nat) (x : AOut) : (s.setAout n x).pwms = s.pwms := rfl
@[simp] theorem State.setAout_locals (n : Nat) (x : AOut) : (s.setAout n x).locals = s.locals := rfl
@[simp] theorem State.setAout_encs (n : Nat) (x : AOut) : (s.setAout n x).encs = s.encs := rfl
@[simp] theorem State.setAout_caps (n : Nat) (x : AOut) : (s.setAout n x).caps = s.caps := rfl
@[simp] theorem State.setAout_convs (n : Nat) (x : AOut) : (s.setAout n x).convs = s.convs := rfl
@[simp] theorem State.setAout_ains (n : Nat) (x : AOut) : (s.setAout n x).ains = s.ains := rfl
@[simp] theorem State.setAout_trigs (n : Nat) (x : AOut) : (s.setAout n x).trigs = s.trigs := rfl
@[simp] theorem State.setAout_aouts (n : Nat) (x : AOut) : (s.setAout n x).aouts = setAt s.aouts n x := rfl
@[simp] theorem State.setAout_dins (n : Nat) (x : AOut) : (s.setAout n x).dins = s.dins := rfl
@[simp] theorem State.setAout_douts (n : Nat) (x : AOut) : (s.setAout n x).douts = s.douts := rfl
@[simp] theorem State.setAout_supplies (n : Nat) (x : AOut) : (s.setAout n x).supplies = s.supplies := rfl
@[simp] theorem State.setAout_field (n : Nat) (x : AOut) : (s.setAout n x).field = s.field := rfl
@[simp] theorem State.setAout_rcd (n : Nat) (x : AOut) : (s.setAout n x).rcd = s.rcd := rfl
@[simp] theorem State.setAout_fifos (n : Nat) (x : AOut) : (s.setAout n x).fifos = s.fifos := rfl
@[simp] theorem State.setAout_ssds (n : Nat) (x : AOut) : (s.setAout n x).ssds = s.ssds := rfl
@[simp] theorem State.setAout_tasks (n : Nat) (x : AOut) : (s.setAout n x).tasks = s.tasks := rfl
@[simp] theorem State.setAout_prog (n : Nat) (x : AOut) : (s.setAout n x).prog = s.prog := rfl
@[simp] theorem State.setAout_sched (n : Nat) (x : AOut) : (s.setAout n x).sched = s.sched := rfl
@[simp] theorem State.setAout_ost (n : Nat) (x : AOut) : (s.setAout n x).ost = s.ost := rfl
@[simp] theorem State.setAout_lay (n : Nat) (x : AOut) : (s.setAout n x).lay = s.lay := rfl
@[simp] theorem State.setAout_gov (n : Nat) (x : AOut) : (s.setAout n x).gov = s.gov := rfl
@[simp] theorem State.setAout_health (n : Nat) (x : AOut) : (s.setAout n x).health = s.health := rfl
@[simp] theorem State.setAout_paddock (n : Nat) (x : AOut) : (s.setAout n x).paddock = s.paddock := rfl
@[simp] theorem State.setAout_sent (n : Nat) (x : AOut) : (s.setAout n x).sent = s.sent := rfl
@[simp] theorem State.setAout_freeCtr (n : Nat) (x : AOut) : (s.setAout n x).freeCtr = s.freeCtr := rfl
@[simp] theorem State.setAout_pending (n : Nat) (x : AOut) : (s.setAout n x).pending = s.pending := rfl

@[simp] theorem State.aout_setAout (n : Nat) (x : AOut) : (s.setAout n x).aout n = x := getAt_setAt_self _ _ _ _
theorem State.aout_setAout_ne (n m : Nat) (x : AOut) (h : m ≠ n) : (s.setAout n x).aout m = s.aout m := getAt_setAt_ne _ _ _ _ _ h

/-! `State.setDin`. -/
@[simp] theorem State.setDin_regs (n : Nat) (x : DigIn) : (s.setDin n x).regs = s.regs := rfl
@[simp] theorem State.setDin_dict (n : Nat) (x : DigIn) : (s.setDin n x).dict = s.dict := rfl
@[simp] theorem State.setDin_clock (n : Nat) (x : DigIn) : (s.setDin n x).clock = s.clock := rfl
@[simp] theorem State.setDin_tbs (n : Nat) (x : DigIn) : (s.setDin n x).tbs = s.tbs := rfl
@[simp] theorem State.setDin_ports (n : Nat) (x : DigIn) : (s.setDin n x).ports = s.ports := rfl
@[simp] theorem State.setDin_leads (n : Nat) (x : DigIn) : (s.setDin n x).leads = s.leads := rfl
@[simp] theorem State.setDin_actions (n : Nat) (x : DigIn) : (s.setDin n x).actions = s.actions := rfl
@[simp] theorem State.setDin_links (n : Nat) (x : DigIn) : (s.setDin n x).links = s.links := rfl
@[simp] theorem State.setDin_stations (n : Nat) (x : DigIn) : (s.setDin n x).stations = s.stations := rfl
@[simp] theorem State.setDin_rings (n : Nat) (x : DigIn) : (s.setDin n x).rings = s.rings := rfl
@[simp] theorem State.setDin_na (n : Nat) (x : DigIn) : (s.setDin n x).na = s.na := rfl
@[simp] theorem State.setDin_nb (n : Nat) (x : DigIn) : (s.setDin n x).nb = s.nb := rfl
@[simp] theorem State.setDin_rein (n : Nat) (x : DigIn) : (s.setDin n x).rein = s.rein := rfl
@[simp] theorem State.setDin_coast (n : Nat) (x : DigIn) : (s.setDin n x).coast = s.coast := rfl
@[simp] theorem State.setDin_henvy (n : Nat) (x : DigIn) : (s.setDin n x).henvy = s.henvy := rfl
@[simp] theorem State.setDin_uplinks (n : Nat) (x : DigIn) : (s.setDin n x).uplinks = s.uplinks := rfl
@[simp] theorem State.setDin_prp (n : Nat) (x : DigIn) : (s.setDin n x).prp = s.prp := rfl
@[simp] theorem State.setDin_taken (n : Nat) (x : DigIn) : (s.setDin n x).taken = s.taken := rfl
@[simp] theorem State.setDin_stored (n : Nat) (x : DigIn) : (s.setDin n x).stored = s.stored := rfl
@[simp] theorem State.setDin_chans (n : Nat) (x : DigIn) : (s.setDin n x).chans = s.chans := rfl
@[simp] theorem State.setDin_traces (n : Nat) (x : DigIn) : (s.setDin n x).traces = s.traces := rfl
@[simp] theorem State.setDin_axes (n : Nat) (x : DigIn) : (s.setDin n x).axes = s.axes := rfl
@[simp] theorem State.setDin_groups (n : Nat) (x : DigIn) : (s.setDin n x).groups = s.groups := rfl
@[simp] theorem State.setDin_pwms (n : Nat) (x : DigIn) : (s.setDin n x).pwms = s.pwms := rfl
@[simp] theorem State.setDin_locals (n : Nat) (x : DigIn) : (s.setDin n x).locals = s.locals := rfl
@[simp] theorem State.setDin_encs (n : Nat) (x : DigIn) : (s.setDin n x).encs = s.encs := rfl
@[simp] theorem State.setDin_caps (n : Nat) (x : DigIn) : (s.setDin n x).caps = s.caps := rfl
@[simp] theorem State.setDin_convs (n : Nat) (x : DigIn) : (s.setDin n x).convs = s.convs := rfl
@[simp] theorem State.setDin_ains (n : Nat) (x : DigIn) : (s.setDin n x).ains = s.ains := rfl
@[simp] theorem State.setDin_trigs (n : Nat) (x : DigIn) : (s.setDin n x).trigs = s.trigs := rfl
@[simp] theorem State.setDin_aouts (n : Nat) (x : DigIn) : (s.setDin n x).aouts = s.aouts := rfl
@[simp] theorem State.setDin_dins (n : Nat) (x : DigIn) : (s.setDin n x).dins = setAt s.dins n x := rfl
@[simp] theorem State.setDin_douts (n : Nat) (x : DigIn) : (s.setDin n x).douts = s.douts := rfl
@[simp] theorem State.setDin_supplies (n : Nat) (x : DigIn) : (s.setDin n x).supplies = s.supplies := rfl
@[simp] theorem State.setDin_field (n : Nat) (x : DigIn) : (s.setDin n x).field = s.field := rfl
@[simp] theorem State.setDin_rcd (n : Nat) (x : DigIn) : (s.setDin n x).rcd = s.rcd := rfl
@[simp] theorem State.setDin_fifos (n : Nat) (x : DigIn) : (s.setDin n x).fifos = s.fifos := rfl
@[simp] theorem State.setDin_ssds (n : Nat) (x : DigIn) : (s.setDin n x).ssds = s.ssds := rfl
@[simp] theorem State.setDin_tasks (n : Nat) (x : DigIn) : (s.setDin n x).tasks = s.tasks := rfl
@[simp] theorem State.setDin_prog (n : Nat) (x : DigIn) : (s.setDin n x).prog = s.prog := rfl
@[simp] theorem State.setDin_sched (n : Nat) (x : DigIn) : (s.setDin n x).sched = s.sched := rfl
@[simp] theorem State.setDin_ost (n : Nat) (x : DigIn) : (s.setDin n x).ost = s.ost := rfl
@[simp] theorem State.setDin_lay (n : Nat) (x : DigIn) : (s.setDin n x).lay = s.lay := rfl
@[simp] theorem State.setDin_gov (n : Nat) (x : DigIn) : (s.setDin n x).gov = s.gov := rfl
@[simp] theorem State.setDin_health (n : Nat) (x : DigIn) : (s.setDin n x).health = s.health := rfl
@[simp] theorem State.setDin_paddock (n : Nat) (x : DigIn) : (s.setDin n x).paddock = s.paddock := rfl
@[simp] theorem State.setDin_sent (n : Nat) (x : DigIn) : (s.setDin n x).sent = s.sent := rfl
@[simp] theorem State.setDin_freeCtr (n : Nat) (x : DigIn) : (s.setDin n x).freeCtr = s.freeCtr := rfl
@[simp] theorem State.setDin_pending (n : Nat) (x : DigIn) : (s.setDin n x).pending = s.pending := rfl

@[simp] theorem State.din_setDin (n : Nat) (x : DigIn) : (s.setDin n x).din n = x := getAt_setAt_self _ _ _ _
theorem State.din_setDin_ne (n m : Nat) (x : DigIn) (h : m ≠ n) : (s.setDin n x).din m = s.din m := getAt_setAt_ne _ _ _ _ _ h

/-! `State.setDout`. -/
@[simp] theorem State.setDout_regs (n : Nat) (x : DigOut) : (s.setDout n x).regs = s.regs := rfl
@[simp] theorem State.setDout_dict (n : Nat) (x : DigOut) : (s.setDout n x).dict = s.dict := rfl
@[simp] theorem State.setDout_clock (n : Nat) (x : DigOut) : (s.setDout n x).clock = s.clock := rfl
@[simp] theorem State.setDout_tbs (n : Nat) (x : DigOut) : (s.setDout n x).tbs = s.tbs := rfl
@[simp] theorem State.setDout_ports (n : Nat) (x : DigOut) : (s.setDout n x).ports = s.ports := rfl
@[simp] theorem State.setDout_leads (n : Nat) (x : DigOut) : (s.setDout n x).leads = s.leads := rfl
@[simp] theorem State.setDout_actions (n : Nat) (x : DigOut) : (s.setDout n x).actions = s.actions := rfl
@[simp] theorem State.setDout_links (n : Nat) (x : DigOut) : (s.setDout n x).links = s.links := rfl
@[simp] theorem State.setDout_stations (n : Nat) (x : DigOut) : (s.setDout n x).stations = s.stations := rfl
@[simp] theorem State.setDout_rings (n : Nat) (x : DigOut) : (s.setDout n x).rings = s.rings := rfl
@[simp] theorem State.setDout_na (n : Nat) (x : DigOut) : (s.setDout n x).na = s.na := rfl
@[simp] theorem State.setDout_nb (n : Nat) (x : DigOut) : (s.setDout n x).nb = s.nb := rfl
@[simp] theorem State.setDout_rein (n : Nat) (x : DigOut) : (s.setDout n x).rein = s.rein := rfl
@[simp] theorem State.setDout_coast (n : Nat) (x : DigOut) : (s.setDout n x).coast = s.coast := rfl
@[simp] theorem State.setDout_henvy (n : Nat) (x : DigOut) : (s.setDout n x).henvy = s.henvy := rfl
@[simp] theorem State.setDout_uplinks (n : Nat) (x : DigOut) : (s.setDout n x).uplinks = s.uplinks := rfl
@[simp] theorem State.setDout_prp (n : Nat) (x : DigOut) : (s.setDout n x).prp = s.prp := rfl
@[simp] theorem State.setDout_taken (n : Nat) (x : DigOut) : (s.setDout n x).taken = s.taken := rfl
@[simp] theorem State.setDout_stored (n : Nat) (x : DigOut) : (s.setDout n x).stored = s.stored := rfl
@[simp] theorem State.setDout_chans (n : Nat) (x : DigOut) : (s.setDout n x).chans = s.chans := rfl
@[simp] theorem State.setDout_traces (n : Nat) (x : DigOut) : (s.setDout n x).traces = s.traces := rfl
@[simp] theorem State.setDout_axes (n : Nat) (x : DigOut) : (s.setDout n x).axes = s.axes := rfl
@[simp] theorem State.setDout_groups (n : Nat) (x : DigOut) : (s.setDout n x).groups = s.groups := rfl
@[simp] theorem State.setDout_pwms (n : Nat) (x : DigOut) : (s.setDout n x).pwms = s.pwms := rfl
@[simp] theorem State.setDout_locals (n : Nat) (x : DigOut) : (s.setDout n x).locals = s.locals := rfl
@[simp] theorem State.setDout_encs (n : Nat) (x : DigOut) : (s.setDout n x).encs = s.encs := rfl
@[simp] theorem State.setDout_caps (n : Nat) (x : DigOut) : (s.setDout n x).caps = s.caps := rfl
@[simp] theorem State.setDout_convs (n : Nat) (x : DigOut) : (s.setDout n x).convs = s.convs := rfl
@[simp] theorem State.setDout_ains (n : Nat) (x : DigOut) : (s.setDout n x).ains = s.ains := rfl
@[simp] theorem State.setDout_trigs (n : Nat) (x : DigOut) : (s.setDout n x).trigs = s.trigs := rfl
@[simp] theorem State.setDout_aouts (n : Nat) (x : DigOut) : (s.setDout n x).aouts = s.aouts := rfl
@[simp] theorem State.setDout_dins (n : Nat) (x : DigOut) : (s.setDout n x).dins = s.dins := rfl
@[simp] theorem State.setDout_douts (n : Nat) (x : DigOut) : (s.setDout n x).douts = setAt s.douts n x := rfl
@[simp] theorem State.setDout_supplies (n : Nat) (x : DigOut) : (s.setDout n x).supplies = s.supplies := rfl
@[simp] theorem State.setDout_field (n : Nat) (x : DigOut) : (s.setDout n x).field = s.field := rfl
@[simp] theorem State.setDout_rcd (n : Nat) (x : DigOut) : (s.setDout n x).rcd = s.rcd := rfl
@[simp] theorem State.setDout_fifos (n : Nat) (x : DigOut) : (s.setDout n x).fifos = s.fifos := rfl
@[simp] theorem State.setDout_ssds (n : Nat) (x : DigOut) : (s.setDout n x).ssds = s.ssds := rfl
@[simp] theorem State.setDout_tasks (n : Nat) (x : DigOut) : (s.setDout n x).tasks = s.tasks := rfl
@[simp] theorem State.setDout_prog (n : Nat) (x : DigOut) : (s.setDout n x).prog = s.prog := rfl
@[simp] theorem State.setDout_sched (n : Nat) (x : DigOut) : (s.setDout n x).sched = s.sched := rfl
@[simp] theorem State.setDout_ost (n : Nat) (x : DigOut) : (s.setDout n x).ost = s.ost := rfl
@[simp] theorem State.setDout_lay (n : Nat) (x : DigOut) : (s.setDout n x).lay = s.lay := rfl
@[simp] theorem State.setDout_gov (n : Nat) (x : DigOut) : (s.setDout n x).gov = s.gov := rfl
@[simp] theorem State.setDout_health (n : Nat) (x : DigOut) : (s.setDout n x).health = s.health := rfl
@[simp] theorem State.setDout_paddock (n : Nat) (x : DigOut) : (s.setDout n x).paddock = s.paddock := rfl
@[simp] theorem State.setDout_sent (n : Nat) (x : DigOut) : (s.setDout n x).sent = s.sent := rfl
@[simp] theorem State.setDout_freeCtr (n : Nat) (x : DigOut) : (s.setDout n x).freeCtr = s.freeCtr := rfl
@[simp] theorem State.setDout_pending (n : Nat) (x : DigOut) : (s.setDout n x).pending = s.pending := rfl

@[simp] theorem State.dout_setDout (n : Nat) (x : DigOut) : (s.setDout n x).dout n = x := getAt_setAt_self _ _ _ _
theorem State.dout_setDout_ne (n m : Nat) (x : DigOut) (h : m ≠ n) : (s.setDout n x).dout m = s.dout m := getAt_setAt_ne _ _ _ _ _ h

/-! `State.setSupply`. -/
@[simp] theorem State.setSupply_regs (n : Nat) (x : Supply) : (s.setSupply n x).regs = s.regs := rfl
@[simp] theorem State.setSupply_dict (n : Nat) (x : Supply) : (s.setSupply n x).dict = s.dict := rfl
@[simp] theorem State.setSupply_clock (n : Nat) (x : Supply) : (s.setSupply n x).clock = s.clock := rfl
@[simp] theorem State.setSupply_tbs (n : Nat) (x : Supply) : (s.setSupply n x).tbs = s.tbs := rfl
@[simp] theorem State.setSupply_ports (n : Nat) (x : Supply) : (s.setSupply n x).ports = s.ports := rfl
@[simp] theorem State.setSupply_leads (n : Nat) (x : Supply) : (s.setSupply n x).leads = s.leads := rfl
@[simp] theorem State.setSupply_actions (n : Nat) (x : Supply) : (s.setSupply n x).actions = s.actions := rfl
@[simp] theorem State.setSupply_links (n : Nat) (x : Supply) : (s.setSupply n x).links = s.links := rfl
@[simp] theorem State.setSupply_stations (n : Nat) (x : Supply) : (s.setSupply n x).stations = s.stations := rfl
@[simp] theorem State.setSupply_rings (n : Nat) (x : Supply) : (s.setSupply n x).rings = s.rings := rfl
@[simp] theorem State.setSupply_na (n : Nat) (x : Supply) : (s.setSupply n x).na = s.na := rfl
@[simp] theorem State.setSupply_nb (n : Nat) (x : Supply) : (s.setSupply n x).nb = s.nb := rfl
@[simp] theorem State.setSupply_rein (n : Nat) (x : Supply) : (s.setSupply n x).rein = s.rein := rfl
@[simp] theorem State.setSupply_coast (n : Nat) (x : Supply) : (s.setSupply n x).coast = s.coast := rfl
@[simp] theorem State.setSupply_henvy (n : Nat) (x : Supply) : (s.setSupply n x).henvy = s.henvy := rfl
@[simp] theorem State.setSupply_uplinks (n : Nat) (x : Supply) : (s.setSupply n x).uplinks = s.uplinks := rfl
@[simp] theorem State.setSupply_prp (n : Nat) (x : Supply) : (s.setSupply n x).prp = s.prp := rfl
@[simp] theorem State.setSupply_taken (n : Nat) (x : Supply) : (s.setSupply n x).taken = s.taken := rfl
@[simp] theorem State.setSupply_stored (n : Nat) (x : Supply) : (s.setSupply n x).stored = s.stored := rfl
@[simp] theorem State.setSupply_chans (n : Nat) (x : Supply) : (s.setSupply n x).chans = s.chans := rfl
@[simp] theorem State.setSupply_traces (n : Nat) (x : Supply) : (s.setSupply n x).traces = s.traces := rfl
@[simp] theorem State.setSupply_axes (n : Nat) (x : Supply) : (s.setSupply n x).axes = s.axes := rfl
@[simp] theorem State.setSupply_groups (n : Nat) (x : Supply) : (s.setSupply n x).groups = s.groups := rfl
@[simp] theorem State.setSupply_pwms (n : Nat) (x : Supply) : (s.setSupply n x).pwms = s.pwms := rfl
@[simp] theorem State.setSupply_locals (n : Nat) (x : Supply) : (s.setSupply n x).locals = s.locals := rfl
@[simp] theorem State.setSupply_encs (n : Nat) (x : Supply) : (s.setSupply n x).encs = s.encs := rfl
@[simp] theorem State.setSupply_caps (n : Nat) (x : Supply) : (s.setSupply n x).caps = s.caps := rfl
@[simp] theorem State.setSupply_convs (n : Nat) (x : Supply) : (s.setSupply n x).convs = s.convs := rfl
@[simp] theorem State.setSupply_ains (n : Nat) (x : Supply) : (s.setSupply n x).ains = s.ains := rfl
@[simp] theorem State.setSupply_trigs (n : Nat) (x : Supply) : (s.setSupply n x).trigs = s.trigs := rfl
@[simp] theorem State.setSupply_aouts (n : Nat) (x : Supply) : (s.setSupply n x).aouts = s.aouts := rfl
@[simp] theorem State.setSupply_dins (n : Nat) (x : Supply) : (s.setSupply n x).dins = s.dins := rfl
@[simp] theorem State.setSupply_douts (n : Nat) (x : Supply) : (s.setSupply n x).douts = s.douts := rfl
@[simp] theorem State.setSupply_supplies (n : Nat) (x : Supply) : (s.setSupply n x).supplies = setAt s.supplies n x := rfl
@[simp] theorem State.setSupply_field (n : Nat) (x : Supply) : (s.setSupply n x).field = s.field := rfl
@[simp] theorem State.setSupply_rcd (n : Nat) (x : Supply) : (s.setSupply n x).rcd = s.rcd := rfl
@[simp] theorem State.setSupply_fifos (n : Nat) (x : Supply) : (s.setSupply n x).fifos = s.fifos := rfl
@[simp] theorem State.setSupply_ssds (n : Nat) (x : Supply) : (s.setSupply n x).ssds = s.ssds := rfl
@[simp] theorem State.setSupply_tasks (n : Nat) (x : Supply) : (s.setSupply n x).tasks = s.tasks := rfl
@[simp] theorem State.setSupply_prog (n : Nat) (x : Supply) : (s.setSupply n x).prog = s.prog := rfl
@[simp] theorem State.setSupply_sched (n : Nat) (x : Supply) : (s.setSupply n x).sched = s.sched := rfl
@[simp] theorem State.setSupply_ost (n : Nat) (x : Supply) : (s.setSupply n x).ost = s.ost := rfl
@[simp] theorem State.setSupply_lay (n : Nat) (x : Supply) : (s.setSupply n x).lay = s.lay := rfl
@[simp] theorem State.setSupply_gov (n : Nat) (x : Supply) : (s.setSupply n x).gov = s.gov := rfl
@[simp] theorem State.setSupply_health (n : Nat) (x : Supply) : (s.setSupply n x).health = s.health := rfl
@[simp] theorem State.setSupply_paddock (n : Nat) (x : Supply) : (s.setSupply n x).paddock = s.paddock := rfl
@[simp] theorem State.setSupply_sent (n : Nat) (x : Supply) : (s.setSupply n x).sent = s.sent := rfl
@[simp] theorem State.setSupply_freeCtr (n : Nat) (x : Supply) : (s.setSupply n x).freeCtr = s.freeCtr := rfl
@[simp] theorem State.setSupply_pending (n : Nat) (x : Supply) : (s.setSupply n x).pending = s.pending := rfl

@[simp] theorem State.supply_setSupply (n : Nat) (x : Supply) : (s.setSupply n x).supply n = x := getAt_setAt_self _ _ _ _
theorem State.supply_setSupply_ne (n m : Nat) (x : Supply) (h : m ≠ n) : (s.setSupply n x).supply m = s.supply m := getAt_setAt_ne _ _ _ _ _ h

/-! `State.setFifo`. -/
@[simp] theorem State.setFifo_regs (n : Nat) (x : Fifo) : (s.setFifo n x).regs = s.regs := rfl
@[simp] theorem State.setFifo_dict (n : Nat) (x : Fifo) : (s.setFifo n x).dict = s.dict := rfl
@[simp] theorem State.setFifo_clock (n : Nat) (x : Fifo) : (s.setFifo n x).clock = s.clock := rfl
@[simp] theorem State.setFifo_tbs (n : Nat) (x : Fifo) : (s.setFifo n x).tbs = s.tbs := rfl
@[simp] theorem State.setFifo_ports (n : Nat) (x : Fifo) : (s.setFifo n x).ports = s.ports := rfl
@[simp] theorem State.setFifo_leads (n : Nat) (x : Fifo) : (s.setFifo n x).leads = s.leads := rfl
@[simp] theorem State.setFifo_actions (n : Nat) (x : Fifo) : (s.setFifo n x).actions = s.actions := rfl
@[simp] theorem State.setFifo_links (n : Nat) (x : Fifo) : (s.setFifo n x).links = s.links := rfl
@[simp] theorem State.setFifo_stations (n : Nat) (x : Fifo) : (s.setFifo n x).stations = s.stations := rfl
@[simp] theorem State.setFifo_rings (n : Nat) (x : Fifo) : (s.setFifo n x).rings = s.rings := rfl
@[simp] theorem State.setFifo_na (n : Nat) (x : Fifo) : (s.setFifo n x).na = s.na := rfl
@[simp] theorem State.setFifo_nb (n : Nat) (x : Fifo) : (s.setFifo n x).nb = s.nb := rfl
@[simp] theorem State.setFifo_rein (n : Nat) (x : Fifo) : (s.setFifo n x).rein = s.rein := rfl
@[simp] theorem State.setFifo_coast (n : Nat) (x : Fifo) : (s.setFifo n x).coast = s.coast := rfl
@[simp] theorem State.setFifo_henvy (n : Nat) (x : Fifo) : (s.setFifo n x).henvy = s.henvy := rfl
@[simp] theorem State.setFifo_uplinks (n : Nat) (x : Fifo) : (s.setFifo n x).uplinks = s.uplinks := rfl
@[simp] theorem State.setFifo_prp (n : Nat) (x : Fifo) : (s.setFifo n x).prp = s.prp := rfl
@[simp] theorem State.setFifo_taken (n : Nat) (x : Fifo) : (s.setFifo n x).taken = s.taken := rfl
@[simp] theorem State.setFifo_stored (n : Nat) (x : Fifo) : (s.setFifo n x).stored = s.stored := rfl
@[simp] theorem State.setFifo_chans (n : Nat) (x : Fifo) : (s.setFifo n x).chans = s.chans := rfl
@[simp] theorem State.setFifo_traces (n : Nat) (x : Fifo) : (s.setFifo n x).traces = s.traces := rfl
@[simp] theorem State.setFifo_axes (n : Nat) (x : Fifo) : (s.setFifo n x).axes = s.axes := rfl
@[simp] theorem State.setFifo_groups (n : Nat) (x : Fifo) : (s.setFifo n x).groups = s.groups := rfl
@[simp] theorem State.setFifo_pwms (n : Nat) (x : Fifo) : (s.setFifo n x).pwms = s.pwms := rfl
@[simp] theorem State.setFifo_locals (n : Nat) (x : Fifo) : (s.setFifo n x).locals = s.locals := rfl
@[simp] theorem State.setFifo_encs (n : Nat) (x : Fifo) : (s.setFifo n x).encs = s.encs := rfl
@[simp] theorem State.setFifo_caps (n : Nat) (x : Fifo) : (s.setFifo n x).caps = s.caps := rfl
@[simp] theorem State.setFifo_convs (n : Nat) (x : Fifo) : (s.setFifo n x).convs = s.convs := rfl
@[simp] theorem State.setFifo_ains (n : Nat) (x : Fifo) : (s.setFifo n x).ains = s.ains := rfl
@[simp] theorem State.setFifo_trigs (n : Nat) (x : Fifo) : (s.setFifo n x).trigs = s.trigs := rfl
@[simp] theorem State.setFifo_aouts (n : Nat) (x : Fifo) : (s.setFifo n x).aouts = s.aouts := rfl
@[simp] theorem State.setFifo_dins (n : Nat) (x : Fifo) : (s.setFifo n x).dins = s.dins := rfl
@[simp] theorem State.setFifo_douts (n : Nat) (x : Fifo) : (s.setFifo n x).douts = s.douts := rfl
@[simp] theorem State.setFifo_supplies (n : Nat) (x : Fifo) : (s.setFifo n x).supplies = s.supplies := rfl
@[simp] theorem State.setFifo_field (n : Nat) (x : Fifo) : (s.setFifo n x).field = s.field := rfl
@[simp] theorem State.setFifo_rcd (n : Nat) (x : Fifo) : (s.setFifo n x).rcd = s.rcd := rfl
@[simp] theorem State.setFifo_fifos (n : Nat) (x : Fifo) : (s.setFifo n x).fifos = setAt s.fifos n x := rfl
@[simp] theorem State.setFifo_ssds (n : Nat) (x : Fifo) : (s.setFifo n x).ssds = s.ssds := rfl
@[simp] theorem State.setFifo_tasks (n : Nat) (x : Fifo) : (s.setFifo n x).tasks = s.tasks := rfl
@[simp] theorem State.setFifo_prog (n : Nat) (x : Fifo) : (s.setFifo n x).prog = s.prog := rfl
@[simp] theorem State.setFifo_sched (n : Nat) (x : Fifo) : (s.setFifo n x).sched = s.sched := rfl
@[simp] theorem State.setFifo_ost (n : Nat) (x : Fifo) : (s.setFifo n x).ost = s.ost := rfl
@[simp] theorem State.setFifo_lay (n : Nat) (x : Fifo) : (s.setFifo n x).lay = s.lay := rfl
@[simp] theorem State.setFifo_gov (n : Nat) (x : Fifo) : (s.setFifo n x).gov = s.gov := rfl
@[simp] theorem State.setFifo_health (n : Nat) (x : Fifo) : (s.setFifo n x).health = s.health := rfl
@[simp] theorem State.setFifo_paddock (n : Nat) (x : Fifo) : (s.setFifo n x).paddock = s.paddock := rfl
@[simp] theorem State.setFifo_sent (n : Nat) (x : Fifo) : (s.setFifo n x).sent = s.sent := rfl
@[simp] theorem State.setFifo_freeCtr (n : Nat) (x : Fifo) : (s.setFifo n x).freeCtr = s.freeCtr := rfl
@[simp] theorem State.setFifo_pending (n : Nat) (x : Fifo) : (s.setFifo n x).pending = s.pending := rfl

@[simp] theorem State.fifo_setFifo (n : Nat) (x : Fifo) : (s.setFifo n x).fifo n = x := getAt_setAt_self _ _ _ _
theorem State.fifo_setFifo_ne (n m : Nat) (x : Fifo) (h : m ≠ n) : (s.setFifo n x).fifo m = s.fifo m := getAt_setAt_ne _ _ _ _ _ h

/-! `State.setSsd`. -/
@[simp] theorem State.setSsd_regs (n : Nat) (x : Ssd) : (s.setSsd n x).regs = s.regs := rfl
@[simp] theorem State.setSsd_dict (n : Nat) (x : Ssd) : (s.setSsd n x).dict = s.dict := rfl
@[simp] theorem State.setSsd_clock (n : Nat) (x : Ssd) : (s.setSsd n x).clock = s.clock := rfl
@[simp] theorem State.setSsd_tbs (n : Nat) (x : Ssd) : (s.setSsd n x).tbs = s.tbs := rfl
@[simp] theorem State.setSsd_ports (n : Nat) (x : Ssd) : (s.setSsd n x).ports = s.ports := rfl
@[simp] theorem State.setSsd_leads (n : Nat) (x : Ssd) : (s.setSsd n x).leads = s.leads := rfl
@[simp] theorem State.setSsd_actions (n : Nat) (x : Ssd) : (s.setSsd n x).actions = s.actions := rfl
@[simp] theorem State.setSsd_links (n : Nat) (x : Ssd) : (s.setSsd n x).links = s.links := rfl
@[simp] theorem State.setSsd_stations (n : Nat) (x : Ssd) : (s.setSsd n x).stations = s.stations := rfl
@[simp] theorem State.setSsd_rings (n : Nat) (x : Ssd) : (s.setSsd n x).rings = s.rings := rfl
@[simp] theorem State.setSsd_na (n : Nat) (x : Ssd) : (s.setSsd n x).na = s.na := rfl
@[simp] theorem State.setSsd_nb (n : Nat) (x : Ssd) : (s.setSsd n x).nb = s.nb := rfl
@[simp] theorem State.setSsd_rein (n : Nat) (x : Ssd) : (s.setSsd n x).rein = s.rein := rfl
@[simp] theorem State.setSsd_coast (n : Nat) (x : Ssd) : (s.setSsd n x).coast = s.coast := rfl
@[simp] theorem State.setSsd_henvy (n : Nat) (x : Ssd) : (s.setSsd n x).henvy = s.henvy := rfl
@[simp] theorem State.setSsd_uplinks (n : Nat) (x : Ssd) : (s.setSsd n x).uplinks = s.uplinks := rfl
@[simp] theorem State.setSsd_prp (n : Nat) (x : Ssd) : (s.setSsd n x).prp = s.prp := rfl
@[simp] theorem State.setSsd_taken (n : Nat) (x : Ssd) : (s.setSsd n x).taken = s.taken := rfl
@[simp] theorem State.setSsd_stored (n : Nat) (x : Ssd) : (s.setSsd n x).stored = s.stored := rfl
@[simp] theorem State.setSsd_chans (n : Nat) (x : Ssd) : (s.setSsd n x).chans = s.chans := rfl
@[simp] theorem State.setSsd_traces (n : Nat) (x : Ssd) : (s.setSsd n x).traces = s.traces := rfl
@[simp] theorem State.setSsd_axes (n : Nat) (x : Ssd) : (s.setSsd n x).axes = s.axes := rfl
@[simp] theorem State.setSsd_groups (n : Nat) (x : Ssd) : (s.setSsd n x).groups = s.groups := rfl
@[simp] theorem State.setSsd_pwms (n : Nat) (x : Ssd) : (s.setSsd n x).pwms = s.pwms := rfl
@[simp] theorem State.setSsd_locals (n : Nat) (x : Ssd) : (s.setSsd n x).locals = s.locals := rfl
@[simp] theorem State.setSsd_encs (n : Nat) (x : Ssd) : (s.setSsd n x).encs = s.encs := rfl
@[simp] theorem State.setSsd_caps (n : Nat) (x : Ssd) : (s.setSsd n x).caps = s.caps := rfl
@[simp] theorem State.setSsd_convs (n : Nat) (x : Ssd) : (s.setSsd n x).convs = s.convs := rfl
@[simp] theorem State.setSsd_ains (n : Nat) (x : Ssd) : (s.setSsd n x).ains = s.ains := rfl
@[simp] theorem State.setSsd_trigs (n : Nat) (x : Ssd) : (s.setSsd n x).trigs = s.trigs := rfl
@[simp] theorem State.setSsd_aouts (n : Nat) (x : Ssd) : (s.setSsd n x).aouts = s.aouts := rfl
@[simp] theorem State.setSsd_dins (n : Nat) (x : Ssd) : (s.setSsd n x).dins = s.dins := rfl
@[simp] theorem State.setSsd_douts (n : Nat) (x : Ssd) : (s.setSsd n x).douts = s.douts := rfl
@[simp] theorem State.setSsd_supplies (n : Nat) (x : Ssd) : (s.setSsd n x).supplies = s.supplies := rfl
@[simp] theorem State.setSsd_field (n : Nat) (x : Ssd) : (s.setSsd n x).field = s.field := rfl
@[simp] theorem State.setSsd_rcd (n : Nat) (x : Ssd) : (s.setSsd n x).rcd = s.rcd := rfl
@[simp] theorem State.setSsd_fifos (n : Nat) (x : Ssd) : (s.setSsd n x).fifos = s.fifos := rfl
@[simp] theorem State.setSsd_ssds (n : Nat) (x : Ssd) : (s.setSsd n x).ssds = setAt s.ssds n x := rfl
@[simp] theorem State.setSsd_tasks (n : Nat) (x : Ssd) : (s.setSsd n x).tasks = s.tasks := rfl
@[simp] theorem State.setSsd_prog (n : Nat) (x : Ssd) : (s.setSsd n x).prog = s.prog := rfl
@[simp] theorem State.setSsd_sched (n : Nat) (x : Ssd) : (s.setSsd n x).sched = s.sched := rfl
@[simp] theorem State.setSsd_ost (n : Nat) (x : Ssd) : (s.setSsd n x).ost = s.ost := rfl
@[simp] theorem State.setSsd_lay (n : Nat) (x : Ssd) : (s.setSsd n x).lay = s.lay := rfl
@[simp] theorem State.setSsd_gov (n : Nat) (x : Ssd) : (s.setSsd n x).gov = s.gov := rfl
@[simp] theorem State.setSsd_health (n : Nat) (x : Ssd) : (s.setSsd n x).health = s.health := rfl
@[simp] theorem State.setSsd_paddock (n : Nat) (x : Ssd) : (s.setSsd n x).paddock = s.paddock := rfl
@[simp] theorem State.setSsd_sent (n : Nat) (x : Ssd) : (s.setSsd n x).sent = s.sent := rfl
@[simp] theorem State.setSsd_freeCtr (n : Nat) (x : Ssd) : (s.setSsd n x).freeCtr = s.freeCtr := rfl
@[simp] theorem State.setSsd_pending (n : Nat) (x : Ssd) : (s.setSsd n x).pending = s.pending := rfl

@[simp] theorem State.ssd_setSsd (n : Nat) (x : Ssd) : (s.setSsd n x).ssd n = x := getAt_setAt_self _ _ _ _
theorem State.ssd_setSsd_ne (n m : Nat) (x : Ssd) (h : m ≠ n) : (s.setSsd n x).ssd m = s.ssd m := getAt_setAt_ne _ _ _ _ _ h

/-! `State.setTask`. -/
@[simp] theorem State.setTask_regs (n : Nat) (x : TaskRec) : (s.setTask n x).regs = s.regs := rfl
@[simp] theorem State.setTask_dict (n : Nat) (x : TaskRec) : (s.setTask n x).dict = s.dict := rfl
@[simp] theorem State.setTask_clock (n : Nat) (x : TaskRec) : (s.setTask n x).clock = s.clock := rfl
@[simp] theorem State.setTask_tbs (n : Nat) (x : TaskRec) : (s.setTask n x).tbs = s.tbs := rfl
@[simp] theorem State.setTask_ports (n : Nat) (x : TaskRec) : (s.setTask n x).ports = s.ports := rfl
@[simp] theorem State.setTask_leads (n : Nat) (x : TaskRec) : (s.setTask n x).leads = s.leads := rfl
@[simp] theorem State.setTask_actions (n : Nat) (x : TaskRec) : (s.setTask n x).actions = s.actions := rfl
@[simp] theorem State.setTask_links (n : Nat) (x : TaskRec) : (s.setTask n x).links = s.links := rfl
@[simp] theorem State.setTask_stations (n : Nat) (x : TaskRec) : (s.setTask n x).stations = s.stations := rfl
@[simp] theorem State.setTask_rings (n : Nat) (x : TaskRec) : (s.setTask n x).rings = s.rings := rfl
@[simp] theorem State.setTask_na (n : Nat) (x : TaskRec) : (s.setTask n x).na = s.na := rfl
@[simp] theorem State.setTask_nb (n : Nat) (x : TaskRec) : (s.setTask n x).nb = s.nb := rfl
@[simp] theorem State.setTask_rein (n : Nat) (x : TaskRec) : (s.setTask n x).rein = s.rein := rfl
@[simp] theorem State.setTask_coast (n : Nat) (x : TaskRec) : (s.setTask n x).coast = s.coast := rfl
@[simp] theorem State.setTask_henvy (n : Nat) (x : TaskRec) : (s.setTask n x).henvy = s.henvy := rfl
@[simp] theorem State.setTask_uplinks (n : Nat) (x : TaskRec) : (s.setTask n x).uplinks = s.uplinks := rfl
@[simp] theorem State.setTask_prp (n : Nat) (x : TaskRec) : (s.setTask n x).prp = s.prp := rfl
@[simp] theorem State.setTask_taken (n : Nat) (x : TaskRec) : (s.setTask n x).taken = s.taken := rfl
@[simp] theorem State.setTask_stored (n : Nat) (x : TaskRec) : (s.setTask n x).stored = s.stored := rfl
@[simp] theorem State.setTask_chans (n : Nat) (x : TaskRec) : (s.setTask n x).chans = s.chans := rfl
@[simp] theorem State.setTask_traces (n : Nat) (x : TaskRec) : (s.setTask n x).traces = s.traces := rfl
@[simp] theorem State.setTask_axes (n : Nat) (x : TaskRec) : (s.setTask n x).axes = s.axes := rfl
@[simp] theorem State.setTask_groups (n : Nat) (x : TaskRec) : (s.setTask n x).groups = s.groups := rfl
@[simp] theorem State.setTask_pwms (n : Nat) (x : TaskRec) : (s.setTask n x).pwms = s.pwms := rfl
@[simp] theorem State.setTask_locals (n : Nat) (x : TaskRec) : (s.setTask n x).locals = s.locals := rfl
@[simp] theorem State.setTask_encs (n : Nat) (x : TaskRec) : (s.setTask n x).encs = s.encs := rfl
@[simp] theorem State.setTask_caps (n : Nat) (x : TaskRec) : (s.setTask n x).caps = s.caps := rfl
@[simp] theorem State.setTask_convs (n : Nat) (x : TaskRec) : (s.setTask n x).convs = s.convs := rfl
@[simp] theorem State.setTask_ains (n : Nat) (x : TaskRec) : (s.setTask n x).ains = s.ains := rfl
@[simp] theorem State.setTask_trigs (n : Nat) (x : TaskRec) : (s.setTask n x).trigs = s.trigs := rfl
@[simp] theorem State.setTask_aouts (n : Nat) (x : TaskRec) : (s.setTask n x).aouts = s.aouts := rfl
@[simp] theorem State.setTask_dins (n : Nat) (x : TaskRec) : (s.setTask n x).dins = s.dins := rfl
@[simp] theorem State.setTask_douts (n : Nat) (x : TaskRec) : (s.setTask n x).douts = s.douts := rfl
@[simp] theorem State.setTask_supplies (n : Nat) (x : TaskRec) : (s.setTask n x).supplies = s.supplies := rfl
@[simp] theorem State.setTask_field (n : Nat) (x : TaskRec) : (s.setTask n x).field = s.field := rfl
@[simp] theorem State.setTask_rcd (n : Nat) (x : TaskRec) : (s.setTask n x).rcd = s.rcd := rfl
@[simp] theorem State.setTask_fifos (n : Nat) (x : TaskRec) : (s.setTask n x).fifos = s.fifos := rfl
@[simp] theorem State.setTask_ssds (n : Nat) (x : TaskRec) : (s.setTask n x).ssds = s.ssds := rfl
@[simp] theorem State.setTask_tasks (n : Nat) (x : TaskRec) : (s.setTask n x).tasks = setAt s.tasks n x := rfl
@[simp] theorem State.setTask_prog (n : Nat) (x : TaskRec) : (s.setTask n x).prog = s.prog := rfl
@[simp] theorem State.setTask_sched (n : Nat) (x : TaskRec) : (s.setTask n x).sched = s.sched := rfl
@[simp] theorem State.setTask_ost (n : Nat) (x : TaskRec) : (s.setTask n x).ost = s.ost := rfl
@[simp] theorem State.setTask_lay (n : Nat) (x : TaskRec) : (s.setTask n x).lay = s.lay := rfl
@[simp] theorem State.setTask_gov (n : Nat) (x : TaskRec) : (s.setTask n x).gov = s.gov := rfl
@[simp] theorem State.setTask_health (n : Nat) (x : TaskRec) : (s.setTask n x).health = s.health := rfl
@[simp] theorem State.setTask_paddock (n : Nat) (x : TaskRec) : (s.setTask n x).paddock = s.paddock := rfl
@[simp] theorem State.setTask_sent (n : Nat) (x : TaskRec) : (s.setTask n x).sent = s.sent := rfl
@[simp] theorem State.setTask_freeCtr (n : Nat) (x : TaskRec) : (s.setTask n x).freeCtr = s.freeCtr := rfl
@[simp] theorem State.setTask_pending (n : Nat) (x : TaskRec) : (s.setTask n x).pending = s.pending := rfl

@[simp] theorem State.task_setTask (n : Nat) (x : TaskRec) : (s.setTask n x).task n = x := getAt_setAt_self _ _ _ _
theorem State.task_setTask_ne (n m : Nat) (x : TaskRec) (h : m ≠ n) : (s.setTask n x).task m = s.task m := getAt_setAt_ne _ _ _ _ _ h

/-! `State.setReg`. -/
@[simp] theorem State.setReg_regs (i j : Nat) (v : Val) : (s.setReg i j v).regs = setAt s.regs (regKey i j) v := rfl
@[simp] theorem State.setReg_dict (i j : Nat) (v : Val) : (s.setReg i j v).dict = s.dict := rfl
@[simp] theorem State.setReg_clock (i j : Nat) (v : Val) : (s.setReg i j v).clock = s.clock := rfl
@[simp] theorem State.setReg_tbs (i j : Nat) (v : Val) : (s.setReg i j v).tbs = s.tbs := rfl
@[simp] theorem State.setReg_ports (i j : Nat) (v : Val) : (s.setReg i j v).ports = s.ports := rfl
@[simp] theorem State.setReg_leads (i j : Nat) (v : Val) : (s.setReg i j v).leads = s.leads := rfl
@[simp] theorem State.setReg_actions (i j : Nat) (v : Val) : (s.setReg i j v).actions = s.actions := rfl
@[simp] theorem State.setReg_links (i j : Nat) (v : Val) : (s.setReg i j v).links = s.links := rfl
@[simp] theorem State.setReg_stations (i j : Nat) (v : Val) : (s.setReg i j v).stations = s.stations := rfl
@[simp] theorem State.setReg_rings (i j : Nat) (v : Val) : (s.setReg i j v).rings = s.rings := rfl
@[simp] theorem State.setReg_na (i j : Nat) (v : Val) : (s.setReg i j v).na = s.na := rfl
@[simp] theorem State.setReg_nb (i j : Nat) (v : Val) : (s.setReg i j v).nb = s.nb := rfl
@[simp] theorem State.setReg_rein (i j : Nat) (v : Val) : (s.setReg i j v).rein = s.rein := rfl
@[simp] theorem State.setReg_coast (i j : Nat) (v : Val) : (s.setReg i j v).coast = s.coast := rfl
@[simp] theorem State.setReg_henvy (i j : Nat) (v : Val) : (s.setReg i j v).henvy = s.henvy := rfl
@[simp] theorem State.setReg_uplinks (i j : Nat) (v : Val) : (s.setReg i j v).uplinks = s.uplinks := rfl
@[simp] theorem State.setReg_prp (i j : Nat) (v : Val) : (s.setReg i j v).prp = s.prp := rfl
@[simp] theorem State.setReg_taken (i j : Nat) (v : Val) : (s.setReg i j v).taken = s.taken := rfl
@[simp] theorem State.setReg_stored (i j : Nat) (v : Val) : (s.setReg i j v).stored = s.stored := rfl
@[simp] theorem State.setReg_chans (i j : Nat) (v : Val) : (s.setReg i j v).chans = s.chans := rfl
@[simp] theorem State.setReg_traces (i j : Nat) (v : Val) : (s.setReg i j v).traces = s.traces := rfl
@[simp] theorem State.setReg_axes (i j : Nat) (v : Val) : (s.setReg i j v).axes = s.axes := rfl
@[simp] theorem State.setReg_groups (i j : Nat) (v : Val) : (s.setReg i j v).groups = s.groups := rfl
@[simp] theorem State.setReg_pwms (i j : Nat) (v : Val) : (s.setReg i j v).pwms = s.pwms := rfl
@[simp] theorem State.setReg_locals (i j : Nat) (v : Val) : (s.setReg i j v).locals = s.locals := rfl
@[simp] theorem State.setReg_encs (i j : Nat) (v : Val) : (s.setReg i j v).encs = s.encs := rfl
@[simp] theorem State.setReg_caps (i j : Nat) (v : Val) : (s.setReg i j v).caps = s.caps := rfl
@[simp] theorem State.setReg_convs (i j : Nat) (v : Val) : (s.setReg i j v).convs = s.convs := rfl
@[simp] theorem State.setReg_ains (i j : Nat) (v : Val) : (s.setReg i j v).ains = s.ains := rfl
@[simp] theorem State.setReg_trigs (i j : Nat) (v : Val) : (s.setReg i j v).trigs = s.trigs := rfl
@[simp] theorem State.setReg_aouts (i j : Nat) (v : Val) : (s.setReg i j v).aouts = s.aouts := rfl
@[simp] theorem State.setReg_dins (i j : Nat) (v : Val) : (s.setReg i j v).dins = s.dins := rfl
@[simp] theorem State.setReg_douts (i j : Nat) (v : Val) : (s.setReg i j v).douts = s.douts := rfl
@[simp] theorem State.setReg_supplies (i j : Nat) (v : Val) : (s.setReg i j v).supplies = s.supplies := rfl
@[simp] theorem State.setReg_field (i j : Nat) (v : Val) : (s.setReg i j v).field = s.field := rfl
@[simp] theorem State.setReg_rcd (i j : Nat) (v : Val) : (s.setReg i j v).rcd = s.rcd := rfl
@[simp] theorem State.setReg_fifos (i j : Nat) (v : Val) : (s.setReg i j v).fifos = s.fifos := rfl
@[simp] theorem State.setReg_ssds (i j : Nat) (v : Val) : (s.setReg i j v).ssds = s.ssds := rfl
@[simp] theorem State.setReg_tasks (i j : Nat) (v : Val) : (s.setReg i j v).tasks = s.tasks := rfl
@[simp] theorem State.setReg_prog (i j : Nat) (v : Val) : (s.setReg i j v).prog = s.prog := rfl
@[simp] theorem State.setReg_sched (i j : Nat) (v : Val) : (s.setReg i j v).sched = s.sched := rfl
@[simp] theorem State.setReg_ost (i j : Nat) (v : Val) : (s.setReg i j v).ost = s.ost := rfl
@[simp] theorem State.setReg_lay (i j : Nat) (v : Val) : (s.setReg i j v).lay = s.lay := rfl
@[simp] theorem State.setReg_gov (i j : Nat) (v : Val) : (s.setReg i j v).gov = s.gov := rfl
@[simp] theorem State.setReg_health (i j : Nat) (v : Val) : (s.setReg i j v).health = s.health := rfl
@[simp] theorem State.setReg_paddock (i j : Nat) (v : Val) : (s.setReg i j v).paddock = s.paddock := rfl
@[simp] theorem State.setReg_sent (i j : Nat) (v : Val) : (s.setReg i j v).sent = s.sent := rfl
@[simp] theorem State.setReg_freeCtr (i j : Nat) (v : Val) : (s.setReg i j v).freeCtr = s.freeCtr := rfl
@[simp] theorem State.setReg_pending (i j : Nat) (v : Val) : (s.setReg i j v).pending = s.pending := rfl

/-! `State.setNum`. -/
@[simp] theorem State.setNum_regs (i j n : Nat) : (s.setNum i j n).regs = setAt s.regs (regKey i j) (.num n) := rfl
@[simp] theorem State.setNum_dict (i j n : Nat) : (s.setNum i j n).dict = s.dict := rfl
@[simp] theorem State.setNum_clock (i j n : Nat) : (s.setNum i j n).clock = s.clock := rfl
@[simp] theorem State.setNum_tbs (i j n : Nat) : (s.setNum i j n).tbs = s.tbs := rfl
@[simp] theorem State.setNum_ports (i j n : Nat) : (s.setNum i j n).ports = s.ports := rfl
@[simp] theorem State.setNum_leads (i j n : Nat) : (s.setNum i j n).leads = s.leads := rfl
@[simp] theorem State.setNum_actions (i j n : Nat) : (s.setNum i j n).actions = s.actions := rfl
@[simp] theorem State.setNum_links (i j n : Nat) : (s.setNum i j n).links = s.links := rfl
@[simp] theorem State.setNum_stations (i j n : Nat) : (s.setNum i j n).stations = s.stations := rfl
@[simp] theorem State.setNum_rings (i j n : Nat) : (s.setNum i j n).rings = s.rings := rfl
@[simp] theorem State.setNum_na (i j n : Nat) : (s.setNum i j n).na = s.na := rfl
@[simp] theorem State.setNum_nb (i j n : Nat) : (s.setNum i j n).nb = s.nb := rfl
@[simp] theorem State.setNum_rein (i j n : Nat) : (s.setNum i j n).rein = s.rein := rfl
@[simp] theorem State.setNum_coast (i j n : Nat) : (s.setNum i j n).coast = s.coast := rfl
@[simp] theorem State.setNum_henvy (i j n : Nat) : (s.setNum i j n).henvy = s.henvy := rfl
@[simp] theorem State.setNum_uplinks (i j n : Nat) : (s.setNum i j n).uplinks = s.uplinks := rfl
@[simp] theorem State.setNum_prp (i j n : Nat) : (s.setNum i j n).prp = s.prp := rfl
@[simp] theorem State.setNum_taken (i j n : Nat) : (s.setNum i j n).taken = s.taken := rfl
@[simp] theorem State.setNum_stored (i j n : Nat) : (s.setNum i j n).stored = s.stored := rfl
@[simp] theorem State.setNum_chans (i j n : Nat) : (s.setNum i j n).chans = s.chans := rfl
@[simp] theorem State.setNum_traces (i j n : Nat) : (s.setNum i j n).traces = s.traces := rfl
@[simp] theorem State.setNum_axes (i j n : Nat) : (s.setNum i j n).axes = s.axes := rfl
@[simp] theorem State.setNum_groups (i j n : Nat) : (s.setNum i j n).groups = s.groups := rfl
@[simp] theorem State.setNum_pwms (i j n : Nat) : (s.setNum i j n).pwms = s.pwms := rfl
@[simp] theorem State.setNum_locals (i j n : Nat) : (s.setNum i j n).locals = s.locals := rfl
@[simp] theorem State.setNum_encs (i j n : Nat) : (s.setNum i j n).encs = s.encs := rfl
@[simp] theorem State.setNum_caps (i j n : Nat) : (s.setNum i j n).caps = s.caps := rfl
@[simp] theorem State.setNum_convs (i j n : Nat) : (s.setNum i j n).convs = s.convs := rfl
@[simp] theorem State.setNum_ains (i j n : Nat) : (s.setNum i j n).ains = s.ains := rfl
@[simp] theorem State.setNum_trigs (i j n : Nat) : (s.setNum i j n).trigs = s.trigs := rfl
@[simp] theorem State.setNum_aouts (i j n : Nat) : (s.setNum i j n).aouts = s.aouts := rfl
@[simp] theorem State.setNum_dins (i j n : Nat) : (s.setNum i j n).dins = s.dins := rfl
@[simp] theorem State.setNum_douts (i j n : Nat) : (s.setNum i j n).douts = s.douts := rfl
@[simp] theorem State.setNum_supplies (i j n : Nat) : (s.setNum i j n).supplies = s.supplies := rfl
@[simp] theorem State.setNum_field (i j n : Nat) : (s.setNum i j n).field = s.field := rfl
@[simp] theorem State.setNum_rcd (i j n : Nat) : (s.setNum i j n).rcd = s.rcd := rfl
@[simp] theorem State.setNum_fifos (i j n : Nat) : (s.setNum i j n).fifos = s.fifos := rfl
@[simp] theorem State.setNum_ssds (i j n : Nat) : (s.setNum i j n).ssds = s.ssds := rfl
@[simp] theorem State.setNum_tasks (i j n : Nat) : (s.setNum i j n).tasks = s.tasks := rfl
@[simp] theorem State.setNum_prog (i j n : Nat) : (s.setNum i j n).prog = s.prog := rfl
@[simp] theorem State.setNum_sched (i j n : Nat) : (s.setNum i j n).sched = s.sched := rfl
@[simp] theorem State.setNum_ost (i j n : Nat) : (s.setNum i j n).ost = s.ost := rfl
@[simp] theorem State.setNum_lay (i j n : Nat) : (s.setNum i j n).lay = s.lay := rfl
@[simp] theorem State.setNum_gov (i j n : Nat) : (s.setNum i j n).gov = s.gov := rfl
@[simp] theorem State.setNum_health (i j n : Nat) : (s.setNum i j n).health = s.health := rfl
@[simp] theorem State.setNum_paddock (i j n : Nat) : (s.setNum i j n).paddock = s.paddock := rfl
@[simp] theorem State.setNum_sent (i j n : Nat) : (s.setNum i j n).sent = s.sent := rfl
@[simp] theorem State.setNum_freeCtr (i j n : Nat) : (s.setNum i j n).freeCtr = s.freeCtr := rfl
@[simp] theorem State.setNum_pending (i j n : Nat) : (s.setNum i j n).pending = s.pending := rfl

/-! `State.emit`. -/
@[simp] theorem State.emit_regs (x : Sent) : (s.emit x).regs = s.regs := rfl
@[simp] theorem State.emit_dict (x : Sent) : (s.emit x).dict = s.dict := rfl
@[simp] theorem State.emit_clock (x : Sent) : (s.emit x).clock = s.clock := rfl
@[simp] theorem State.emit_tbs (x : Sent) : (s.emit x).tbs = s.tbs := rfl
@[simp] theorem State.emit_ports (x : Sent) : (s.emit x).ports = s.ports := rfl
@[simp] theorem State.emit_leads (x : Sent) : (s.emit x).leads = s.leads := rfl
@[simp] theorem State.emit_actions (x : Sent) : (s.emit x).actions = s.actions := rfl
@[simp] theorem State.emit_links (x : Sent) : (s.emit x).links = s.links := rfl
@[simp] theorem State.emit_stations (x : Sent) : (s.emit x).stations = s.stations := rfl
@[simp] theorem State.emit_rings (x : Sent) : (s.emit x).rings = s.rings := rfl
@[simp] theorem State.emit_na (x : Sent) : (s.emit x).na = s.na := rfl
@[simp] theorem State.emit_nb (x : Sent) : (s.emit x).nb = s.nb := rfl
@[simp] theorem State.emit_rein (x : Sent) : (s.emit x).rein = s.rein := rfl
@[simp] theorem State.emit_coast (x : Sent) : (s.emit x).coast = s.coast := rfl
@[simp] theorem State.emit_henvy (x : Sent) : (s.emit x).henvy = s.henvy := rfl
@[simp] theorem State.emit_uplinks (x : Sent) : (s.emit x).uplinks = s.uplinks := rfl
@[simp] theorem State.emit_prp (x : Sent) : (s.emit x).prp = s.prp := rfl
@[simp] theorem State.emit_taken (x : Sent) : (s.emit x).taken = s.taken := rfl
@[simp] theorem State.emit_stored (x : Sent) : (s.emit x).stored = s.stored := rfl
@[simp] theorem State.emit_chans (x : Sent) : (s.emit x).chans = s.chans := rfl
@[simp] theorem State.emit_traces (x : Sent) : (s.emit x).traces = s.traces := rfl
@[simp] theorem State.emit_axes (x : Sent) : (s.emit x).axes = s.axes := rfl
@[simp] theorem State.emit_groups (x : Sent) : (s.emit x).groups = s.groups := rfl
@[simp] theorem State.emit_pwms (x : Sent) : (s.emit x).pwms = s.pwms := rfl
@[simp] theorem State.emit_locals (x : Sent) : (s.emit x).locals = s.locals := rfl
@[simp] theorem State.emit_encs (x : Sent) : (s.emit x).encs = s.encs := rfl
@[simp] theorem State.emit_caps (x : Sent) : (s.emit x).caps = s.caps := rfl
@[simp] theorem State.emit_convs (x : Sent) : (s.emit x).convs = s.convs := rfl
@[simp] theorem State.emit_ains (x : Sent) : (s.emit x).ains = s.ains := rfl
@[simp] theorem State.emit_trigs (x : Sent) : (s.emit x).trigs = s.trigs := rfl
@[simp] theorem State.emit_aouts (x : Sent) : (s.emit x).aouts = s.aouts := rfl
@[simp] theorem State.emit_dins (x : Sent) : (s.emit x).dins = s.dins := rfl
@[simp] theorem State.emit_douts (x : Sent) : (s.emit x).douts = s.douts := rfl
@[simp] theorem State.emit_supplies (x : Sent) : (s.emit x).supplies = s.supplies := rfl
@[simp] theorem State.emit_field (x : Sent) : (s.emit x).field = s.field := rfl
@[simp] theorem State.emit_rcd (x : Sent) : (s.emit x).rcd = s.rcd := rfl
@[simp] theorem State.emit_fifos (x : Sent) : (s.emit x).fifos = s.fifos := rfl
@[simp] theorem State.emit_ssds (x : Sent) : (s.emit x).ssds = s.ssds := rfl
@[simp] theorem State.emit_tasks (x : Sent) : (s.emit x).tasks = s.tasks := rfl
@[simp] theorem State.emit_prog (x : Sent) : (s.emit x).prog = s.prog := rfl
@[simp] theorem State.emit_sched (x : Sent) : (s.emit x).sched = s.sched := rfl
@[simp] theorem State.emit_ost (x : Sent) : (s.emit x).ost = s.ost := rfl
@[simp] theorem State.emit_lay (x : Sent) : (s.emit x).lay = s.lay := rfl
@[simp] theorem State.emit_gov (x : Sent) : (s.emit x).gov = s.gov := rfl
@[simp] theorem State.emit_health (x : Sent) : (s.emit x).health = s.health := rfl
@[simp] theorem State.emit_paddock (x : Sent) : (s.emit x).paddock = s.paddock := rfl
@[simp] theorem State.emit_sent (x : Sent) : (s.emit x).sent = x :: s.sent := rfl
@[simp] theorem State.emit_freeCtr (x : Sent) : (s.emit x).freeCtr = s.freeCtr := rfl
@[simp] theorem State.emit_pending (x : Sent) : (s.emit x).pending = s.pending := rfl

/-! `State.record`. -/
@[simp] theorem State.record_regs (c i t o : Nat) (v : List Byte) : (s.record c i t o v).regs = s.regs := by
  unfold State.record; split <;> rfl
@[simp] theorem State.record_dict (c i t o : Nat) (v : List Byte) : (s.record c i t o v).dict = s.dict := by
  unfold State.record; split <;> rfl
@[simp] theorem State.record_clock (c i t o : Nat) (v : List Byte) : (s.record c i t o v).clock = s.clock := by
  unfold State.record; split <;> rfl
@[simp] theorem State.record_tbs (c i t o : Nat) (v : List Byte) : (s.record c i t o v).tbs = s.tbs := by
  unfold State.record; split <;> rfl
@[simp] theorem State.record_ports (c i t o : Nat) (v : List Byte) : (s.record c i t o v).ports = s.ports := by
  unfold State.record; split <;> rfl
@[simp] theorem State.record_leads (c i t o : Nat) (v : List Byte) : (s.record c i t o v).leads = s.leads := by
  unfold State.record; split <;> rfl
@[simp] theorem State.record_actions (c i t o : Nat) (v : List Byte) : (s.record c i t o v).actions = s.actions := by
  unfold State.record; split <;> rfl
@[simp] theorem State.record_links (c i t o : Nat) (v : List Byte) : (s.record c i t o v).links = s.links := by
  unfold State.record; split <;> rfl
@[simp] theorem State.record_stations (c i t o : Nat) (v : List Byte) : (s.record c i t o v).stations = s.stations := by
  unfold State.record; split <;> rfl
@[simp] theorem State.record_rings (c i t o : Nat) (v : List Byte) : (s.record c i t o v).rings = s.rings := by
  unfold State.record; split <;> rfl
@[simp] theorem State.record_na (c i t o : Nat) (v : List Byte) : (s.record c i t o v).na = s.na := by
  unfold State.record; split <;> rfl
@[simp] theorem State.record_nb (c i t o : Nat) (v : List Byte) : (s.record c i t o v).nb = s.nb := by
  unfold State.record; split <;> rfl
@[simp] theorem State.record_rein (c i t o : Nat) (v : List Byte) : (s.record c i t o v).rein = s.rein := by
  unfold State.record; split <;> rfl
@[simp] theorem State.record_coast (c i t o : Nat) (v : List Byte) : (s.record c i t o v).coast = s.coast := by
  unfold State.record; split <;> rfl
@[simp] theorem State.record_henvy (c i t o : Nat) (v : List Byte) : (s.record c i t o v).henvy = s.henvy := by
  unfold State.record; split <;> rfl
@[simp] theorem State.record_uplinks (c i t o : Nat) (v : List Byte) : (s.record c i t o v).uplinks = s.uplinks := by
  unfold State.record; split <;> rfl
@[simp] theorem State.record_prp (c i t o : Nat) (v : List Byte) : (s.record c i t o v).prp = s.prp := by
  unfold State.record; split <;> rfl
@[simp] theorem State.record_taken (c i t o : Nat) (v : List Byte) : (s.record c i t o v).taken = s.taken := by
  unfold State.record; split <;> rfl
@[simp] theorem State.record_stored (c i t o : Nat) (v : List Byte) : (s.record c i t o v).stored = s.stored := by
  unfold State.record; split <;> rfl
@[simp] theorem State.record_chans (c i t o : Nat) (v : List Byte) : (s.record c i t o v).chans = s.chans := by
  unfold State.record; split <;> rfl
@[simp] theorem State.record_traces (c i t o : Nat) (v : List Byte) : (s.record c i t o v).traces = s.traces := by
  unfold State.record; split <;> rfl
@[simp] theorem State.record_axes (c i t o : Nat) (v : List Byte) : (s.record c i t o v).axes = s.axes := by
  unfold State.record; split <;> rfl
@[simp] theorem State.record_groups (c i t o : Nat) (v : List Byte) : (s.record c i t o v).groups = s.groups := by
  unfold State.record; split <;> rfl
@[simp] theorem State.record_pwms (c i t o : Nat) (v : List Byte) : (s.record c i t o v).pwms = s.pwms := by
  unfold State.record; split <;> rfl
@[simp] theorem State.record_locals (c i t o : Nat) (v : List Byte) : (s.record c i t o v).locals = s.locals := by
  unfold State.record; split <;> rfl
@[simp] theorem State.record_encs (c i t o : Nat) (v : List Byte) : (s.record c i t o v).encs = s.encs := by
  unfold State.record; split <;> rfl
@[simp] theorem State.record_caps (c i t o : Nat) (v : List Byte) : (s.record c i t o v).caps = s.caps := by
  unfold State.record; split <;> rfl
@[simp] theorem State.record_convs (c i t o : Nat) (v : List Byte) : (s.record c i t o v).convs = s.convs := by
  unfold State.record; split <;> rfl
@[simp] theorem State.record_ains (c i t o : Nat) (v : List Byte) : (s.record c i t o v).ains = s.ains := by
  unfold State.record; split <;> rfl
@[simp] theorem State.record_trigs (c i t o : Nat) (v : List Byte) : (s.record c i t o v).trigs = s.trigs := by
  unfold State.record; split <;> rfl
@[simp] theorem State.record_aouts (c i t o : Nat) (v : List Byte) : (s.record c i t o v).aouts = s.aouts := by
  unfold State.record; split <;> rfl
@[simp] theorem State.record_dins (c i t o : Nat) (v : List Byte) : (s.record c i t o v).dins = s.dins := by
  unfold State.record; split <;> rfl
@[simp] theorem State.record_douts (c i t o : Nat) (v : List Byte) : (s.record c i t o v).douts = s.douts := by
  unfold State.record; split <;> rfl
@[simp] theorem State.record_supplies (c i t o : Nat) (v : List Byte) : (s.record c i t o v).supplies = s.supplies := by
  unfold State.record; split <;> rfl
@[simp] theorem State.record_field (c i t o : Nat) (v : List Byte) : (s.record c i t o v).field = s.field := by
  unfold State.record; split <;> rfl
@[simp] theorem State.record_fifos (c i t o : Nat) (v : List Byte) : (s.record c i t o v).fifos = s.fifos := by
  unfold State.record; split <;> rfl
@[simp] theorem State.record_ssds (c i t o : Nat) (v : List Byte) : (s.record c i t o v).ssds = s.ssds := by
  unfold State.record; split <;> rfl
@[simp] theorem State.record_tasks (c i t o : Nat) (v : List Byte) : (s.record c i t o v).tasks = s.tasks := by
  unfold State.record; split <;> rfl
@[simp] theorem State.record_prog (c i t o : Nat) (v : List Byte) : (s.record c i t o v).prog = s.prog := by
  unfold State.record; split <;> rfl
@[simp] theorem State.record_sched (c i t o : Nat) (v : List Byte) : (s.record c i t o v).sched = s.sched := by
  unfold State.record; split <;> rfl
@[simp] theorem State.record_ost (c i t o : Nat) (v : List Byte) : (s.record c i t o v).ost = s.ost := by
  unfold State.record; split <;> rfl
@[simp] theorem State.record_lay (c i t o : Nat) (v : List Byte) : (s.record c i t o v).lay = s.lay := by
  unfold State.record; split <;> rfl
@[simp] theorem State.record_gov (c i t o : Nat) (v : List Byte) : (s.record c i t o v).gov = s.gov := by
  unfold State.record; split <;> rfl
@[simp] theorem State.record_health (c i t o : Nat) (v : List Byte) : (s.record c i t o v).health = s.health := by
  unfold State.record; split <;> rfl
@[simp] theorem State.record_paddock (c i t o : Nat) (v : List Byte) : (s.record c i t o v).paddock = s.paddock := by
  unfold State.record; split <;> rfl
@[simp] theorem State.record_sent (c i t o : Nat) (v : List Byte) : (s.record c i t o v).sent = s.sent := by
  unfold State.record; split <;> rfl
@[simp] theorem State.record_freeCtr (c i t o : Nat) (v : List Byte) : (s.record c i t o v).freeCtr = s.freeCtr := by
  unfold State.record; split <;> rfl
@[simp] theorem State.record_pending (c i t o : Nat) (v : List Byte) : (s.record c i t o v).pending = s.pending := by
  unfold State.record; split <;> rfl
/-- A record of an item that is good in its tick waits for the assembly (R456). -/
theorem State.record_rcd (c i t o : Nat) (v : List Byte) (h : (fromAx c && !s.linkGood .axCx) = false) :
    (s.record c i t o v).rcd = { s.rcd with waiting := ⟨c, i, t, o, v⟩ :: s.rcd.waiting } := by
  simp [State.record, h]

/-! `State.setReady`. -/
@[simp] theorem State.setReady_regs (k : Nat) (r : Ready) : (s.setReady k r).regs = s.regs := rfl
@[simp] theorem State.setReady_dict (k : Nat) (r : Ready) : (s.setReady k r).dict = { s.dict with ready := setAt s.dict.ready k r } := rfl
@[simp] theorem State.setReady_clock (k : Nat) (r : Ready) : (s.setReady k r).clock = s.clock := rfl
@[simp] theorem State.setReady_tbs (k : Nat) (r : Ready) : (s.setReady k r).tbs = s.tbs := rfl
@[simp] theorem State.setReady_ports (k : Nat) (r : Ready) : (s.setReady k r).ports = s.ports := rfl
@[simp] theorem State.setReady_leads (k : Nat) (r : Ready) : (s.setReady k r).leads = s.leads := rfl
@[simp] theorem State.setReady_actions (k : Nat) (r : Ready) : (s.setReady k r).actions = s.actions := rfl
@[simp] theorem State.setReady_links (k : Nat) (r : Ready) : (s.setReady k r).links = s.links := rfl
@[simp] theorem State.setReady_stations (k : Nat) (r : Ready) : (s.setReady k r).stations = s.stations := rfl
@[simp] theorem State.setReady_rings (k : Nat) (r : Ready) : (s.setReady k r).rings = s.rings := rfl
@[simp] theorem State.setReady_na (k : Nat) (r : Ready) : (s.setReady k r).na = s.na := rfl
@[simp] theorem State.setReady_nb (k : Nat) (r : Ready) : (s.setReady k r).nb = s.nb := rfl
@[simp] theorem State.setReady_rein (k : Nat) (r : Ready) : (s.setReady k r).rein = s.rein := rfl
@[simp] theorem State.setReady_coast (k : Nat) (r : Ready) : (s.setReady k r).coast = s.coast := rfl
@[simp] theorem State.setReady_henvy (k : Nat) (r : Ready) : (s.setReady k r).henvy = s.henvy := rfl
@[simp] theorem State.setReady_uplinks (k : Nat) (r : Ready) : (s.setReady k r).uplinks = s.uplinks := rfl
@[simp] theorem State.setReady_prp (k : Nat) (r : Ready) : (s.setReady k r).prp = s.prp := rfl
@[simp] theorem State.setReady_taken (k : Nat) (r : Ready) : (s.setReady k r).taken = s.taken := rfl
@[simp] theorem State.setReady_stored (k : Nat) (r : Ready) : (s.setReady k r).stored = s.stored := rfl
@[simp] theorem State.setReady_chans (k : Nat) (r : Ready) : (s.setReady k r).chans = s.chans := rfl
@[simp] theorem State.setReady_traces (k : Nat) (r : Ready) : (s.setReady k r).traces = s.traces := rfl
@[simp] theorem State.setReady_axes (k : Nat) (r : Ready) : (s.setReady k r).axes = s.axes := rfl
@[simp] theorem State.setReady_groups (k : Nat) (r : Ready) : (s.setReady k r).groups = s.groups := rfl
@[simp] theorem State.setReady_pwms (k : Nat) (r : Ready) : (s.setReady k r).pwms = s.pwms := rfl
@[simp] theorem State.setReady_locals (k : Nat) (r : Ready) : (s.setReady k r).locals = s.locals := rfl
@[simp] theorem State.setReady_encs (k : Nat) (r : Ready) : (s.setReady k r).encs = s.encs := rfl
@[simp] theorem State.setReady_caps (k : Nat) (r : Ready) : (s.setReady k r).caps = s.caps := rfl
@[simp] theorem State.setReady_convs (k : Nat) (r : Ready) : (s.setReady k r).convs = s.convs := rfl
@[simp] theorem State.setReady_ains (k : Nat) (r : Ready) : (s.setReady k r).ains = s.ains := rfl
@[simp] theorem State.setReady_trigs (k : Nat) (r : Ready) : (s.setReady k r).trigs = s.trigs := rfl
@[simp] theorem State.setReady_aouts (k : Nat) (r : Ready) : (s.setReady k r).aouts = s.aouts := rfl
@[simp] theorem State.setReady_dins (k : Nat) (r : Ready) : (s.setReady k r).dins = s.dins := rfl
@[simp] theorem State.setReady_douts (k : Nat) (r : Ready) : (s.setReady k r).douts = s.douts := rfl
@[simp] theorem State.setReady_supplies (k : Nat) (r : Ready) : (s.setReady k r).supplies = s.supplies := rfl
@[simp] theorem State.setReady_field (k : Nat) (r : Ready) : (s.setReady k r).field = s.field := rfl
@[simp] theorem State.setReady_rcd (k : Nat) (r : Ready) : (s.setReady k r).rcd = s.rcd := rfl
@[simp] theorem State.setReady_fifos (k : Nat) (r : Ready) : (s.setReady k r).fifos = s.fifos := rfl
@[simp] theorem State.setReady_ssds (k : Nat) (r : Ready) : (s.setReady k r).ssds = s.ssds := rfl
@[simp] theorem State.setReady_tasks (k : Nat) (r : Ready) : (s.setReady k r).tasks = s.tasks := rfl
@[simp] theorem State.setReady_prog (k : Nat) (r : Ready) : (s.setReady k r).prog = s.prog := rfl
@[simp] theorem State.setReady_sched (k : Nat) (r : Ready) : (s.setReady k r).sched = s.sched := rfl
@[simp] theorem State.setReady_ost (k : Nat) (r : Ready) : (s.setReady k r).ost = s.ost := rfl
@[simp] theorem State.setReady_lay (k : Nat) (r : Ready) : (s.setReady k r).lay = s.lay := rfl
@[simp] theorem State.setReady_gov (k : Nat) (r : Ready) : (s.setReady k r).gov = s.gov := rfl
@[simp] theorem State.setReady_health (k : Nat) (r : Ready) : (s.setReady k r).health = s.health := rfl
@[simp] theorem State.setReady_paddock (k : Nat) (r : Ready) : (s.setReady k r).paddock = s.paddock := rfl
@[simp] theorem State.setReady_sent (k : Nat) (r : Ready) : (s.setReady k r).sent = s.sent := rfl
@[simp] theorem State.setReady_freeCtr (k : Nat) (r : Ready) : (s.setReady k r).freeCtr = s.freeCtr := rfl
@[simp] theorem State.setReady_pending (k : Nat) (r : Ready) : (s.setReady k r).pending = s.pending := rfl

/-! `State.setDie`. -/
@[simp] theorem State.setDie_regs (d st : Nat) : (s.setDie d st).regs = s.regs := rfl
@[simp] theorem State.setDie_dict (d st : Nat) : (s.setDie d st).dict = { s.dict with die := setAt s.dict.die d st } := rfl
@[simp] theorem State.setDie_clock (d st : Nat) : (s.setDie d st).clock = s.clock := rfl
@[simp] theorem State.setDie_tbs (d st : Nat) : (s.setDie d st).tbs = s.tbs := rfl
@[simp] theorem State.setDie_ports (d st : Nat) : (s.setDie d st).ports = s.ports := rfl
@[simp] theorem State.setDie_leads (d st : Nat) : (s.setDie d st).leads = s.leads := rfl
@[simp] theorem State.setDie_actions (d st : Nat) : (s.setDie d st).actions = s.actions := rfl
@[simp] theorem State.setDie_links (d st : Nat) : (s.setDie d st).links = s.links := rfl
@[simp] theorem State.setDie_stations (d st : Nat) : (s.setDie d st).stations = s.stations := rfl
@[simp] theorem State.setDie_rings (d st : Nat) : (s.setDie d st).rings = s.rings := rfl
@[simp] theorem State.setDie_na (d st : Nat) : (s.setDie d st).na = s.na := rfl
@[simp] theorem State.setDie_nb (d st : Nat) : (s.setDie d st).nb = s.nb := rfl
@[simp] theorem State.setDie_rein (d st : Nat) : (s.setDie d st).rein = s.rein := rfl
@[simp] theorem State.setDie_coast (d st : Nat) : (s.setDie d st).coast = s.coast := rfl
@[simp] theorem State.setDie_henvy (d st : Nat) : (s.setDie d st).henvy = s.henvy := rfl
@[simp] theorem State.setDie_uplinks (d st : Nat) : (s.setDie d st).uplinks = s.uplinks := rfl
@[simp] theorem State.setDie_prp (d st : Nat) : (s.setDie d st).prp = s.prp := rfl
@[simp] theorem State.setDie_taken (d st : Nat) : (s.setDie d st).taken = s.taken := rfl
@[simp] theorem State.setDie_stored (d st : Nat) : (s.setDie d st).stored = s.stored := rfl
@[simp] theorem State.setDie_chans (d st : Nat) : (s.setDie d st).chans = s.chans := rfl
@[simp] theorem State.setDie_traces (d st : Nat) : (s.setDie d st).traces = s.traces := rfl
@[simp] theorem State.setDie_axes (d st : Nat) : (s.setDie d st).axes = s.axes := rfl
@[simp] theorem State.setDie_groups (d st : Nat) : (s.setDie d st).groups = s.groups := rfl
@[simp] theorem State.setDie_pwms (d st : Nat) : (s.setDie d st).pwms = s.pwms := rfl
@[simp] theorem State.setDie_locals (d st : Nat) : (s.setDie d st).locals = s.locals := rfl
@[simp] theorem State.setDie_encs (d st : Nat) : (s.setDie d st).encs = s.encs := rfl
@[simp] theorem State.setDie_caps (d st : Nat) : (s.setDie d st).caps = s.caps := rfl
@[simp] theorem State.setDie_convs (d st : Nat) : (s.setDie d st).convs = s.convs := rfl
@[simp] theorem State.setDie_ains (d st : Nat) : (s.setDie d st).ains = s.ains := rfl
@[simp] theorem State.setDie_trigs (d st : Nat) : (s.setDie d st).trigs = s.trigs := rfl
@[simp] theorem State.setDie_aouts (d st : Nat) : (s.setDie d st).aouts = s.aouts := rfl
@[simp] theorem State.setDie_dins (d st : Nat) : (s.setDie d st).dins = s.dins := rfl
@[simp] theorem State.setDie_douts (d st : Nat) : (s.setDie d st).douts = s.douts := rfl
@[simp] theorem State.setDie_supplies (d st : Nat) : (s.setDie d st).supplies = s.supplies := rfl
@[simp] theorem State.setDie_field (d st : Nat) : (s.setDie d st).field = s.field := rfl
@[simp] theorem State.setDie_rcd (d st : Nat) : (s.setDie d st).rcd = s.rcd := rfl
@[simp] theorem State.setDie_fifos (d st : Nat) : (s.setDie d st).fifos = s.fifos := rfl
@[simp] theorem State.setDie_ssds (d st : Nat) : (s.setDie d st).ssds = s.ssds := rfl
@[simp] theorem State.setDie_tasks (d st : Nat) : (s.setDie d st).tasks = s.tasks := rfl
@[simp] theorem State.setDie_prog (d st : Nat) : (s.setDie d st).prog = s.prog := rfl
@[simp] theorem State.setDie_sched (d st : Nat) : (s.setDie d st).sched = s.sched := rfl
@[simp] theorem State.setDie_ost (d st : Nat) : (s.setDie d st).ost = s.ost := rfl
@[simp] theorem State.setDie_lay (d st : Nat) : (s.setDie d st).lay = s.lay := rfl
@[simp] theorem State.setDie_gov (d st : Nat) : (s.setDie d st).gov = s.gov := rfl
@[simp] theorem State.setDie_health (d st : Nat) : (s.setDie d st).health = s.health := rfl
@[simp] theorem State.setDie_paddock (d st : Nat) : (s.setDie d st).paddock = s.paddock := rfl
@[simp] theorem State.setDie_sent (d st : Nat) : (s.setDie d st).sent = s.sent := rfl
@[simp] theorem State.setDie_freeCtr (d st : Nat) : (s.setDie d st).freeCtr = s.freeCtr := rfl
@[simp] theorem State.setDie_pending (d st : Nat) : (s.setDie d st).pending = s.pending := rfl

/-! `State.setCoastRec`. -/
@[simp] theorem State.setCoastRec_regs (n : Nat) (r : CoastRec) : (s.setCoastRec n r).regs = s.regs := rfl
@[simp] theorem State.setCoastRec_dict (n : Nat) (r : CoastRec) : (s.setCoastRec n r).dict = s.dict := rfl
@[simp] theorem State.setCoastRec_clock (n : Nat) (r : CoastRec) : (s.setCoastRec n r).clock = s.clock := rfl
@[simp] theorem State.setCoastRec_tbs (n : Nat) (r : CoastRec) : (s.setCoastRec n r).tbs = s.tbs := rfl
@[simp] theorem State.setCoastRec_ports (n : Nat) (r : CoastRec) : (s.setCoastRec n r).ports = s.ports := rfl
@[simp] theorem State.setCoastRec_leads (n : Nat) (r : CoastRec) : (s.setCoastRec n r).leads = s.leads := rfl
@[simp] theorem State.setCoastRec_actions (n : Nat) (r : CoastRec) : (s.setCoastRec n r).actions = s.actions := rfl
@[simp] theorem State.setCoastRec_links (n : Nat) (r : CoastRec) : (s.setCoastRec n r).links = s.links := rfl
@[simp] theorem State.setCoastRec_stations (n : Nat) (r : CoastRec) : (s.setCoastRec n r).stations = s.stations := rfl
@[simp] theorem State.setCoastRec_rings (n : Nat) (r : CoastRec) : (s.setCoastRec n r).rings = s.rings := rfl
@[simp] theorem State.setCoastRec_na (n : Nat) (r : CoastRec) : (s.setCoastRec n r).na = s.na := rfl
@[simp] theorem State.setCoastRec_nb (n : Nat) (r : CoastRec) : (s.setCoastRec n r).nb = s.nb := rfl
@[simp] theorem State.setCoastRec_rein (n : Nat) (r : CoastRec) : (s.setCoastRec n r).rein = s.rein := rfl
@[simp] theorem State.setCoastRec_coast (n : Nat) (r : CoastRec) : (s.setCoastRec n r).coast = { s.coast with recs := setAt s.coast.recs n r } := rfl
@[simp] theorem State.setCoastRec_henvy (n : Nat) (r : CoastRec) : (s.setCoastRec n r).henvy = s.henvy := rfl
@[simp] theorem State.setCoastRec_uplinks (n : Nat) (r : CoastRec) : (s.setCoastRec n r).uplinks = s.uplinks := rfl
@[simp] theorem State.setCoastRec_prp (n : Nat) (r : CoastRec) : (s.setCoastRec n r).prp = s.prp := rfl
@[simp] theorem State.setCoastRec_taken (n : Nat) (r : CoastRec) : (s.setCoastRec n r).taken = s.taken := rfl
@[simp] theorem State.setCoastRec_stored (n : Nat) (r : CoastRec) : (s.setCoastRec n r).stored = s.stored := rfl
@[simp] theorem State.setCoastRec_chans (n : Nat) (r : CoastRec) : (s.setCoastRec n r).chans = s.chans := rfl
@[simp] theorem State.setCoastRec_traces (n : Nat) (r : CoastRec) : (s.setCoastRec n r).traces = s.traces := rfl
@[simp] theorem State.setCoastRec_axes (n : Nat) (r : CoastRec) : (s.setCoastRec n r).axes = s.axes := rfl
@[simp] theorem State.setCoastRec_groups (n : Nat) (r : CoastRec) : (s.setCoastRec n r).groups = s.groups := rfl
@[simp] theorem State.setCoastRec_pwms (n : Nat) (r : CoastRec) : (s.setCoastRec n r).pwms = s.pwms := rfl
@[simp] theorem State.setCoastRec_locals (n : Nat) (r : CoastRec) : (s.setCoastRec n r).locals = s.locals := rfl
@[simp] theorem State.setCoastRec_encs (n : Nat) (r : CoastRec) : (s.setCoastRec n r).encs = s.encs := rfl
@[simp] theorem State.setCoastRec_caps (n : Nat) (r : CoastRec) : (s.setCoastRec n r).caps = s.caps := rfl
@[simp] theorem State.setCoastRec_convs (n : Nat) (r : CoastRec) : (s.setCoastRec n r).convs = s.convs := rfl
@[simp] theorem State.setCoastRec_ains (n : Nat) (r : CoastRec) : (s.setCoastRec n r).ains = s.ains := rfl
@[simp] theorem State.setCoastRec_trigs (n : Nat) (r : CoastRec) : (s.setCoastRec n r).trigs = s.trigs := rfl
@[simp] theorem State.setCoastRec_aouts (n : Nat) (r : CoastRec) : (s.setCoastRec n r).aouts = s.aouts := rfl
@[simp] theorem State.setCoastRec_dins (n : Nat) (r : CoastRec) : (s.setCoastRec n r).dins = s.dins := rfl
@[simp] theorem State.setCoastRec_douts (n : Nat) (r : CoastRec) : (s.setCoastRec n r).douts = s.douts := rfl
@[simp] theorem State.setCoastRec_supplies (n : Nat) (r : CoastRec) : (s.setCoastRec n r).supplies = s.supplies := rfl
@[simp] theorem State.setCoastRec_field (n : Nat) (r : CoastRec) : (s.setCoastRec n r).field = s.field := rfl
@[simp] theorem State.setCoastRec_rcd (n : Nat) (r : CoastRec) : (s.setCoastRec n r).rcd = s.rcd := rfl
@[simp] theorem State.setCoastRec_fifos (n : Nat) (r : CoastRec) : (s.setCoastRec n r).fifos = s.fifos := rfl
@[simp] theorem State.setCoastRec_ssds (n : Nat) (r : CoastRec) : (s.setCoastRec n r).ssds = s.ssds := rfl
@[simp] theorem State.setCoastRec_tasks (n : Nat) (r : CoastRec) : (s.setCoastRec n r).tasks = s.tasks := rfl
@[simp] theorem State.setCoastRec_prog (n : Nat) (r : CoastRec) : (s.setCoastRec n r).prog = s.prog := rfl
@[simp] theorem State.setCoastRec_sched (n : Nat) (r : CoastRec) : (s.setCoastRec n r).sched = s.sched := rfl
@[simp] theorem State.setCoastRec_ost (n : Nat) (r : CoastRec) : (s.setCoastRec n r).ost = s.ost := rfl
@[simp] theorem State.setCoastRec_lay (n : Nat) (r : CoastRec) : (s.setCoastRec n r).lay = s.lay := rfl
@[simp] theorem State.setCoastRec_gov (n : Nat) (r : CoastRec) : (s.setCoastRec n r).gov = s.gov := rfl
@[simp] theorem State.setCoastRec_health (n : Nat) (r : CoastRec) : (s.setCoastRec n r).health = s.health := rfl
@[simp] theorem State.setCoastRec_paddock (n : Nat) (r : CoastRec) : (s.setCoastRec n r).paddock = s.paddock := rfl
@[simp] theorem State.setCoastRec_sent (n : Nat) (r : CoastRec) : (s.setCoastRec n r).sent = s.sent := rfl
@[simp] theorem State.setCoastRec_freeCtr (n : Nat) (r : CoastRec) : (s.setCoastRec n r).freeCtr = s.freeCtr := rfl
@[simp] theorem State.setCoastRec_pending (n : Nat) (r : CoastRec) : (s.setCoastRec n r).pending = s.pending := rfl

/-! `State.setProg`. -/
@[simp] theorem State.setProg_regs (x : Prog) : (s.setProg x).regs = s.regs := rfl
@[simp] theorem State.setProg_dict (x : Prog) : (s.setProg x).dict = s.dict := rfl
@[simp] theorem State.setProg_clock (x : Prog) : (s.setProg x).clock = s.clock := rfl
@[simp] theorem State.setProg_tbs (x : Prog) : (s.setProg x).tbs = s.tbs := rfl
@[simp] theorem State.setProg_ports (x : Prog) : (s.setProg x).ports = s.ports := rfl
@[simp] theorem State.setProg_leads (x : Prog) : (s.setProg x).leads = s.leads := rfl
@[simp] theorem State.setProg_actions (x : Prog) : (s.setProg x).actions = s.actions := rfl
@[simp] theorem State.setProg_links (x : Prog) : (s.setProg x).links = s.links := rfl
@[simp] theorem State.setProg_stations (x : Prog) : (s.setProg x).stations = s.stations := rfl
@[simp] theorem State.setProg_rings (x : Prog) : (s.setProg x).rings = s.rings := rfl
@[simp] theorem State.setProg_na (x : Prog) : (s.setProg x).na = s.na := rfl
@[simp] theorem State.setProg_nb (x : Prog) : (s.setProg x).nb = s.nb := rfl
@[simp] theorem State.setProg_rein (x : Prog) : (s.setProg x).rein = s.rein := rfl
@[simp] theorem State.setProg_coast (x : Prog) : (s.setProg x).coast = s.coast := rfl
@[simp] theorem State.setProg_henvy (x : Prog) : (s.setProg x).henvy = s.henvy := rfl
@[simp] theorem State.setProg_uplinks (x : Prog) : (s.setProg x).uplinks = s.uplinks := rfl
@[simp] theorem State.setProg_prp (x : Prog) : (s.setProg x).prp = s.prp := rfl
@[simp] theorem State.setProg_taken (x : Prog) : (s.setProg x).taken = s.taken := rfl
@[simp] theorem State.setProg_stored (x : Prog) : (s.setProg x).stored = s.stored := rfl
@[simp] theorem State.setProg_chans (x : Prog) : (s.setProg x).chans = s.chans := rfl
@[simp] theorem State.setProg_traces (x : Prog) : (s.setProg x).traces = s.traces := rfl
@[simp] theorem State.setProg_axes (x : Prog) : (s.setProg x).axes = s.axes := rfl
@[simp] theorem State.setProg_groups (x : Prog) : (s.setProg x).groups = s.groups := rfl
@[simp] theorem State.setProg_pwms (x : Prog) : (s.setProg x).pwms = s.pwms := rfl
@[simp] theorem State.setProg_locals (x : Prog) : (s.setProg x).locals = s.locals := rfl
@[simp] theorem State.setProg_encs (x : Prog) : (s.setProg x).encs = s.encs := rfl
@[simp] theorem State.setProg_caps (x : Prog) : (s.setProg x).caps = s.caps := rfl
@[simp] theorem State.setProg_convs (x : Prog) : (s.setProg x).convs = s.convs := rfl
@[simp] theorem State.setProg_ains (x : Prog) : (s.setProg x).ains = s.ains := rfl
@[simp] theorem State.setProg_trigs (x : Prog) : (s.setProg x).trigs = s.trigs := rfl
@[simp] theorem State.setProg_aouts (x : Prog) : (s.setProg x).aouts = s.aouts := rfl
@[simp] theorem State.setProg_dins (x : Prog) : (s.setProg x).dins = s.dins := rfl
@[simp] theorem State.setProg_douts (x : Prog) : (s.setProg x).douts = s.douts := rfl
@[simp] theorem State.setProg_supplies (x : Prog) : (s.setProg x).supplies = s.supplies := rfl
@[simp] theorem State.setProg_field (x : Prog) : (s.setProg x).field = s.field := rfl
@[simp] theorem State.setProg_rcd (x : Prog) : (s.setProg x).rcd = s.rcd := rfl
@[simp] theorem State.setProg_fifos (x : Prog) : (s.setProg x).fifos = s.fifos := rfl
@[simp] theorem State.setProg_ssds (x : Prog) : (s.setProg x).ssds = s.ssds := rfl
@[simp] theorem State.setProg_tasks (x : Prog) : (s.setProg x).tasks = s.tasks := rfl
@[simp] theorem State.setProg_prog (x : Prog) : (s.setProg x).prog = x := rfl
@[simp] theorem State.setProg_sched (x : Prog) : (s.setProg x).sched = s.sched := rfl
@[simp] theorem State.setProg_ost (x : Prog) : (s.setProg x).ost = s.ost := rfl
@[simp] theorem State.setProg_lay (x : Prog) : (s.setProg x).lay = s.lay := rfl
@[simp] theorem State.setProg_gov (x : Prog) : (s.setProg x).gov = s.gov := rfl
@[simp] theorem State.setProg_health (x : Prog) : (s.setProg x).health = s.health := rfl
@[simp] theorem State.setProg_paddock (x : Prog) : (s.setProg x).paddock = s.paddock := rfl
@[simp] theorem State.setProg_sent (x : Prog) : (s.setProg x).sent = s.sent := rfl
@[simp] theorem State.setProg_freeCtr (x : Prog) : (s.setProg x).freeCtr = s.freeCtr := rfl
@[simp] theorem State.setProg_pending (x : Prog) : (s.setProg x).pending = s.pending := rfl

/-! `State.setSched`. -/
@[simp] theorem State.setSched_regs (x : Sched) : (s.setSched x).regs = s.regs := rfl
@[simp] theorem State.setSched_dict (x : Sched) : (s.setSched x).dict = s.dict := rfl
@[simp] theorem State.setSched_clock (x : Sched) : (s.setSched x).clock = s.clock := rfl
@[simp] theorem State.setSched_tbs (x : Sched) : (s.setSched x).tbs = s.tbs := rfl
@[simp] theorem State.setSched_ports (x : Sched) : (s.setSched x).ports = s.ports := rfl
@[simp] theorem State.setSched_leads (x : Sched) : (s.setSched x).leads = s.leads := rfl
@[simp] theorem State.setSched_actions (x : Sched) : (s.setSched x).actions = s.actions := rfl
@[simp] theorem State.setSched_links (x : Sched) : (s.setSched x).links = s.links := rfl
@[simp] theorem State.setSched_stations (x : Sched) : (s.setSched x).stations = s.stations := rfl
@[simp] theorem State.setSched_rings (x : Sched) : (s.setSched x).rings = s.rings := rfl
@[simp] theorem State.setSched_na (x : Sched) : (s.setSched x).na = s.na := rfl
@[simp] theorem State.setSched_nb (x : Sched) : (s.setSched x).nb = s.nb := rfl
@[simp] theorem State.setSched_rein (x : Sched) : (s.setSched x).rein = s.rein := rfl
@[simp] theorem State.setSched_coast (x : Sched) : (s.setSched x).coast = s.coast := rfl
@[simp] theorem State.setSched_henvy (x : Sched) : (s.setSched x).henvy = s.henvy := rfl
@[simp] theorem State.setSched_uplinks (x : Sched) : (s.setSched x).uplinks = s.uplinks := rfl
@[simp] theorem State.setSched_prp (x : Sched) : (s.setSched x).prp = s.prp := rfl
@[simp] theorem State.setSched_taken (x : Sched) : (s.setSched x).taken = s.taken := rfl
@[simp] theorem State.setSched_stored (x : Sched) : (s.setSched x).stored = s.stored := rfl
@[simp] theorem State.setSched_chans (x : Sched) : (s.setSched x).chans = s.chans := rfl
@[simp] theorem State.setSched_traces (x : Sched) : (s.setSched x).traces = s.traces := rfl
@[simp] theorem State.setSched_axes (x : Sched) : (s.setSched x).axes = s.axes := rfl
@[simp] theorem State.setSched_groups (x : Sched) : (s.setSched x).groups = s.groups := rfl
@[simp] theorem State.setSched_pwms (x : Sched) : (s.setSched x).pwms = s.pwms := rfl
@[simp] theorem State.setSched_locals (x : Sched) : (s.setSched x).locals = s.locals := rfl
@[simp] theorem State.setSched_encs (x : Sched) : (s.setSched x).encs = s.encs := rfl
@[simp] theorem State.setSched_caps (x : Sched) : (s.setSched x).caps = s.caps := rfl
@[simp] theorem State.setSched_convs (x : Sched) : (s.setSched x).convs = s.convs := rfl
@[simp] theorem State.setSched_ains (x : Sched) : (s.setSched x).ains = s.ains := rfl
@[simp] theorem State.setSched_trigs (x : Sched) : (s.setSched x).trigs = s.trigs := rfl
@[simp] theorem State.setSched_aouts (x : Sched) : (s.setSched x).aouts = s.aouts := rfl
@[simp] theorem State.setSched_dins (x : Sched) : (s.setSched x).dins = s.dins := rfl
@[simp] theorem State.setSched_douts (x : Sched) : (s.setSched x).douts = s.douts := rfl
@[simp] theorem State.setSched_supplies (x : Sched) : (s.setSched x).supplies = s.supplies := rfl
@[simp] theorem State.setSched_field (x : Sched) : (s.setSched x).field = s.field := rfl
@[simp] theorem State.setSched_rcd (x : Sched) : (s.setSched x).rcd = s.rcd := rfl
@[simp] theorem State.setSched_fifos (x : Sched) : (s.setSched x).fifos = s.fifos := rfl
@[simp] theorem State.setSched_ssds (x : Sched) : (s.setSched x).ssds = s.ssds := rfl
@[simp] theorem State.setSched_tasks (x : Sched) : (s.setSched x).tasks = s.tasks := rfl
@[simp] theorem State.setSched_prog (x : Sched) : (s.setSched x).prog = s.prog := rfl
@[simp] theorem State.setSched_sched (x : Sched) : (s.setSched x).sched = x := rfl
@[simp] theorem State.setSched_ost (x : Sched) : (s.setSched x).ost = s.ost := rfl
@[simp] theorem State.setSched_lay (x : Sched) : (s.setSched x).lay = s.lay := rfl
@[simp] theorem State.setSched_gov (x : Sched) : (s.setSched x).gov = s.gov := rfl
@[simp] theorem State.setSched_health (x : Sched) : (s.setSched x).health = s.health := rfl
@[simp] theorem State.setSched_paddock (x : Sched) : (s.setSched x).paddock = s.paddock := rfl
@[simp] theorem State.setSched_sent (x : Sched) : (s.setSched x).sent = s.sent := rfl
@[simp] theorem State.setSched_freeCtr (x : Sched) : (s.setSched x).freeCtr = s.freeCtr := rfl
@[simp] theorem State.setSched_pending (x : Sched) : (s.setSched x).pending = s.pending := rfl

/-! `State.setUnit`. -/
@[simp] theorem State.setUnit_regs (u : Nat) (x : UnitRec) : (s.setUnit u x).regs = s.regs := rfl
@[simp] theorem State.setUnit_dict (u : Nat) (x : UnitRec) : (s.setUnit u x).dict = s.dict := rfl
@[simp] theorem State.setUnit_clock (u : Nat) (x : UnitRec) : (s.setUnit u x).clock = s.clock := rfl
@[simp] theorem State.setUnit_tbs (u : Nat) (x : UnitRec) : (s.setUnit u x).tbs = s.tbs := rfl
@[simp] theorem State.setUnit_ports (u : Nat) (x : UnitRec) : (s.setUnit u x).ports = s.ports := rfl
@[simp] theorem State.setUnit_leads (u : Nat) (x : UnitRec) : (s.setUnit u x).leads = s.leads := rfl
@[simp] theorem State.setUnit_actions (u : Nat) (x : UnitRec) : (s.setUnit u x).actions = s.actions := rfl
@[simp] theorem State.setUnit_links (u : Nat) (x : UnitRec) : (s.setUnit u x).links = s.links := rfl
@[simp] theorem State.setUnit_stations (u : Nat) (x : UnitRec) : (s.setUnit u x).stations = s.stations := rfl
@[simp] theorem State.setUnit_rings (u : Nat) (x : UnitRec) : (s.setUnit u x).rings = s.rings := rfl
@[simp] theorem State.setUnit_na (u : Nat) (x : UnitRec) : (s.setUnit u x).na = s.na := rfl
@[simp] theorem State.setUnit_nb (u : Nat) (x : UnitRec) : (s.setUnit u x).nb = s.nb := rfl
@[simp] theorem State.setUnit_rein (u : Nat) (x : UnitRec) : (s.setUnit u x).rein = s.rein := rfl
@[simp] theorem State.setUnit_coast (u : Nat) (x : UnitRec) : (s.setUnit u x).coast = s.coast := rfl
@[simp] theorem State.setUnit_henvy (u : Nat) (x : UnitRec) : (s.setUnit u x).henvy = s.henvy := rfl
@[simp] theorem State.setUnit_uplinks (u : Nat) (x : UnitRec) : (s.setUnit u x).uplinks = s.uplinks := rfl
@[simp] theorem State.setUnit_prp (u : Nat) (x : UnitRec) : (s.setUnit u x).prp = s.prp := rfl
@[simp] theorem State.setUnit_taken (u : Nat) (x : UnitRec) : (s.setUnit u x).taken = s.taken := rfl
@[simp] theorem State.setUnit_stored (u : Nat) (x : UnitRec) : (s.setUnit u x).stored = s.stored := rfl
@[simp] theorem State.setUnit_chans (u : Nat) (x : UnitRec) : (s.setUnit u x).chans = s.chans := rfl
@[simp] theorem State.setUnit_traces (u : Nat) (x : UnitRec) : (s.setUnit u x).traces = s.traces := rfl
@[simp] theorem State.setUnit_axes (u : Nat) (x : UnitRec) : (s.setUnit u x).axes = s.axes := rfl
@[simp] theorem State.setUnit_groups (u : Nat) (x : UnitRec) : (s.setUnit u x).groups = s.groups := rfl
@[simp] theorem State.setUnit_pwms (u : Nat) (x : UnitRec) : (s.setUnit u x).pwms = s.pwms := rfl
@[simp] theorem State.setUnit_locals (u : Nat) (x : UnitRec) : (s.setUnit u x).locals = s.locals := rfl
@[simp] theorem State.setUnit_encs (u : Nat) (x : UnitRec) : (s.setUnit u x).encs = s.encs := rfl
@[simp] theorem State.setUnit_caps (u : Nat) (x : UnitRec) : (s.setUnit u x).caps = s.caps := rfl
@[simp] theorem State.setUnit_convs (u : Nat) (x : UnitRec) : (s.setUnit u x).convs = s.convs := rfl
@[simp] theorem State.setUnit_ains (u : Nat) (x : UnitRec) : (s.setUnit u x).ains = s.ains := rfl
@[simp] theorem State.setUnit_trigs (u : Nat) (x : UnitRec) : (s.setUnit u x).trigs = s.trigs := rfl
@[simp] theorem State.setUnit_aouts (u : Nat) (x : UnitRec) : (s.setUnit u x).aouts = s.aouts := rfl
@[simp] theorem State.setUnit_dins (u : Nat) (x : UnitRec) : (s.setUnit u x).dins = s.dins := rfl
@[simp] theorem State.setUnit_douts (u : Nat) (x : UnitRec) : (s.setUnit u x).douts = s.douts := rfl
@[simp] theorem State.setUnit_supplies (u : Nat) (x : UnitRec) : (s.setUnit u x).supplies = s.supplies := rfl
@[simp] theorem State.setUnit_field (u : Nat) (x : UnitRec) : (s.setUnit u x).field = s.field := rfl
@[simp] theorem State.setUnit_rcd (u : Nat) (x : UnitRec) : (s.setUnit u x).rcd = s.rcd := rfl
@[simp] theorem State.setUnit_fifos (u : Nat) (x : UnitRec) : (s.setUnit u x).fifos = s.fifos := rfl
@[simp] theorem State.setUnit_ssds (u : Nat) (x : UnitRec) : (s.setUnit u x).ssds = s.ssds := rfl
@[simp] theorem State.setUnit_tasks (u : Nat) (x : UnitRec) : (s.setUnit u x).tasks = s.tasks := rfl
@[simp] theorem State.setUnit_prog (u : Nat) (x : UnitRec) : (s.setUnit u x).prog = s.prog := rfl
@[simp] theorem State.setUnit_sched (u : Nat) (x : UnitRec) : (s.setUnit u x).sched = s.sched := rfl
@[simp] theorem State.setUnit_ost (u : Nat) (x : UnitRec) : (s.setUnit u x).ost = { s.ost with units := setAt s.ost.units u x } := rfl
@[simp] theorem State.setUnit_lay (u : Nat) (x : UnitRec) : (s.setUnit u x).lay = s.lay := rfl
@[simp] theorem State.setUnit_gov (u : Nat) (x : UnitRec) : (s.setUnit u x).gov = s.gov := rfl
@[simp] theorem State.setUnit_health (u : Nat) (x : UnitRec) : (s.setUnit u x).health = s.health := rfl
@[simp] theorem State.setUnit_paddock (u : Nat) (x : UnitRec) : (s.setUnit u x).paddock = s.paddock := rfl
@[simp] theorem State.setUnit_sent (u : Nat) (x : UnitRec) : (s.setUnit u x).sent = s.sent := rfl
@[simp] theorem State.setUnit_freeCtr (u : Nat) (x : UnitRec) : (s.setUnit u x).freeCtr = s.freeCtr := rfl
@[simp] theorem State.setUnit_pending (u : Nat) (x : UnitRec) : (s.setUnit u x).pending = s.pending := rfl

/-! `State.setSeq`. -/
@[simp] theorem State.setSeq_regs (k : Nat) (x : Sequencer) : (s.setSeq k x).regs = s.regs := rfl
@[simp] theorem State.setSeq_dict (k : Nat) (x : Sequencer) : (s.setSeq k x).dict = s.dict := rfl
@[simp] theorem State.setSeq_clock (k : Nat) (x : Sequencer) : (s.setSeq k x).clock = s.clock := rfl
@[simp] theorem State.setSeq_tbs (k : Nat) (x : Sequencer) : (s.setSeq k x).tbs = s.tbs := rfl
@[simp] theorem State.setSeq_ports (k : Nat) (x : Sequencer) : (s.setSeq k x).ports = s.ports := rfl
@[simp] theorem State.setSeq_leads (k : Nat) (x : Sequencer) : (s.setSeq k x).leads = s.leads := rfl
@[simp] theorem State.setSeq_actions (k : Nat) (x : Sequencer) : (s.setSeq k x).actions = s.actions := rfl
@[simp] theorem State.setSeq_links (k : Nat) (x : Sequencer) : (s.setSeq k x).links = s.links := rfl
@[simp] theorem State.setSeq_stations (k : Nat) (x : Sequencer) : (s.setSeq k x).stations = s.stations := rfl
@[simp] theorem State.setSeq_rings (k : Nat) (x : Sequencer) : (s.setSeq k x).rings = s.rings := rfl
@[simp] theorem State.setSeq_na (k : Nat) (x : Sequencer) : (s.setSeq k x).na = s.na := rfl
@[simp] theorem State.setSeq_nb (k : Nat) (x : Sequencer) : (s.setSeq k x).nb = s.nb := rfl
@[simp] theorem State.setSeq_rein (k : Nat) (x : Sequencer) : (s.setSeq k x).rein = s.rein := rfl
@[simp] theorem State.setSeq_coast (k : Nat) (x : Sequencer) : (s.setSeq k x).coast = s.coast := rfl
@[simp] theorem State.setSeq_henvy (k : Nat) (x : Sequencer) : (s.setSeq k x).henvy = s.henvy := rfl
@[simp] theorem State.setSeq_uplinks (k : Nat) (x : Sequencer) : (s.setSeq k x).uplinks = s.uplinks := rfl
@[simp] theorem State.setSeq_prp (k : Nat) (x : Sequencer) : (s.setSeq k x).prp = s.prp := rfl
@[simp] theorem State.setSeq_taken (k : Nat) (x : Sequencer) : (s.setSeq k x).taken = s.taken := rfl
@[simp] theorem State.setSeq_stored (k : Nat) (x : Sequencer) : (s.setSeq k x).stored = s.stored := rfl
@[simp] theorem State.setSeq_chans (k : Nat) (x : Sequencer) : (s.setSeq k x).chans = s.chans := rfl
@[simp] theorem State.setSeq_traces (k : Nat) (x : Sequencer) : (s.setSeq k x).traces = s.traces := rfl
@[simp] theorem State.setSeq_axes (k : Nat) (x : Sequencer) : (s.setSeq k x).axes = s.axes := rfl
@[simp] theorem State.setSeq_groups (k : Nat) (x : Sequencer) : (s.setSeq k x).groups = s.groups := rfl
@[simp] theorem State.setSeq_pwms (k : Nat) (x : Sequencer) : (s.setSeq k x).pwms = s.pwms := rfl
@[simp] theorem State.setSeq_locals (k : Nat) (x : Sequencer) : (s.setSeq k x).locals = s.locals := rfl
@[simp] theorem State.setSeq_encs (k : Nat) (x : Sequencer) : (s.setSeq k x).encs = s.encs := rfl
@[simp] theorem State.setSeq_caps (k : Nat) (x : Sequencer) : (s.setSeq k x).caps = s.caps := rfl
@[simp] theorem State.setSeq_convs (k : Nat) (x : Sequencer) : (s.setSeq k x).convs = s.convs := rfl
@[simp] theorem State.setSeq_ains (k : Nat) (x : Sequencer) : (s.setSeq k x).ains = s.ains := rfl
@[simp] theorem State.setSeq_trigs (k : Nat) (x : Sequencer) : (s.setSeq k x).trigs = s.trigs := rfl
@[simp] theorem State.setSeq_aouts (k : Nat) (x : Sequencer) : (s.setSeq k x).aouts = s.aouts := rfl
@[simp] theorem State.setSeq_dins (k : Nat) (x : Sequencer) : (s.setSeq k x).dins = s.dins := rfl
@[simp] theorem State.setSeq_douts (k : Nat) (x : Sequencer) : (s.setSeq k x).douts = s.douts := rfl
@[simp] theorem State.setSeq_supplies (k : Nat) (x : Sequencer) : (s.setSeq k x).supplies = s.supplies := rfl
@[simp] theorem State.setSeq_field (k : Nat) (x : Sequencer) : (s.setSeq k x).field = s.field := rfl
@[simp] theorem State.setSeq_rcd (k : Nat) (x : Sequencer) : (s.setSeq k x).rcd = s.rcd := rfl
@[simp] theorem State.setSeq_fifos (k : Nat) (x : Sequencer) : (s.setSeq k x).fifos = s.fifos := rfl
@[simp] theorem State.setSeq_ssds (k : Nat) (x : Sequencer) : (s.setSeq k x).ssds = s.ssds := rfl
@[simp] theorem State.setSeq_tasks (k : Nat) (x : Sequencer) : (s.setSeq k x).tasks = s.tasks := rfl
@[simp] theorem State.setSeq_prog (k : Nat) (x : Sequencer) : (s.setSeq k x).prog = s.prog := rfl
@[simp] theorem State.setSeq_sched (k : Nat) (x : Sequencer) : (s.setSeq k x).sched = s.sched := rfl
@[simp] theorem State.setSeq_ost (k : Nat) (x : Sequencer) : (s.setSeq k x).ost = s.ost := rfl
@[simp] theorem State.setSeq_lay (k : Nat) (x : Sequencer) : (s.setSeq k x).lay = { s.lay with seqs := setAt s.lay.seqs k x } := rfl
@[simp] theorem State.setSeq_gov (k : Nat) (x : Sequencer) : (s.setSeq k x).gov = s.gov := rfl
@[simp] theorem State.setSeq_health (k : Nat) (x : Sequencer) : (s.setSeq k x).health = s.health := rfl
@[simp] theorem State.setSeq_paddock (k : Nat) (x : Sequencer) : (s.setSeq k x).paddock = s.paddock := rfl
@[simp] theorem State.setSeq_sent (k : Nat) (x : Sequencer) : (s.setSeq k x).sent = s.sent := rfl
@[simp] theorem State.setSeq_freeCtr (k : Nat) (x : Sequencer) : (s.setSeq k x).freeCtr = s.freeCtr := rfl
@[simp] theorem State.setSeq_pending (k : Nat) (x : Sequencer) : (s.setSeq k x).pending = s.pending := rfl

/-! `State.setHealth`. -/
@[simp] theorem State.setHealth_regs (x : Health) : (s.setHealth x).regs = s.regs := rfl
@[simp] theorem State.setHealth_dict (x : Health) : (s.setHealth x).dict = s.dict := rfl
@[simp] theorem State.setHealth_clock (x : Health) : (s.setHealth x).clock = s.clock := rfl
@[simp] theorem State.setHealth_tbs (x : Health) : (s.setHealth x).tbs = s.tbs := rfl
@[simp] theorem State.setHealth_ports (x : Health) : (s.setHealth x).ports = s.ports := rfl
@[simp] theorem State.setHealth_leads (x : Health) : (s.setHealth x).leads = s.leads := rfl
@[simp] theorem State.setHealth_actions (x : Health) : (s.setHealth x).actions = s.actions := rfl
@[simp] theorem State.setHealth_links (x : Health) : (s.setHealth x).links = s.links := rfl
@[simp] theorem State.setHealth_stations (x : Health) : (s.setHealth x).stations = s.stations := rfl
@[simp] theorem State.setHealth_rings (x : Health) : (s.setHealth x).rings = s.rings := rfl
@[simp] theorem State.setHealth_na (x : Health) : (s.setHealth x).na = s.na := rfl
@[simp] theorem State.setHealth_nb (x : Health) : (s.setHealth x).nb = s.nb := rfl
@[simp] theorem State.setHealth_rein (x : Health) : (s.setHealth x).rein = s.rein := rfl
@[simp] theorem State.setHealth_coast (x : Health) : (s.setHealth x).coast = s.coast := rfl
@[simp] theorem State.setHealth_henvy (x : Health) : (s.setHealth x).henvy = s.henvy := rfl
@[simp] theorem State.setHealth_uplinks (x : Health) : (s.setHealth x).uplinks = s.uplinks := rfl
@[simp] theorem State.setHealth_prp (x : Health) : (s.setHealth x).prp = s.prp := rfl
@[simp] theorem State.setHealth_taken (x : Health) : (s.setHealth x).taken = s.taken := rfl
@[simp] theorem State.setHealth_stored (x : Health) : (s.setHealth x).stored = s.stored := rfl
@[simp] theorem State.setHealth_chans (x : Health) : (s.setHealth x).chans = s.chans := rfl
@[simp] theorem State.setHealth_traces (x : Health) : (s.setHealth x).traces = s.traces := rfl
@[simp] theorem State.setHealth_axes (x : Health) : (s.setHealth x).axes = s.axes := rfl
@[simp] theorem State.setHealth_groups (x : Health) : (s.setHealth x).groups = s.groups := rfl
@[simp] theorem State.setHealth_pwms (x : Health) : (s.setHealth x).pwms = s.pwms := rfl
@[simp] theorem State.setHealth_locals (x : Health) : (s.setHealth x).locals = s.locals := rfl
@[simp] theorem State.setHealth_encs (x : Health) : (s.setHealth x).encs = s.encs := rfl
@[simp] theorem State.setHealth_caps (x : Health) : (s.setHealth x).caps = s.caps := rfl
@[simp] theorem State.setHealth_convs (x : Health) : (s.setHealth x).convs = s.convs := rfl
@[simp] theorem State.setHealth_ains (x : Health) : (s.setHealth x).ains = s.ains := rfl
@[simp] theorem State.setHealth_trigs (x : Health) : (s.setHealth x).trigs = s.trigs := rfl
@[simp] theorem State.setHealth_aouts (x : Health) : (s.setHealth x).aouts = s.aouts := rfl
@[simp] theorem State.setHealth_dins (x : Health) : (s.setHealth x).dins = s.dins := rfl
@[simp] theorem State.setHealth_douts (x : Health) : (s.setHealth x).douts = s.douts := rfl
@[simp] theorem State.setHealth_supplies (x : Health) : (s.setHealth x).supplies = s.supplies := rfl
@[simp] theorem State.setHealth_field (x : Health) : (s.setHealth x).field = s.field := rfl
@[simp] theorem State.setHealth_rcd (x : Health) : (s.setHealth x).rcd = s.rcd := rfl
@[simp] theorem State.setHealth_fifos (x : Health) : (s.setHealth x).fifos = s.fifos := rfl
@[simp] theorem State.setHealth_ssds (x : Health) : (s.setHealth x).ssds = s.ssds := rfl
@[simp] theorem State.setHealth_tasks (x : Health) : (s.setHealth x).tasks = s.tasks := rfl
@[simp] theorem State.setHealth_prog (x : Health) : (s.setHealth x).prog = s.prog := rfl
@[simp] theorem State.setHealth_sched (x : Health) : (s.setHealth x).sched = s.sched := rfl
@[simp] theorem State.setHealth_ost (x : Health) : (s.setHealth x).ost = s.ost := rfl
@[simp] theorem State.setHealth_lay (x : Health) : (s.setHealth x).lay = s.lay := rfl
@[simp] theorem State.setHealth_gov (x : Health) : (s.setHealth x).gov = s.gov := rfl
@[simp] theorem State.setHealth_health (x : Health) : (s.setHealth x).health = x := rfl
@[simp] theorem State.setHealth_paddock (x : Health) : (s.setHealth x).paddock = s.paddock := rfl
@[simp] theorem State.setHealth_sent (x : Health) : (s.setHealth x).sent = s.sent := rfl
@[simp] theorem State.setHealth_freeCtr (x : Health) : (s.setHealth x).freeCtr = s.freeCtr := rfl
@[simp] theorem State.setHealth_pending (x : Health) : (s.setHealth x).pending = s.pending := rfl

@[simp] theorem State.reg_setReg (i j : Nat) (v : Val) : (s.setReg i j v).reg i j = v := getAt_setAt_self _ _ _ _
theorem State.reg_setReg_ne (i j i' j' : Nat) (v : Val) (h : regKey i' j' ≠ regKey i j) :
    (s.setReg i j v).reg i' j' = s.reg i' j' := by
  simp only [State.reg, State.setReg, getAt_setAt_ne _ _ _ _ _ h]
@[simp] theorem State.rn_setNum (i j n : Nat) : (s.setNum i j n).rn i j = n := by
  simp [State.rn, State.setNum, Val.toNat]
theorem State.rn_setNum_ne (i j n i' j' : Nat) (h : regKey i' j' ≠ regKey i j) : (s.setNum i j n).rn i' j' = s.rn i' j' := by
  simp only [State.rn, State.setNum, State.reg_setReg_ne _ _ _ _ _ _ h]

end Sys2Proof.Machine
end

