-- ==== Sys2Proof/Laws/Settle.lean ====
section
/-! SUPPORT. What surrounds a command: `run`, `settle`, the guards, and `step`. -/

namespace Sys2Proof.Machine

variable (old s r : State) (q : List Instr)

@[simp] theorem State.adopt_clock : (s.adopt r q).clock = s.clock := rfl
@[simp] theorem settle_clock : (settle old s).clock = s.clock := State.adopt_clock _ _ _
@[simp] theorem State.adopt_tbs : (s.adopt r q).tbs = s.tbs := rfl
@[simp] theorem settle_tbs : (settle old s).tbs = s.tbs := State.adopt_tbs _ _ _
@[simp] theorem State.adopt_ports : (s.adopt r q).ports = s.ports := rfl
@[simp] theorem settle_ports : (settle old s).ports = s.ports := State.adopt_ports _ _ _
@[simp] theorem State.adopt_leads : (s.adopt r q).leads = s.leads := rfl
@[simp] theorem settle_leads : (settle old s).leads = s.leads := State.adopt_leads _ _ _
@[simp] theorem State.adopt_links : (s.adopt r q).links = s.links := rfl
@[simp] theorem settle_links : (settle old s).links = s.links := State.adopt_links _ _ _
@[simp] theorem State.adopt_stations : (s.adopt r q).stations = s.stations := rfl
@[simp] theorem settle_stations : (settle old s).stations = s.stations := State.adopt_stations _ _ _
@[simp] theorem State.adopt_rings : (s.adopt r q).rings = s.rings := rfl
@[simp] theorem settle_rings : (settle old s).rings = s.rings := State.adopt_rings _ _ _
@[simp] theorem State.adopt_taken : (s.adopt r q).taken = s.taken := rfl
@[simp] theorem settle_taken : (settle old s).taken = s.taken := State.adopt_taken _ _ _
@[simp] theorem State.adopt_stored : (s.adopt r q).stored = s.stored := rfl
@[simp] theorem settle_stored : (settle old s).stored = s.stored := State.adopt_stored _ _ _
@[simp] theorem State.adopt_chans : (s.adopt r q).chans = s.chans := rfl
@[simp] theorem settle_chans : (settle old s).chans = s.chans := State.adopt_chans _ _ _
@[simp] theorem State.adopt_axes : (s.adopt r q).axes = s.axes := rfl
@[simp] theorem settle_axes : (settle old s).axes = s.axes := State.adopt_axes _ _ _
@[simp] theorem State.adopt_groups : (s.adopt r q).groups = s.groups := rfl
@[simp] theorem settle_groups : (settle old s).groups = s.groups := State.adopt_groups _ _ _
@[simp] theorem State.adopt_pwms : (s.adopt r q).pwms = s.pwms := rfl
@[simp] theorem settle_pwms : (settle old s).pwms = s.pwms := State.adopt_pwms _ _ _
@[simp] theorem State.adopt_locals : (s.adopt r q).locals = s.locals := rfl
@[simp] theorem settle_locals : (settle old s).locals = s.locals := State.adopt_locals _ _ _
@[simp] theorem State.adopt_encs : (s.adopt r q).encs = s.encs := rfl
@[simp] theorem settle_encs : (settle old s).encs = s.encs := State.adopt_encs _ _ _
@[simp] theorem State.adopt_caps : (s.adopt r q).caps = s.caps := rfl
@[simp] theorem settle_caps : (settle old s).caps = s.caps := State.adopt_caps _ _ _
@[simp] theorem State.adopt_convs : (s.adopt r q).convs = s.convs := rfl
@[simp] theorem settle_convs : (settle old s).convs = s.convs := State.adopt_convs _ _ _
@[simp] theorem State.adopt_ains : (s.adopt r q).ains = s.ains := rfl
@[simp] theorem settle_ains : (settle old s).ains = s.ains := State.adopt_ains _ _ _
@[simp] theorem State.adopt_trigs : (s.adopt r q).trigs = s.trigs := rfl
@[simp] theorem settle_trigs : (settle old s).trigs = s.trigs := State.adopt_trigs _ _ _
@[simp] theorem State.adopt_aouts : (s.adopt r q).aouts = s.aouts := rfl
@[simp] theorem settle_aouts : (settle old s).aouts = s.aouts := State.adopt_aouts _ _ _
@[simp] theorem State.adopt_dins : (s.adopt r q).dins = s.dins := rfl
@[simp] theorem settle_dins : (settle old s).dins = s.dins := State.adopt_dins _ _ _
@[simp] theorem State.adopt_douts : (s.adopt r q).douts = s.douts := rfl
@[simp] theorem settle_douts : (settle old s).douts = s.douts := State.adopt_douts _ _ _
@[simp] theorem State.adopt_supplies : (s.adopt r q).supplies = s.supplies := rfl
@[simp] theorem settle_supplies : (settle old s).supplies = s.supplies := State.adopt_supplies _ _ _
@[simp] theorem State.adopt_field : (s.adopt r q).field = s.field := rfl
@[simp] theorem settle_field : (settle old s).field = s.field := State.adopt_field _ _ _
@[simp] theorem State.adopt_fifos : (s.adopt r q).fifos = s.fifos := rfl
@[simp] theorem settle_fifos : (settle old s).fifos = s.fifos := State.adopt_fifos _ _ _
@[simp] theorem State.adopt_ssds : (s.adopt r q).ssds = s.ssds := rfl
@[simp] theorem settle_ssds : (settle old s).ssds = s.ssds := State.adopt_ssds _ _ _
@[simp] theorem State.adopt_gov : (s.adopt r q).gov = s.gov := rfl
@[simp] theorem settle_gov : (settle old s).gov = s.gov := State.adopt_gov _ _ _
@[simp] theorem State.adopt_health : (s.adopt r q).health = s.health := rfl
@[simp] theorem settle_health : (settle old s).health = s.health := State.adopt_health _ _ _
@[simp] theorem State.adopt_paddock : (s.adopt r q).paddock = s.paddock := rfl
@[simp] theorem settle_paddock : (settle old s).paddock = s.paddock := State.adopt_paddock _ _ _
@[simp] theorem State.adopt_pending : (s.adopt r q).pending = q := rfl
@[simp] theorem settle_pending : (settle old s).pending = old.pending := State.adopt_pending _ _ _
@[simp] theorem State.adopt_pins : (s.adopt r q).rein.pins = s.rein.pins := rfl
@[simp] theorem settle_pins : (settle old s).rein.pins = s.rein.pins := State.adopt_pins _ _ _
@[simp] theorem State.adopt_coast_active : (s.adopt r q).coast.active = s.coast.active := rfl
@[simp] theorem settle_coast_active : (settle old s).coast.active = s.coast.active := State.adopt_coast_active _ _ _
@[simp] theorem State.adopt_coast_recs : (s.adopt r q).coast.recs = s.coast.recs := rfl
@[simp] theorem settle_coast_recs : (settle old s).coast.recs = s.coast.recs := State.adopt_coast_recs _ _ _
@[simp] theorem State.adopt_na_st : (s.adopt r q).na.st = s.na.st := rfl
@[simp] theorem settle_na_st : (settle old s).na.st = s.na.st := State.adopt_na_st _ _ _
@[simp] theorem State.adopt_nb_st : (s.adopt r q).nb.st = s.nb.st := rfl
@[simp] theorem settle_nb_st : (settle old s).nb.st = s.nb.st := State.adopt_nb_st _ _ _

@[simp] theorem State.adopt_henvy : (s.adopt r q).henvy = { s.henvy with stopSeq := r.henvy.stopSeq } := rfl
@[simp] theorem State.adopt_prp : (s.adopt r q).prp = { s.prp with seq := r.prp.seq } := rfl
@[simp] theorem State.adopt_uplinks : (s.adopt r q).uplinks = r.uplinks := rfl
@[simp] theorem State.adopt_sched : (s.adopt r q).sched = r.sched := rfl

/-- A command answers the settled state of its effect. -/
theorem run_eq (f : State → State) : run f s = .next (settle s (f s)) := rfl

theorem whenOn_on (f : State → State) (h : s.on = true) : whenOn f s = f s := by simp [whenOn, h]
theorem whenCx_on (f : State → State) (h : s.on = true) (hc : s.cxUp = true) : whenCx f s = f s := by simp [whenCx, h, hc]
theorem whenAx_on (f : State → State) (h : s.on = true) (hc : s.axUp = true) : whenAx f s = f s := by simp [whenAx, h, hc]
theorem whenServes_on (k : Nat) (f : State → State) (h : s.on = true) (hc : s.cxUp = true) (hk : s.serves k = true) :
    whenServes k f s = f s := by simp [whenServes, h, hc, hk]

theorem step_nil (h : s.pending = []) : step s = .next s := by simp [step, h]
theorem step_cons (c : Instr) (rest : List Instr) (h : s.pending = c :: rest) : step s = exec c { s with pending := rest } := by
  simp [step, h]

/-- A request of a live client within its limit reaches the dictionary server. -/
theorem request_served (c : ClientId) (op txn index sub count : Nat) (f : State → State) (h : served s c) :
    request s c op txn index sub count none f = f (asked s c) := by
  simp [request, h.1, h.2.1, h.2.2]

/-- A write that nothing refuses has its effect. -/
theorem serveWrite_accepted (w : WriteCtx) (index sub : Nat) (data : List Byte) (h : served s w.client)
    (ha : accepted s w index sub data) :
    serveWrite s w index sub data = acceptWrite (asked s w.client) 0x02 w.client w.txn.toNat w.apply [⟨index, sub, .oct data⟩] := by
  unfold serveWrite
  rw [request_served s _ _ _ _ _ _ _ h]
  simp only [writeElems]
  unfold accepted refusalOf at ha
  rw [ha]

/-- A write that a cause of R65 refuses changes nothing but what the refusal leaves behind. -/
theorem serveWrite_refused (w : WriteCtx) (index sub : Nat) (data : List Byte) (r : Nat × Elem) (h : served s w.client)
    (ha : refusalOf s w index sub data = some r) :
    serveWrite s w index sub data =
      respond (noteWriteRefusal (asked s w.client) r.1 r.2) w.client 0x02 w.txn.toNat r.2.index r.2.sub 1 r.1 [] := by
  unfold serveWrite
  rw [request_served s _ _ _ _ _ _ _ h]
  simp only [writeElems]
  unfold refusalOf at ha
  rw [ha]
  rfl

end Sys2Proof.Machine
end

