-- ==== Sys2Proof/Tests/Slice0.lean ====
section
/-! SUPPORT. The author's own tests: ill-formed commands that WellFormed refuses, values worked out in the spec's own examples, and one
witness for the hypotheses of each statement that has any. -/

section Tests

open Sys2Proof Sys2Proof.Machine

set_option Elab.async false

/-- A module in service with no Rein bit set, an ENGINEER's session on UP0, and the registers named. -/
def serving (l : List (Nat × Nat × Nat)) : State :=
  let s := { State.reset with
    rein := ⟨0, 0, false⟩, health := { State.reset.health with running := true },
    dict := { State.reset.dict with
      sessions := [(0, some ⟨0, .engineer, 0⟩)], ready := (List.range 14).map fun k => (k, ⟨2, 0, 0⟩) } }
  l.foldl (fun s p => s.setNum p.1 p.2.1 p.2.2) s

/-- The engineer's direct write. -/
def eng : WriteCtx := ⟨.session 0, 1, none⟩

/-- Whether a write of one entry is served and accepted, as a Bool. -/
def acceptedB (s : State) (index sub : Nat) (data : List Byte) : Bool :=
  clientLive s eng.client && s.cxUp && !atLimit (asked s eng.client) eng.client && (refusalOf s eng index sub data).isNone

/-- The engineer's write of one entry is served and accepted. -/
def Takes (s : State) (index sub : Nat) (data : List Byte) : Prop := served s eng.client ∧ accepted s eng index sub data

theorem takes_of (s : State) (index sub : Nat) (data : List Byte) (h : acceptedB s index sub data = true) : Takes s index sub data := by
  simp only [acceptedB, Bool.and_eq_true, Bool.not_eq_true', Option.isNone_iff_eq_none] at h
  exact ⟨⟨h.1.1.1, h.1.1.2, h.1.2⟩, h.2⟩

/-- A state some hours of wall time later. -/
def later (s : State) : State := { s with clock := { s.clock with timClk := 2 ^ 50 } }

/-- A state in a later base tick. -/
def atTick (n : Nat) (s : State) : State := { s with clock := { s.clock with tick := n } }

/-- A state with engine NA, or NB, ACTIVE. -/
def naOn (s : State) : State := { s with na := { s.na with st := 1 } }
def nbOn (s : State) : State := { s with nb := { s.nb with st := 1 } }

/-! WellFormed: an ill-formed term for each check, which the check refuses, and well-formed ones. -/

/-- A slot of station 512, the first of ring 1. -/
def foreignSlot : SlotAnswer := ⟨512, 0, 0, 0, [], []⟩

/-- A returning CYCLIC frame with slots, for a list of stations. -/
def frameOf (stations : List (Fin 2048)) (slots : List SlotAnswer) : FrameIn :=
  ⟨64, 0x88B5, 0, .cyclic, 0, .na, true, 0, stations, 0, none, slots⟩

theorem test_wf_frame_slot : (Instr.returningFrameCheck .na 0 (frameOf [] [foreignSlot])).wf = false := by decide
theorem test_wf_frame_station : (Instr.returningFrameCheck .na 0 (frameOf [512] [])).wf = false := by decide
theorem test_wf_train : (Instr.trainInputsReceived 0 [] [foreignSlot] false).wf = false := by decide
theorem test_wf_discover : (Instr.discoverReturn .na 0 512 [none] 0).wf = false := by decide
theorem test_wf_configure : (Instr.configureReturn .na 0 [(512, 0)]).wf = false := by decide
theorem test_wf_delay : (Instr.delayMeasurement 0 0 (List.replicate 513 none)).wf = false := by decide +kernel
theorem test_wf_break : (Instr.ringBreak .na 0 513).wf = false := by decide
theorem test_wf_member_count : (Instr.henvyMember ⟨⟨0, 0, 0⟩, 0, 0, [0, 1, 2, 3, 4, 5, 6, 7, 8], false, false⟩).wf = false := by decide
theorem test_wf_member_domain : (Instr.henvyMember ⟨⟨0, 0, 0⟩, 0, 0, [128], false, false⟩).wf = false := by decide
theorem test_wf_group_abs : (Instr.groupMoveAbs eng 0 (List.replicate 17 0)).wf = false := by decide
theorem test_wf_group_rel : (Instr.groupMoveRel eng 0 (List.replicate 17 0)).wf = false := by decide
theorem test_wf_encoder_edge : (Instr.encoderEdge 0 true true 10000).wf = false := by decide
theorem test_wf_encoder_index : (Instr.encoderIndex 0 10000).wf = false := by decide
theorem test_wf_capture : (Instr.captureEvent 0 true 10000).wf = false := by decide
theorem test_wf_lead_positions : (Instr.taskLeadPositionsWrite eng 0 (List.replicate 17 0)).wf = false := by decide
theorem test_wf_migration_axis : (Instr.migrationStart 1 2048 0).wf = false := by decide
theorem test_wf_migration_task : (Instr.migrationCopyComplete 2 64).wf = false := by decide
theorem test_wf_migration_compare : (Instr.migrationCompare 1 2048 true).wf = false := by decide
theorem test_wf_migration_switch : (Instr.migrationSwitch 2 64).wf = false := by decide
theorem test_wf_trigger : (Instr.conversionTrigger 0 500).wf = false := by decide
theorem test_wf_conversion : (Instr.conversionStart 0 501).wf = false := by decide
theorem test_wf_cluster_error : (Instr.clusterMemoryError ⟨false, 2⟩ 64).wf = false := by decide
theorem test_wf_accepts : (Instr.baseTickBoundary).wf = true ∧ (Instr.ringBreak .nb 3 512).wf = true ∧
    (Instr.migrationStart 0 4095 103).wf = true ∧ (Instr.encoderEdge 15 true false 9999).wf = true := by decide

/-! Values that the spec works out. -/

/-- A state that a command answers; the reset state where it answers none. -/
def after (i : Instr) (s : State) : State :=
  match exec i s with
  | .next t => t
  | _ => State.reset

/-- Worked example of chapter 2: the identity word of the AX die, ACTIVE. -/
theorem test_read_identity :
    (after (.dazRead (.session 0) ⟨0, 0x31, 0x1010, 4, 1, 0, 0, 0, []⟩)
      (let s := serving []; { s with dict := { s.dict with die := [(4, 2)] } })).sent =
      [.response (.session 0) 1 0x31 0x1010 4 1 0 [0x00, 0x00, 0x00, 0x42]] := by decide +kernel

/-- The same example: a channel entry before its function is READY answers NOT_READY (0x0109). -/
theorem test_read_not_ready :
    (after (.dazRead (.session 0) ⟨0, 0x32, 0x412C, 1, 1, 0, 0, 0, []⟩)
      (let s := serving []; { s with dict := { s.dict with ready := [(0, ⟨2, 0, 0⟩), (3, ⟨1, 4, 0⟩)] } })).sent =
      [.response (.session 0) 1 0x32 0x412C 1 1 0x0109 []] := by decide +kernel

/-- Worked example of chapter 3: DO4 closes 917 ns into tick j+1. -/
theorem test_lead_crossing_offset :
    (let l := ({ Lead.init with pos := (1204 * 2 ^ 32 + 0xEC4DA000) * 2 ^ 32, vel := 95 * 2 ^ 64 / (39 * 160000) } : Lead)
     crossLead (l.ahead 1) (l.ahead 2) 0 false (1204 * 2 ^ 32 + 0xEC4EC4EC) false) = .fire 917 false := by decide +kernel

/-- The same example: the new close position is past due, and NEXT_LAP arms it at 1,205 laps. -/
theorem test_next_lap :
    (let s := serving []
     let t := s.setLead 1 { s.lead 1 with pos := (1204 * 2 ^ 32 + 0xEC4EB000) * 2 ^ 32, vel := 95 * 2 ^ 64 / (39 * 160000), st := 1 }
     let x := 1204 * 2 ^ 32 + 0xEC4EC4EC
     (pastDue t (.lead 1 x) false, moveLaps x (lapsToMove t 1 x false) false)) = (true, 1205 * 2 ^ 32 + 0xEC4EC4EC) := by
  decide +kernel

/-- Channel 410 of the worked example of chapter 6: one PI section with INTEG, gain 2.0, upper limit 2.5, HOLD, k_out = 13. -/
def tensionTrim : State :=
  let s := serving [(0x419A, 4, 20), (0x419A, 6, 1), (0x419A, 0x0B, 0x60000003), (0x419A, 0x0C, 13), (0x419A, 0x12, 1), (0x419A, 0x46, 1)]
  { s with taken := [(0x30, .oct [0x00, 0x80, 0x42, 0x00, 0x80, 0xC2, 0, 0, 0, 0x00, 0x00, 0x80, 0, 0, 0, 0]),
      (0x0F, .num 0x0240000000), (0x10, .num 0x0250000000)].foldl (fun m p => setAt m (regKey 0x419A p.1) p.2) s.taken }

/-- The sample of that example: x = 0.75 and s1 = 1.0. -/
def trimSample : State :=
  evaluate tensionTrim 410 { Chan.init with st := 1, secs := [(0, ⟨0x40000000, 0, 1⟩)] } ⟨none, false, false, false, none, none⟩ ⟨0x60000000, 0⟩

theorem test_channel_sample :
    (let c := trimSample.chan 410
     (c.u, c.y, c.limHi, c.frozen, c.toCome.map (fun r => r.2.2), getAt SecState.init c.secs 0)) =
      (⟨0x58F00000, 2⟩, ⟨0x50000000, 2⟩, true, true, some 20480, ⟨0x40000000, 0, 1⟩) := by decide +kernel

theorem test_channel_status : peek trimSample 0x419A 2 = [0x00, 0x00, 0x00, 0x1A] := by decide +kernel

/-- Worked example of chapter 12: the fourth short of DO9 locks it; the other outputs stay. -/
theorem test_output_locks :
    (let s := serving [(0x7309, 7, 3)]
     let t := after (.outputFault 9 .short) (later (s.setDout 9 { s.dout 9 with st := 1, consec := 3, commanded := true }))
     (peek t 0x7309 8, t.dout 8)) = ([0x00, 0x04, 0x40, 0x38], DigOut.init) := by decide +kernel

/-- Worked example of chapter 11: at 500 ns converter 4 aborts the scan, puts it first in the queue as RESTARTED, and holds AIN12. -/
theorem test_urgent_conversion :
    (let s := serving []
     let scan : Req := ⟨20, 1, 24, false, false, 0⟩
     let t := seqRun (s.setConv 4 { s.conv 4 with normal := [scan], urgent := some ⟨2, 0, 40, true, false, 0⟩ }) 4 40
     let c := t.conv 4
     (c.running.map (fun r => (r.trig, r.start)), c.normal.map (fun r => (r.trig, r.restarted)))) = (some (2, 40), [(20, true)]) := by
  decide +kernel

/-! Witnesses: states that meet the hypotheses of the statements. -/

/-- Work that is due at base tick 0. -/
def dueOf (w : Work) : Due := ⟨⟨0, .nextBoundary, false, 0, false, w, 0, 0, 0⟩, 0, 0⟩

/-- A read of OD 2000:03. -/
def readMsg (data : List Byte) : DazMsg := ⟨0, 1, 0x2000, 3, 1, BitVec.ofNat 32 data.length, 0, 0, data⟩

theorem witness_StepTakesFrontCommand :
    (let s : State := { State.reset with pending := [.powerOn, .baseTickBoundary] }; s.pending = .powerOn :: [.baseTickBoundary]) := rfl

theorem witness_EmptyQueueIdles : State.reset.pending = [] := rfl

theorem witness_StepTakesOneCommand : step State.reset = .next State.reset := rfl

/-- The bounds may meet: NA reaches one position, NB the other of two. -/
theorem witness_HobbleBoundsKept :
    (let s := serving [(0x3010, 2, 2)]
     let t := { s with na := { s.na with held := [(0, 1)] }, nb := { s.nb with held := [(0, 1)] } }
     boundsApart t ∧ (t.na.held = [(0, 1)] ∧ step t = .next t)) := ⟨by decide +kernel, rfl, rfl⟩

theorem witness_LeadCrossingFiresOnce : (0 : Nat) < 2 ^ 64 ∧ 2 ^ 64 - 1 < 2 ^ 64 ∧ (∀ d ∈ [1, 2 ^ 63 - 2], 0 < d) ∧
      [1, 2 ^ 63 - 2].sum < 2 ^ 63 := by
  decide

/-- A Lead at a velocity of lu per base tick. -/
def leadAt (n pos : Nat) (vel : Int) : State :=
  (serving []).setLead n { (serving []).lead n with pos := pos * 2 ^ 32, vel := vel * 2 ^ 32, st := 1 }

theorem witness_PastDueTest :
    0 < ((leadAt 0 100 5).lead 0).vel ∧ ((leadAt 0 100 0).lead 0).vel ≤ 0 ∧ ((leadAt 0 100 (-5)).lead 0).vel < 0 ∧
      0 ≤ ((leadAt 0 100 0).lead 0).vel ∧ pastDue (leadAt 0 100 5) (.lead 0 110) false = false ∧
      actionAbort (leadAt 0 100 5) (.lead 0 110) false 0 false = abOk ∧
      pastDue (leadAt 0 100 5) (.lead 0 109) false = true := by decide +kernel

theorem witness_NextLapIsTheFirstLap :
    109 < 2 ^ 64 ∧ pastDue (leadAt 0 100 5) (.lead 0 109) false = true ∧ pastDue (leadAt 0 100 (-5)) (.lead 0 91) true = true := by
  decide +kernel

theorem witness_PastDueHandling :
    (let s := leadAt 0 100 5
     pastDue s (.lead 0 109) false = true ∧ actionAbort s (.lead 0 109) false 0 false = abOk ∧
       actionAbort s (.lead 0 109) false 2 false = abOk ∧ s.rn 0x2050 3 + 1 < 2 ^ 32 ∧ s.rn 0x2050 6 + 1 < 2 ^ 32 ∧
       s.rn 0x2050 7 + 1 < 2 ^ 32 ∧ s.actions.armed.length < 4096) := by decide +kernel

theorem witness_TimeBaseStepHandlesPassedActions :
    (let s := serving []; ((s.setTb 7 { s.tb 7 with val := 5 }).tb 7).val = 5 ∧ 5 % tbModulus ≤ 5 ∧ (7 : Nat) < 8 ∧ (6 : Nat) ≠ 7) := by
  decide +kernel

theorem witness_TimingLossEntersHoldover :
    (let s := serving []
     let f := fun (st : TbState) (tr : Option (Nat × Nat)) (fr : List Frac) =>
       later (s.setTb 1 { s.tb 1 with st := st, transmitter := tr, freqs := fr })
     let c := fun (s : State) => axRuns s ∧ s.cxUp = true ∧ (s.tb 1).hold = false ∧
       ((s.tb 1).st = .locked ∨ ((s.tb 1).st = .acquiring ∧ (s.tb 1).transmitter.isSome = true)) ∧
       s.elapsed (s.tb 1).lastSync (3 * logClocks (s.tb 1).logSync) = true ∧
       s.elapsed (s.tb 1).lastAnnounce (3 * logClocks (s.tb 1).logAnnounce) = true
     c (f .locked none []) ∧ c (f .acquiring (some (1, 8)) [⟨1, 1⟩]) ∧ ((f .locked none []).tb 1).freqs = [] ∧
       ((f .acquiring (some (1, 8)) [⟨1, 1⟩]).tb 1).freqs ≠ []) := by decide +kernel

theorem witness_StopObjectsSetAndCleared :
    (let s := serving [(0x3018, 2, 1)]; s.rn 0x3018 2 < 2 ^ 64 ∧ (63 : Nat) < 64 ∧ bit (2 ^ 63) 63 = true ∧
          bit (s.rn 0x3018 2) 63 = false ∧
      bit (2 ^ 63) 0 = false ∧ bit (s.rn 0x3018 2) 0 = true) := by decide +kernel

theorem witness_StopPinIsCounted : up (serving []) ∧ (serving []).rein.pins < 4 ∧ bit
      (serving []).rein.pins 1 ≠ true := by decide +kernel

/-- A slot that fills frame 0 to its end, and one that needs the next. -/
theorem witness_SlotsPlacedInOrder :
    (let l := [(0, frameSpace - trainHeaderLen), (1, frameSpace)]
     (∀ p ∈ l, p.2 ≤ frameSpace) ∧ placeSlots l 0 trainHeaderLen = [(0, 0, trainHeaderLen), (1, 1, 0)] ∧
       placeSlots [(0, 8), (1, 8)] 0 trainHeaderLen = [(0, 0, trainHeaderLen), (1, 0, trainHeaderLen + 8)]) := by decide +kernel

/-- From 1.0 towards 0 by 0.5 and by 1.0, and from 0 towards 1.0. -/
theorem witness_RampStepTowardsOffValue :
    (let one : Bfp := ⟨2 ^ 30, 1⟩
     let half : Bfp := ⟨2 ^ 30, 0⟩
     bfpCmp one one = 0 ∧ 0 < bfpCmp one Bfp.zero ∧ bfpCmp Bfp.zero one < 0 ∧ rampStep one Bfp.zero half = (half, false, false) ∧
       rampStep one Bfp.zero one = (Bfp.zero, true, false) ∧ rampStep Bfp.zero one half = (half, false, false) ∧
       rampStep half one half = (one, true, false) ∧ (Bfp.ofBits 0).m ≤ 0) := by decide +kernel

/-- Outputs above, between and below bounds of 2.0 and -2.0 (bounds stored by the channel's unit), and bounds that would cross. -/
theorem witness_LimiterHoldsTheOutput :
    (let s := serving [(0x4000, 6, 0), (0x4000, 0x10, 0x0240000000), (0x4000, 0x11, 0x01C0000000)]
     let t := { s with taken := setAt (setAt s.taken (regKey 0x4000 0x10) (.num 0x0240000000)) (regKey 0x4000 0x11) (.num 0x01C0000000) }
     let r := fun (x : Bfp) => (evaluate t 0 Chan.init ⟨none, false, false, false, none, none⟩ x).chan 0
     (r ⟨2 ^ 30, 3⟩).limHi = true ∧ (r ⟨-2 ^ 30, 3⟩).limLo = true ∧ (r Bfp.zero).limHi = false ∧ (r Bfp.zero).limLo = false ∧
       bfpStore (Bfp.ofBits 0x0140000000) = some ⟨2 ^ 30, 1⟩ ∧ 0 < bfpCmp ⟨2 ^ 30, 3⟩ (s.rBfp 0x4000 0x10) ∧
       0 < bfpCmp (s.rBfp 0x4000 0x11) ⟨-2 ^ 30, 3⟩) := by decide +kernel

theorem witness_ChannelSampleChangesOneChannel :
    (let s := serving [(0x4FFF, 4, 1)]; let t := s.setChan 4095 { s.chan 4095 with placed := true }
     servesFn 3 t ∧ (t.chan 4095).placed = true ∧ t.clock.tick % t.rn 0x4FFF 4 = (t.chan 4095).phase) := by decide +kernel

theorem witness_EncoderEdgeCounts :
    (let s := serving [(0x750F, 1, 1)]; axRuns s ∧ s.rn 0x750F 1 = 1 ∧ (s.enc 15).lineFault = false ∧
          s.rn 0x750F 0x11 + 1 < 2 ^ 32) := by
  decide +kernel

/-- Without the gate, with the gate open, and with it shut. -/
theorem witness_IndexEventLatchesTheCount :
    (let s := serving [(0x7500, 1, 1)]
     let g := serving [(0x7500, 1, 1), (0x7500, 8, 1)]
     let o := g.setEnc 0 { g.enc 0 with a := true, b := true }
     axRuns s ∧ s.rn 0x7500 1 = 1 ∧ s.rn 0x7500 8 ≠ 1 ∧ axRuns o ∧ o.rn 0x7500 8 = 1 ∧ (o.enc 0).a = true ∧ (o.enc 0).b = true ∧
       axRuns g ∧ g.rn 0x7500 1 = 1 ∧ g.rn 0x7500 8 = 1 ∧ (g.enc 0).a = false) := by decide +kernel

theorem witness_EncoderEventsChangeOneEncoder : axRuns (serving []) := by decide +kernel

theorem witness_GrayWordIsConverted : (2 ^ 40 - 1 < 2 ^ 40) := by decide

theorem witness_OutputFaultRetriesOrLocks :
    (let s := serving [(0x731F, 7, 3)]
     let t := fun (n : Nat) => later (s.setDout 31 { s.dout 31 with st := 1, consec := n })
     up (t 2) ∧ ((t 2).dout 31).st = 1 ∧ (∀ f ∈ [OutFaultKind.short, .overload, .thermal],
         (t 2).elapsed ((t 2).dout 31).onClk (wallNs (faultTime f)) = true) ∧ ((t 2).dout 31).consec + 1 ≤ (t 2).rn 0x731F 7 ∧
       (t 3).rn 0x731F 7 < ((t 3).dout 31).consec + 1 ∧ (t 3).rn 0x731F 7 ≠ 255) := by decide +kernel

theorem witness_OutputEventsChangeOneOutput : up (serving []) := by decide +kernel

/-- A FIFO that a program writes, with room for one word, full, and dropping. -/
theorem witness_StreamWordEntersItsFifo :
    (let s := serving [(0x9100, 3, 2)]
     let p := s.setProg { s.prog with active := some { emptyImage with streams := [0] } }
     let f := fun (l : List Nat) (d : Bool) => p.setFifo 0 { p.fifo 0 with fill := l, dropping := d }
     cxRuns (f [0] false) ∧ fifoProducer (f [0] false) 0 ≠ 0 ∧ ((f [0] false).fifo 0).fill.length < (f [0] false).rn 0x9100 3 ∧
       (f [0, 0] false).rn 0x9100 3 ≤ ((f [0, 0] false).fifo 0).fill.length ∧ ((f [] true).fifo 0).dropping = true ∧
       (f [] true).rn 0x9100 7 + 1 < 2 ^ 32) := by decide +kernel

theorem witness_FifoReadTakesTheDrainBank :
    (let s := serving []
     let f := fun (n : Nat) => s.setFifo 0 { s.fifo 0 with drain := List.replicate n 0 }
     ((f 0).fifo 0).drain = [] ∧ ((f 512).fifo 0).drain ≠ [] ∧ 512 < ((f 513).fifo 0).drain.length) := by decide +kernel

/-- A line-cycle length of 4 base ticks is below the range. -/
theorem witness_RefusedWriteLeavesTheEntry :
    (let s := serving []; served s eng.client ∧ refusalOf s eng 0x2000 3 [4, 0] = some (abRangeLow, ⟨0x2000, 3, .oct [4, 0]⟩) ∧
      abRangeLow ≠ abPlacementRefused ∧ abRangeLow ≠ abNoProfiler ∧ hears (asked s eng.client) eng.client = true) := by decide +kernel

theorem witness_FunctionNotReadyRefusesReads :
    (let s := { serving [] with dict := { (serving []).dict with ready := [(0, ⟨2, 0, 0⟩)] } }
     let c := ClientId.session 0
     headerGood c (readMsg []) = true ∧ schedFlag (readMsg []) = false ∧ served s c ∧ hears (asked s c) c = true ∧
       servesIndex (asked s c) 0x2000 = false ∧ indexDefined (asked s c) 0x2000 = true ∧ (entryDef (asked s c) 0x2000 3).isSome = true ∧
       (entryDef (asked s c) 0x2000 0).isSome = true ∧ isFirstEntry 0x2000 = true) := by decide +kernel

theorem witness_ReadsLeaveTheMachine : headerGood (.session 0) (readMsg []) = true ∧ served
      (serving []) (.session 0) := by decide +kernel

theorem witness_DownloadNeedsStop :
    (let s := serving [(0x8000, 1, 2)]; served s eng.client ∧ eng.apply = none ∧ (s.rn 0x8000 1 = 2 ∨ s.rn 0x8000 1 = 3) ∧
      accessCauses (asked s eng.client) 0x8010 5 = [] ∧ roleOf (asked s eng.client) eng.client = .engineer ∧
      heldBySegments (asked s eng.client) 0x8010 5 = false) := by decide +kernel

theorem witness_DictionaryRequestsAct :
    (let s := serving []
     let c := ClientId.session 0
     let w : Watch := ⟨c, 1, 0x2000, 3, []⟩
     headerGood c (readMsg []) = true ∧ schedFlag (readMsg []) = false ∧ served s c ∧ readable s c 0x2000 3 ∧
       (entryDef (asked s c) 0x2000 3).isSome = true ∧ (s.dict.watches.filter fun w => w.client = c).length < watchLimit c ∧
       headerGood c (readMsg (leBytes 4 2 ++ leBytes 4 65532)) = true ∧ 65532 + 4 ≤ messageLimit c ∧
       2 ≤ (peek (asked s c) 0x2000 3).length ∧
       (let t := { s with dict := { s.dict with watches := [w] } }; served t c ∧ t.dict.watches = [w] ∧ w.txn = 1)) ∧
    (let s := serving []
     let c := ClientId.session 0
     headerGood c (readMsg (leBytes 2 1)) = true ∧ headerGood c (readMsg [160, 0]) = true ∧
       writeRefusal (asked s c) c none [⟨0x2000, 3, .oct [160, 0]⟩] [] = none ∧
       takeElems 1 (leBytes 2 0x2000 ++ [3, 0] ++ leBytes 4 2 ++ [160, 0, 0, 0]) = some [⟨0x2000, 3, .oct [160, 0]⟩] ∧
       headerGood c (readMsg (leBytes 2 0x2000 ++ leBytes 1 3 ++ [0, 0, 0, 0, 0])) = true ∧
       (elementBytes 0x2000 3 (peek (asked s c) 0x2000 3)).length ≤ messageLimit c ∧ readable s c 0x7520 7 ∧
             readable s c 0x9100 9) := by
  decide +kernel

/-- One data byte of a segment that is not the last, for each command that carries segments. -/
theorem witness_SegmentsAct :
    (let s := serving [(0x8000, 1, 1)]
     let c := ClientId.session 0
     let m := fun (index sub : Nat) => (⟨0, 1, BitVec.ofNat 16 index, BitVec.ofNat 8 sub, 1, 5, 0, 0, [0, 0, 0, 0, 1]⟩ : DazMsg)
     takesSegment c (m 0x8010 3) (m 0x8010 3).index.toNat (m 0x8010 3).sub.toNat s ∧ takesSegment c (m 0x8010 3) 0x8010 3 s ∧
       takesSegment c (m 0xC010 1) 0xC010 1 s ∧ takesSegment c (m 0xB030 1) 0xB030 1 s) := by decide +kernel

theorem witness_TickReferenceAndLinkEventsAct :
    (fun s => ticking s = true) (serving []) ∧
    (fun s => ticking s = true ∧ s.clock.lcStarted = true ∧ s.atLc = true ∧ s.clock.lcDone ≠ some s.clock.tick)
          (let s := serving []; { s with clock := { s.clock with lcStarted := true } }) ∧
    axRuns (serving []) ∧
    up (serving []) ∧
    (fun s => s.on = true ∧ (s.link (linkNum (.cxNa : Link))).failed = false ∧ 3 ≤ (s.link (linkNum (.cxNa : Link))).noGood)
          (let s := serving []; s.setLink 0 { s.link 0 with noGood := 3 }) := by
  decide +kernel

theorem witness_TimeBaseEventsAct :
    axRuns (serving []) ∧
    (fun s => axRuns s ∧ (s.tb 0).st ≠ .free) (serving []) ∧
    (fun s => axRuns s ∧ s.cxUp = true ∧ (s.tb 0).st = .locked ∧ (s.tb 0).hold = false ∧
          s.elapsed (s.tb 0).lastSync (3 * logClocks (s.tb 0).logSync) = true ∧
          s.elapsed (s.tb 0).lastAnnounce (3 * logClocks (s.tb 0).logAnnounce) = true)
          (let s := serving []; later (s.setTb 0 { s.tb 0 with st := .locked })) ∧
    (fun s => axRuns s ∧ isTransmitter s 0 0 = true ∧ s.rn 0x2010 0x0A ≠ 0) (serving [(0x2020, 1, 1), (0x2020, 2, 1), (0x2010, 10, 1)]) ∧
    (fun s => axRuns s ∧ s.cxUp = true ∧ tbOnPort s 0 0 = true ∧ peerDelay s 0 0 = true) (serving [(0x2020, 1, 1), (0x2020, 3, 1)]) ∧
    (fun s => axRuns s ∧ (s.port 0).waiting = true ∧ (s.port 0).seq = 0)
          (let s := serving []; s.setPort 0 { s.port 0 with waiting := true }) ∧
    (fun s => axRuns s ∧ (s.tb 7).st = .locked) (let s := serving []; s.setTb 7 { s.tb 7 with st := .locked }) := by
  decide +kernel

theorem witness_LeadAndActionEventsAct :
    (fun s => axRuns s ∧ s.cxUp = true ∧ leadSource s 0 = 4 ∧ henvyState s = 2) (serving [(0x2040, 1, 4), (0x3080, 8, 2)]) ∧
    (fun s => axRuns s ∧ s.cxUp = true ∧ leadSource s 0 = 2) (serving [(0x2040, 1, 2)]) ∧
    (fun s => s.on = true ∧ (s.lead 0).st = 2 ∧ (s.lead 0).sinceTick + 160 * s.rn 0x2040 0x12 ≤ s.clock.tick)
          (let s := serving [(0x2040, 0x12, 1)]; atTick 160 (s.setLead 0 { s.lead 0 with st := 2 })) ∧
    (fun s => s.on = true ∧ (s.lead 0).st = 3 ∧ (s.lead 0).vel = 0) (let s := serving []; s.setLead 0 { s.lead 0 with st := 3 }) ∧
    (fun s => s.on = true ∧ dueOf (.taskRelease 0) ∈ s.actions.due ∧ (dueOf (.taskRelease 0)).action.id = 0 ∧
          firesHere (dueOf (.taskRelease 0)).action.work = true ∧ (dueOf (.taskRelease 0)).boundary ≤ s.clock.tick)
          (let s := serving []; { s with actions := { s.actions with due := [dueOf (.taskRelease 0)] } }) ∧
    (fun s => s.on = true ∧ dueOf (.trigger 0 none) ∈ s.actions.due ∧ (dueOf (.trigger 0 none)).action.id = 0 ∧
          firesHere (dueOf (.trigger 0 none)).action.work = true ∧ (dueOf (.trigger 0 none)).tick ≤ s.clock.tick)
          (let s := serving []; { s with actions := { s.actions with due := [dueOf (.trigger 0 none)] } }) := by
  decide +kernel

theorem witness_BusEventsAct :
    up (serving []) ∧
    (fun s => s.on = true ∧ s.rein.changed = true) (let s := serving []; { s with rein := { s.rein with changed := true } }) ∧
    1518 < ({ frameOf [] [] with size := 1519 } : FrameIn).size ∧ (frameOf [] []).size ≤ 1518 ∧ (0x0800 : BitVec 16) ≠ 0x88F7 ∧
      (frameOf [] []).fcsGood = true ∧ ({ frameOf [] [] with fcsGood := false } : FrameIn).fcsGood = false ∧
    (fun s => s.on = true ∧ engActive s (.na : Engine) = true ∧ 0x0800 ≠ s.rn 0x3000 1) (naOn (serving [])) ∧
    (fun s => s.on = true ∧ engActive s (.na : Engine) = true ∧ (frameOf [] []).etherType.toNat = s.rn 0x3000 1 ∧ (s.ring 0).st ≠ 0)
          (let s := serving [(0x3000, 1, 0x88B5)]; (naOn s).setRing 0 { s.ring 0 with st := 3 }) ∧
    (fun s => s.on = true ∧ (s.ring 0).st = 3 ∧ 1 ≤ s.rn 0x2000 5) (let s := serving [(0x2000, 5, 1)]; s.setRing 0 { s.ring 0 with st := 3 }) ∧
    (fun s => s.on = true ∧ (s.ring 0).st = 3 ∧ 2 ≤ s.rn 0x2000 5) (let s := serving [(0x2000, 5, 2)]; s.setRing 0 { s.ring 0 with st := 3 }) ∧
    (fun s => s.on = true ∧ (s.station 0).st = 4 ∧ s.rn 0x3800 9 ≤ (s.station 0).missedRun)
          (let s := serving [(0x3800, 9, 3)]; s.setStation 0 { s.station 0 with st := 4, missedRun := 3 }) ∧
    (fun s => s.on = true ∧ engActive s (.na : Engine) = true ∧ (s.ring 0).st ≠ 0 ∧ (s.ring 0).st ≠ 5)
          (let s := serving []; (naOn s).setRing 0 { s.ring 0 with st := 3 }) ∧
    (fun s => s.on = true ∧ engActive s (.na : Engine) = true) (naOn (serving [])) ∧
    (fun s => s.on = true ∧ (s.ring 0).st ≠ 0 ∧ (s.ring 0).st ≠ 5 ∧ splitFlag s 0 = false ∧
          ([some ⟨0, 1, 1, 1⟩] : List (Option DelayRecord)).length = ringN s 0 ∧ (0 : BitVec 16).toNat = (s.ring 0).measNo % 65536)
          (let s := serving [(0x3010, 2, 1)]; s.setRing 0 { s.ring 0 with st := 3 }) := by
  decide +kernel

theorem witness_PathAndCoastEventsAct :
    (fun s => s.on = true ∧ engActive s (.na : Engine) = true) (naOn (serving [])) ∧
    (fun s => s.on = true ∧ engActive s (.na : Engine) = true ∧ (checkFails s .na .transmitPath).1 = true ∧
          (checkFails s .na .hobbleReadBack).1 = true ∧ (checkFails s .na (.memories false)).1 = true ∧
          (checkFails s .na (.clock (60, 60) (20, -20))).1 = true) (naOn (serving [])) ∧
    (fun s => s.on = true ∧ engActive s (.na : Engine) = true ∧ (checkFails s .na .returningCrc).1 = true)
          (let s := naOn (serving []); { s with na := { s.na with badRun := 1, fcsBad := true } }) ∧
    (fun s => s.on = true ∧ engActive s (.na : Engine) = true ∧ (checkFails s .na .computeLink).1 = true)
          (let s := nbOn (naOn (serving [])); s.setLink 0 { s.link 0 with failed := true }) ∧
    (fun s => s.on = true ∧ engActive s (.na : Engine) = true ∧ ((s.ring 0).st = 1 ∨ (s.ring 0).st = 2 ∨ (s.ring 0).st = 3))
          (let s := serving []; (naOn s).setRing 0 { s.ring 0 with st := 3 }) ∧
    (fun s => s.on = true ∧ (s.ring 0).st = 3 ∧ ((s.ring 0).split = true ∨ (s.ring 0).joining = true) ∧ crossUp s = true ∧
          (s.ring 0).healAt = none ∧ (s.ring 0).badSeg = [] ∧ (s.ring 0).healFrom ≤ s.clock.timClk)
          (let s := serving []; s.setRing 0 { s.ring 0 with st := 3, split := true }) ∧
    (fun s => s.on = true ∧ (s.ring 0).healAt = some 0 ∧ 0 ≤ s.rn 0x2000 5 ∧ s.elapsed (s.ring 0).healClk (wallSec 1 / 10) = true)
          (let s := serving []; later (s.setRing 0 { s.ring 0 with healAt := some 0 })) ∧
    (fun s => s.on = true ∧ s.coast.active = false ∧ s.coast.announced = some 0 ∧ 0 ≤ s.clock.tick)
          (let s := serving []; { s with coast := { s.coast with announced := some 0 } }) ∧
    (fun s => s.on = true ∧ s.coast.active = false ∧ bothFailed s 1 = true ∧ bothFailed s 3 = true ∧ crossUp s = true)
          (let s := serving []; (s.setLink 0 { s.link 0 with failed := true }).setLink 2 { s.link 2 with failed := true }) ∧
    (fun s => s.on = true ∧ s.coast.active = false ∧ engActive s .na = true ∧ engActive s (otherEngine .na) = false ∧
          (s.link (linkNum (fromCx .na))).failed = true) (let s := naOn (serving []); s.setLink 0 { s.link 0 with failed := true }) ∧
    (fun s => s.on = true ∧ s.coast.active = true ∧ s.coast.limitHit = false ∧ limitReached s = true)
          (let s := serving [(0x3070, 1, 1)]; atTick 160 { s with coast := { s.coast with active := true } }) ∧
    (fun s => cxRuns s ∧ s.coast.active = true ∧ coastExitDue s = true) (let s := serving [];
          { s with coast := { s.coast with active := true } }) ∧
    (fun s => cxRuns s ∧ axisLocal s 0 = false ∧ enginesAck s = true ∧
          { coastRecordOf s 0 with tag := (s.coastRec 0).tag } ≠ s.coastRec 0)
          (let s := serving []; s.setAxis 0 { s.axis 0 with st := axStandstill, v := F64.ofInt 1 }) := by
  decide +kernel

theorem witness_HenvyAndUplinkEventsAct :
    (fun s => cxRuns s ∧ henvyState s = 2 ∧ (firstCopy s ⟨0, 0, 0⟩).1 = true) (serving [(0x3080, 8, 2)]) ∧
    (fun s => cxRuns s ∧ henvyState s = 2 ∧ (firstCopy s ⟨1, 5, 9⟩).1 = false) (firstCopy (serving [(0x3080, 8, 2), (0x3080, 1, 1)]) ⟨0, 5, 9⟩).2 ∧
    (fun s => cxRuns s ∧ henvyState s ≠ 0) (serving [(0x3080, 8, 1)]) ∧
    (fun s => cxRuns s ∧ henvyState s = 2 ∧ silentSince s 0 = some 0 ∧ s.elapsed 0 (wallSec 1 / 100) = true)
          (let s := serving [(0x3080, 8, 2)]; later { s with henvy := { s.henvy with members := [(0, some 0)] } }) ∧
    (fun s => cxRuns s ∧ henvyState s = 1 ∧ s.henvy.since + wallSec 3 ≤ s.clock.timClk) (later (serving [(0x3080, 8, 1)])) ∧
    cxRuns (serving []) ∧
    (fun s => cxRuns s ∧ s.rn 0x3080 1 ≠ 0 ∧ s.elapsed (s.uplink 0).lastRx (wallSec 6) = true) (later (serving [(0x3080, 1, 1)])) := by
  decide +kernel

theorem witness_SampleAndLocalEventsAct :
    (fun s => servesFn 3 s ∧ (s.chan 0).placed = true ∧ s.clock.tick % s.rn 0x4000 4 = (s.chan 0).phase)
          (let s := serving [(0x4000, 4, 1)]; s.setChan 0 { s.chan 0 with placed := true }) ∧
    (fun s => servesFn 3 s ∧ (s.chan 0).placed = true ∧ (s.chan 0).faultDue = true ∧
          s.clock.tick % s.rn 0x4000 4 = (s.chan 0).phase)
          (let s := serving [(0x4000, 4, 1)]; s.setChan 0 { s.chan 0 with placed := true, faultDue := true }) ∧
    (fun s => cxRuns s ∧ (s.chan 0).placed = true) (let s := serving []; s.setChan 0 { s.chan 0 with placed := true }) ∧
    (fun s => servesFn 4 s ∧ declaredHere s 0x5000 3 = true ∧ s.clock.tick % axisPeriod s 0 = phaseOf s 2 0 ∧ axisCoasts s 0 = false ∧
          axisLocal s 0 = false ∧ enginesAck s = true) (serving [(0x5000, 1, 1)]) ∧
    (fun s => servesFn 4 s ∧ declaredHere s 0x5000 3 = true ∧ s.clock.tick % axisPeriod s 0 = phaseOf s 2 0 ∧ axisCoasts s 0 = false ∧
          axisLocal s 0 = false ∧ enginesAck s = false)
          (let s := naOn (serving [(0x5000, 1, 1)]); s.setLink 0 { s.link 0 with failed := true }) ∧
    (fun s => cxRuns s ∧ (s.axis 0).placed = true) (let s := serving []; s.setAxis 0 { s.axis 0 with placed := true }) ∧
    (fun s => axRuns s ∧ s.rn 0x7580 1 = 2 ∧ (s.loc 0).sNew = (s.loc 0).x ∧ msPassed s (s.loc 0).lastMove (s.rn 0x7580 0x0A) = true)
          (serving [(0x7580, 1, 2), (0x7580, 10, 0)]) := by
  decide +kernel

/-- The same statement's clauses on encoders, capture lines, limits and homing. -/
theorem witness_SampleAndLocalEventsAct_local :
    (fun s => axRuns s ∧ s.rn 0x7500 1 = 1) (serving [(0x7500, 1, 1)]) ∧
    (fun s => axRuns s ∧ s.rn 0x7500 1 = 1 ∧ s.rn 0x7500 8 = 0) (serving [(0x7500, 1, 1)]) ∧
    (fun s => axRuns s ∧ s.rn 0x7500 1 ≠ 0) (serving [(0x7500, 1, 1)]) ∧
    axRuns (serving []) ∧
    (fun s => axRuns s ∧ s.rn 0x7500 1 = 2 ∧ (s.enc 0).lineFault = false) (serving [(0x7500, 1, 2)]) ∧
    (fun s => axRuns s ∧ s.rn 0x7520 1 = 2) (serving [(0x7520, 1, 2)]) ∧
    (fun s => axRuns s ∧ inputQualified s 0 0 0 = true) (serving [(0x7580, 17, 1), (0x7580, 20, 0)]) ∧
    (fun s => axRuns s ∧ (getAt InLatch.init (s.loc 0).latches 0).latched = true ∧ s.rn 0x7580 0x15 * 1000 < 0 + 6250)
          (let s := serving [(0x7580, 21, 0)]; s.setLoc 0 { s.loc 0 with latches := [(0, ⟨true, 0, 0⟩)] }) ∧
    (fun s => axRuns s ∧ s.rn 0x5A00 1 = 5 ∧ (s.loc 0).homing.phase = 1 ∧ (s.loc 0).homing.devSince = some 0 ∧
          msPassed s 0 (s.rn 0x5A00 0x0B) = true)
          (let s := serving [(0x5A00, 1, 5), (0x5A00, 11, 0)]; s.setLoc 0 { s.loc 0 with homing := { (s.loc 0).homing with phase := 1, devSince := some 0 } }) ∧
    (fun s => cxRuns s ∧ (s.loc 0).homing.phase = 9 ∧ (s.loc 0).homing.edge = some 0 ∧ axisOfLocal s 0 = some 0 ∧
          axisBoundary s 0 = true)
          (let s := serving [(0x5000, 4, 1), (0x5000, 5, 0)]; s.setLoc 0 { s.loc 0 with homing := { (s.loc 0).homing with phase := 9, edge := some 0 } }) := by
  decide +kernel

theorem witness_AnalogueEventsAct :
    (fun s => axRuns s ∧ s.rn 0x6200 1 = 1 ∧ (s.trig 0).st = 1 ∧ (s.trig 0).fromTick ≤ s.clock.tick ∧
          (s.trig 0).lastEvent < adcClock s 0 ∧ s.clock.tick % max 1 (s.rn 0x6200 3) = s.rn 0x6200 4)
          (let s := serving [(0x6200, 1, 1), (0x6200, 3, 1), (0x6200, 4, 0)]; atTick 1 (s.setTrig 0 { s.trig 0 with st := 1 })) ∧
    axRuns (serving []) ∧
    (fun s => axRuns s ∧ (s.conv 0).running.isSome = true)
          (let s := serving []; s.setConv 0 { s.conv 0 with running := some ⟨0, 0, 0, false, false, 0⟩ }) ∧
    (fun s => axRuns s ∧ (s.conv 0).failed = false ∧ (s.conv 0).running = none ∧ (s.conv 0).urgent = none ∧
          (s.conv 0).normal = []) (serving []) ∧
    (fun s => axRuns s ∧ (s.conv 0).failed = false ∧ checkDue s 0 = true) (serving [(0x6000, 7, 0)]) ∧
    (fun s => axRuns s ∧ (s.conv 0).failed = false ∧ (s.conv 0).checking = true ∧ (s.conv 0).running = none ∧
          (s.conv 0).urgent = none ∧ (s.conv 0).normal = []) (let s := serving []; s.setConv 0 { s.conv 0 with checking := true }) ∧
    (fun s => axRuns s ∧ (s.aout 0).holding = true ∧ s.rn 0x6300 5 ≠ 0 ∧ msPassed s (s.aout 0).holdFrom (s.rn 0x6300 5) = true)
          (let s := serving [(0x6300, 5, 1)]; atTick 160 (s.setAout 0 { s.aout 0 with holding := true })) ∧
    (fun s => axRuns s ∧ s.rn 0x6300 1 = 2 ∧ (s.aout 0).openF = false) (serving [(0x6300, 1, 2)]) ∧
    (fun s => axRuns s ∧ s.rn 0x6300 1 = 1 ∧ (s.aout 0).shortF = false) (serving [(0x6300, 1, 1)]) ∧
    (fun s => axRuns s ∧ s.rn 0x6300 1 ≠ 0 ∧ (s.aout 0).overtemp = false) (serving [(0x6300, 1, 1)]) := by
  decide +kernel

theorem witness_FieldEventsAct :
    (fun s => s.on = true ∧ (s.din 0).fx ≠ true ∧ debounced s 0 0 = true) (atTick 1000 (serving [])) ∧
    (fun s => s.on = true ∧ s.rn 0x7100 7 = 1 ∧ (s.din 0).wireBreak = false) (serving [(0x7100, 7, 1)]) ∧
    up (serving []) ∧
    axRuns (serving []) ∧
    (fun s => s.on = true ∧ (s.dout 0).st = 1 ∧ s.elapsed (s.dout 0).onClk (wallNs 200000) = true ∧
          (∀ f ∈ [OutFaultKind.short, .overload, .thermal], s.elapsed (s.dout 0).onClk (wallNs (faultTime f)) = true) ∧
          s.elapsed (s.dout 0).onClk (wallSec 1) = true ∧ s.elapsed (s.dout 0).onClk (wallNs 100000000) = true)
          (let s := serving []; later (s.setDout 0 { s.dout 0 with st := 1 })) ∧
    (fun s => s.on = true ∧ (s.dout 0).st = 2 ∧ s.elapsed (s.dout 0).faultClk (wallNs (s.rn 0x7300 6 * 1000000)) = true)
          (let s := serving [(0x7300, 6, 100)]; later (s.setDout 0 { s.dout 0 with st := 2 })) ∧
    (fun s => s.on = true ∧ (s.supply 0).missing = false ∧ (∀ t, (s.supply 0).lastOn = some t → s.elapsed t (wallNs 1000000) = true) ∧
          ∃ k < 8, (s.dout (8 * 0 + k)).st = 4) (let s := serving [];
          (s.setSupply 0 { s.supply 0 with missing := false, lastOn := none }).setDout 7 { s.dout 7 with st := 4 }) ∧
    (fun s => s.on = true ∧ s.field.linkLost = false ∧ 3 ≤ (s.link (linkNum .axFx)).noGood)
          (let s := serving []; s.setLink (linkNum .axFx) { s.link (linkNum .axFx) with noGood := 3 }) ∧
    (fun s => s.on = true ∧ s.field.linkLost = true ∧ 16 ≤ s.field.goodRun)
          (let s := serving []; { s with field := { s.field with linkLost := true, goodRun := 16 } }) ∧
    (fun s => s.on = true ∧ (s.dout 0).holding = true ∧ s.rn 0x7300 4 ≠ 0 ∧ (s.dout 0).holdTick + 160 * s.rn 0x7300 4 ≤ s.clock.tick)
          (let s := serving [(0x7300, 4, 1)]; atTick 160 (s.setDout 0 { s.dout 0 with holding := true })) := by
  decide +kernel

theorem witness_ProgramEventsAct :
    (fun s => cxRuns s ∧ (s.task 0).due.isSome = true ∧ (s.task 0).decl.isSome = true ∧ (s.task 0).core.isSome = true ∧
          s.prog.pausing = false ∧ (s.task 0).running = false)
          (let s := serving []; s.setTask 0 { s.task 0 with decl := some ⟨0, 1, 1, 1, 0, 0, [], 0, 0, 0, 1, 0xFFFF, 0xFF, 0xFF⟩, core := some 1, due := some ⟨0, 0, 0, 0, 0, 0, false⟩ }) ∧
    (fun s => cxRuns s ∧ (s.task 0).running = true) (let s := serving [(0x8000, 1, 2)]; s.setTask 0 { s.task 0 with running := true }) ∧
    (fun s => cxRuns s ∧ (s.task 0).running = true ∧ (s.task 0).decl = some (⟨0, 1, 1, 1, 0, 0, [], 0, 0, 0, 1, 0xFFFF, 0xFF, 0xFF⟩ : TaskDecl) ∧
          (s.task 0).rel = some (⟨0, 0, 0, 0, 0, 0, false⟩ : Release) ∧ overrunExempt s 0 = false ∧
          scaledBudget s ⟨0, 1, 1, 1, 0, 0, [], 0, 0, 0, 1, 0xFFFF, 0xFF, 0xFF⟩ < (s.clock.tick + 1 - 0) * 6250)
          (let s := serving [(0x8000, 1, 2)]; atTick 1000000 (s.setTask 0 { s.task 0 with
            running := true, decl := some ⟨0, 1, 1, 1, 0, 0, [], 0, 0, 0, 1, 0xFFFF, 0xFF, 0xFF⟩, rel := some ⟨0, 0, 0, 0, 0, 0, false⟩ })) ∧
    (fun s => cxRuns s ∧ (s.task 0).running = true ∧ (s.task 0).missed = false ∧ deadlineNext s 0 = true)
          (let s := serving [(0x8000, 1, 2)]; s.setTask 0 { s.task 0 with running := true, fell := true }) ∧
    (fun s => cxRuns s ∧ (s.task 0).react = some 0) (let s := serving []; s.setTask 0 { s.task 0 with react := some 0 }) ∧
    (fun s => cxRuns s ∧ s.rn 0x8000 8 = 1 ∧ s.rn 0x8000 1 = 2 ∧ bit (s.rn 0x8030 (0 + 1)) 63 = true ∧
          (bits (s.rn 0x8030 (0 + 1)) 55 48 = 0 ∨ bits (s.rn 0x8030 (0 + 1)) 55 48 = 0xFF) ∧ (s.task 0).running = true ∧ (s.task 0).atBreak = false)
          (let s := serving [(0x8000, 1, 2), (0x8000, 8, 1), (0x8030, 1, 9223372036854775808)]; s.setTask 0 { s.task 0 with running := true }) ∧
    (fun s => cxRuns s ∧ s.rn 0x8000 1 = 3 ∧ s.rn 0x8000 7 ≠ 0 ∧ s.prog.holdFrom + s.rn 0x8000 7 * secUnits < s.now + tickUnits)
          (let s := serving [(0x8000, 1, 3), (0x8000, 7, 1)]; s.setTb 0 { s.tb 0 with val := 2 * secUnits }) ∧
    (fun s => cxRuns s ∧ s.prog.commitDue = true) (let s := serving []; { s with prog := { s.prog with commitDue := true } }) ∧
    (fun s => cxRuns s ∧ s.prog.pausing = true ∧ s.tasks.any (fun r => r.2.running) = false) (let s := serving [];
          { s with prog := { s.prog with pausing := true } }) ∧
    (fun s => cxRuns s ∧ s.prog.pausing = true ∧ s.rn 0x8010 6 < (s.clock.tick + 1 - s.prog.xTick) * 6250)
          (let s := atTick 1000000 (serving []); { s with prog := { s.prog with pausing := true } }) ∧
    (fun s => cxRuns s ∧ getAt none s.prog.jobs 0 = some 0) (let s := serving [];
          { s with prog := { s.prog with jobs := [(0, some 0)] } }) ∧
    cxRuns (serving []) ∧
    (fun s => cxRuns s ∧ (running s 0).isSome = true) (let s := serving [];
          { s with sched := { s.sched with cores := [(0, some ⟨.flush, 0, 0, 1⟩)] } }) ∧
    (fun s => cxRuns s ∧ fifoProducer s 0 ≠ 0) (let s := serving [];
          { s with prog := { s.prog with active := some { emptyImage with streams := [0] } } }) := by
  decide +kernel

theorem witness_OstlerEventsAct :
    (fun s => cxRuns s ∧ ∃ p ∈ s.ost.plans, p.kind = 0 + 1 ∧ p.item = 0 ∧ p.target = 0) (let s := serving [];
          { s with ost := { s.ost with plans := [⟨1, 0, 0, 0, false⟩] } }) ∧
    (fun s => cxRuns s ∧ migOf s (0 + 1) 0 = some (⟨1, 0, 0, 1, 0, 0, 0, 0, 0, false⟩ : Migr) ∧
          (⟨1, 0, 0, 1, 0, 0, 0, 0, 0, false⟩ : Migr).stage = 0) (let s := serving [];
          { s with ost := { s.ost with migs := [⟨1, 0, 0, 1, 0, 0, 0, 0, 0, false⟩] } }) ∧
    (fun s => cxRuns s ∧ migOf s (0 + 1) 0 = some (⟨1, 0, 0, 1, 0, 1, 0, 0, 0, false⟩ : Migr) ∧
          (⟨1, 0, 0, 1, 0, 1, 0, 0, 0, false⟩ : Migr).stage = 1 ∧
          (⟨1, 0, 0, 1, 0, 1, 0, 0, 0, false⟩ : Migr).k0 ≤ s.clock.tick) (let s := serving [];
          { s with ost := { s.ost with migs := [⟨1, 0, 0, 1, 0, 1, 0, 0, 0, false⟩] } }) ∧
    (fun s => cxRuns s ∧ migOf s (0 + 1) 0 = some (⟨1, 0, 0, 1, 0, 1, 0, 0, 0, false⟩ : Migr)) (let s := serving [];
          { s with ost := { s.ost with migs := [⟨1, 0, 0, 1, 0, 1, 0, 0, 0, false⟩] } }) ∧
    (fun s => cxRuns s ∧ rotationDue s = true) (let s := serving [(0xA000, 2, 1)]; s.setTb 0 { s.tb 0 with val := 2 * secUnits }) ∧
    (fun s => cxRuns s ∧ ((s.unit 0).st = 3 ∨ (s.unit 0).st = 4) ∧
          s.elapsed (getAt 0 s.ost.tests 0) (wallNs (testTime 0)) = true) (let s := serving []; later (s.setUnit 0 { s.unit 0 with st := 3 })) := by
  decide +kernel

theorem witness_RecorderEventsAct :
    (fun s => cxRuns s ∧ 2 ≤ s.clock.tick ∧ s.rcd.assembled = none ∧ s.rn 0x9000 1 ≠ 0 ∧ s.rcd.sealed = false ∧
          s.rcd.stopped = false ∧ s.serves 9 = true) (let s := serving [(0x9000, 1, 1)];
          { s with clock := { s.clock with tick := 2 } }) ∧
    (fun s => cxRuns s ∧ anyActive s = true ∧ s.rcd.waterAt + shedTicks ≤ s.clock.tick ∧ s.rcd.above = true ∧
          s.rn 0x9000 0x0A ≤ bufferFill s) (let s := serving [(0x9000, 10, 0)]; let s := s.setSsd 0 { s.ssd 0 with st := 4 }
          atTick (2 * shedTicks) { s with rcd := { s.rcd with above := true } }) ∧
    (fun s => cxRuns s ∧ anyActive s = true ∧ s.rcd.waterAt + shedTicks ≤ s.clock.tick ∧ s.rcd.below = true ∧
          bufferFill s < s.rn 0x9000 0x0A ∧ bufferFill s < s.rn 0x9000 0x0B)
          (let s := serving [(0x9000, 10, 700), (0x9000, 11, 500)]; let s := s.setSsd 0 { s.ssd 0 with st := 4 }
          atTick (2 * shedTicks) { s with rcd := { s.rcd with below := true } }) ∧
    (fun s => cxRuns s ∧ chunkDue s = true) (atTick 16000 (serving [(0x9000, 16, 100)])) ∧
    (fun s => cxRuns s ∧ ((s.ssd 0).st = 4 ∨ (s.ssd 0).st = 5)) (let s := serving []; s.setSsd 0 { s.ssd 0 with st := 4 }) ∧
    (fun s => cxRuns s ∧ (s.fifo 0).fill ≠ [] ∧ (s.fifo 0).fillAt + s.rn 0x9100 5 ≤ s.clock.tick) (let s := serving [(0x9100, 5, 0)]; s.setFifo 0 { s.fifo 0 with fill := [0] }) ∧
    (fun s => cxRuns s ∧ (s.ssd 0).st = 0) (serving []) ∧
    (fun s => cxRuns s ∧ (s.ssd 0).st = 1) (let s := serving []; s.setSsd 0 { s.ssd 0 with st := 1 }) ∧
    (fun s => cxRuns s ∧ (s.ssd 0).st = 3) (let s := serving []; s.setSsd 0 { s.ssd 0 with st := 3 }) ∧
    (fun s => cxRuns s ∧ (s.ssd 0).st ≠ 0) (let s := serving []; s.setSsd 0 { s.ssd 0 with st := 1 }) ∧
    (fun s => cxRuns s ∧ ((s.ssd 0).st = 4 ∨ (s.ssd 0).st = 5) ∧ (s.ssd 0).fails < 2) (let s := serving []; s.setSsd 0 { s.ssd 0 with st := 5 }) ∧
    (fun s => cxRuns s ∧ ((s.ssd 0).st = 4 ∨ (s.ssd 0).st = 5) ∧ 2 ≤ (s.ssd 0).fails)
          (let s := serving []; s.setSsd 0 { s.ssd 0 with st := 4, fails := 2 }) := by
  decide +kernel

theorem witness_PowerAndStartupEventsAct :
    (fun s => s.on = false ∧ s.health.supplied = false) State.reset ∧
    (fun s => s.on = true ∧ s.health.step ≠ 0 ∧ (s.health.step = 7 → acquired s = true) ∧ s.health.bootRom = false)
          (let s := serving []; { s with health := { s.health with step := 1 } }) ∧
    (fun s => s.on = true ∧ s.health.step ≠ 0 ∧ (s.health.step = 7 → acquired s = true) ∧ s.health.bootRom = false)
          (let s := serving []; ({ s with health := { s.health with step := 7 } }).setTb 0 { s.tb 0 with st := .locked }) ∧
    (fun s => s.on = true ∧ s.health.step = 7 ∧ s.tickTb.st = .acquiring ∧ s.elapsed s.health.stepClk (wallSec (s.rn 0xB010 2)) = true)
          (later (let s := serving []; { s with health := { s.health with step := 7 } })) ∧
    up (serving []) ∧
    (fun s => s.health.reset = true ∧ s.health.supplied = true) (let s := serving []; { s with health := { s.health with reset := true, supplied := true } }) ∧
    (fun s => s.health.reset = true ∧ s.health.supplied = false) (let s := serving []; { s with health := { s.health with reset := true, supplied := false } }) ∧
    (fun s => s.on = true ∧ s.health.pfw = none) (serving []) ∧
    (fun s => s.on = true ∧ s.health.pfw = some 0 ∧ s.health.shut = false ∧ s.elapsed 0 (wallNs (s.rn 0xB020 2 * 1000)) = true)
          (later (let s := serving []; { s with health := { s.health with pfw := some 0 } })) ∧
    (fun s => s.on = true ∧ s.health.pfw = some 0) (let s := serving []; { s with health := { s.health with pfw := some 0 } }) ∧
    (fun s => axRuns s ∧ s.health.shut = true ∧ s.health.pfw = none ∧ s.elapsed s.health.pfwHigh (wallNs 100000000) = true)
          (later (let s := serving []; { s with health := { s.health with shut := true } })) ∧
    (fun s => s.on = true ∧ s.health.updating = some 0 ∧ 0 ≠ 1) (let s := serving []; { s with health := { s.health with updating := some 0 } }) ∧
    cxRuns (serving []) ∧
    (fun s => s.on = true ∧ s.health.restart = some (⟨0, false, none, 0⟩ : Restart) ∧ s.health.down = true ∧
          s.health.tripped = false) (let s := serving []; { s with health := { s.health with restart := some ⟨0, false, none, 0⟩, down := true } }) := by
  decide +kernel

theorem witness_HealthEventsAct :
    up (serving []) ∧
    (fun _ => True) (serving []) ∧
    (fun s => s.paddock.caseOpen ≠ (true)) (serving []) ∧
    (fun s => s.paddock.tempHigh ≠ decide (1000000 > s.ri 0xB080 3 8)) (serving []) ∧
    (fun s => s.on = true) (serving []) ∧
    (fun s => s.on = false) (let s := serving []; { s with health := { s.health with running := false } }) ∧
    (fun s => s.paddock.wake = true ∧ (s.on = false ∨ s.paddock.wakeAt + 3276 ≤ s.paddock.clock)) (let s := serving []; { s with paddock := { s.paddock with wake := true, clock := 3276 } }) := by
  decide +kernel

theorem witness_SessionEventsAct :
    (fun s => cxRuns s ∧ lcAhead s = false ∧ dueOf (.writes (.session 0) 0 2 []) ∈ dueWrites s ∧
          (dueOf (.writes (.session 0) 0 2 [])).action.work.who = some ((.session 0 : ClientId), 0))
          (let s := serving []; { s with actions := { s.actions with due := [dueOf (.writes (.session 0) 0 2 [])] } }) ∧
    (fun s => cxRuns s ∧ s.dict.transfers.find? (fun x => x.client = (.session 0 : ClientId) && x.index = 0 && x.sub = 0) = some (⟨.session 0, 0, 0, [], 0⟩ : Transfer) ∧ (⟨.session 0, 0, 0, [], 0⟩ : Transfer).last + wallSec 10 < s.clock.timClk) (let s := serving []; { s with clock := { s.clock with timClk := 2500000001 }, dict := { s.dict with transfers := [⟨.session 0, 0, 0, [], 0⟩] } }) ∧
    (fun s => servesFn 0 s ∧ bit (s.rn 0x1100 6) 0 = true ∧ s.lay.base.isSome = true ∧ s.dict.sessions = [] ∧
          0 < s.rn 0x1100 2) (let s := serving [(0x1100, 6, 1), (0x1100, 2, 1)];
          { s with dict := { s.dict with sessions := [] }, lay := { s.lay with base := some ⟨[], [], [], [], [], 0, none, 128, 128, []⟩ } }) ∧
    (fun s => cxRuns s ∧ getAt none s.dict.sessions 0 = some (⟨0, .engineer, 0⟩ : Session) ∧
          (⟨0, .engineer, 0⟩ : Session).lastRequest + wallSec (s.rn 0x1100 3) ≤ s.clock.timClk)
          (let s := serving [(0x1100, 3, 1)]; { s with clock := { s.clock with timClk := 250000000 } }) ∧
    cxRuns (serving []) ∧
    (fun s => cxRuns s ∧ lcAhead s = false ∧ dueOf (.stepEnd 0) ∈ endsDue s ∧ (dueOf (.stepEnd 0)).action.work = .stepEnd 0)
          (let s := serving []; { s with actions := { s.actions with due := [dueOf (.stepEnd 0)] } }) := by
  decide +kernel

theorem witness_TimeAndLeadWritesAct :
    Takes (serving []) 0x2000 3 (leBytes 2 160) ∧
    Takes (serving []) 0x2000 7 [1] ∧
    Takes (serving []) 0x2010 1 [1] ∧
    Takes (serving []) 0x2011 0x0D (leBytes 12 1) ∧
    Takes (serving []) 0x2040 1 (leBytes 1 1) ∧
    Takes (serving []) 0x2040 2 (leBytes 4 1) ∧
    Takes (serving []) 0x2040 0x0A (leBytes 8 1) ∧
    Takes (let s := serving [(0x2040, 1, 3)]; s.setLead 0 { s.lead 0 with st := 4 }) 0x2040 0x15 [1] ∧
    Takes (serving []) 0x2040 0x0E (leBytes 8 1) ∧
    Takes (serving []) 0x2040 0x0F (leBytes 4 0x3F800000) ∧
    Takes (serving []) 0x2040 0x10 (leBytes 4 0x3F800000) := by
  repeat' first | exact takes_of _ _ _ _ (by decide +kernel) | apply And.intro

theorem witness_BusWritesAct :
    Takes (serving []) 0x3018 3 (leBytes 8 1) ∧
    Takes (serving []) 0x3018 4 (leBytes 8 1) ∧
    Takes (serving [(0x3800, 1, 1)]) 0x3800 0xA (leBytes 1 1) ∧
    Takes (serving [(0x3800, 1, 1)]) 0x3800 0x0D (leBytes 8 1) ∧
    Takes (let s := serving []; { s with na := { s.na with st := 2 } }) 0x3060 3 [1] ∧
    Takes (serving []) 0x3080 2 [1] := by
  repeat' first | exact takes_of _ _ _ _ (by decide +kernel) | apply And.intro

theorem witness_ChannelWritesAct :
    Takes (serving [(0x4000, 1, 1)]) 0x4000 3 [1] ∧
    Takes (serving [(0x4000, 1, 1)]) 0x4000 3 [0] ∧
    Takes (serving [(0x4000, 1, 1)]) 0x4000 0x19 (leBytes 2 1) ∧
    Takes (serving []) 0xF400 8 [0] ∧
    Takes (serving []) 0xF400 8 [1] ∧
    Takes (serving []) 0xF400 8 [2] := by
  repeat' first | exact takes_of _ _ _ _ (by decide +kernel) | apply And.intro

theorem witness_AxisWritesAct :
    Takes (serving [(0x5000, 1, 1)]) 0x5000 3 [1] ∧
    Takes (serving [(0x5000, 1, 1)]) 0x5000 3 [0] ∧
    Takes (let s := serving [(0x5000, 1, 1)]; s.setAxis 0 { s.axis 0 with st := axStandstill }) 0x5000 0x1C (commandRecord 1 (⟨0, 0, 0, 0, 0, 0, 0, 0⟩ : AxisCmd)) ∧
    Takes (let s := serving [(0x5000, 1, 1)]; s.setAxis 0 { s.axis 0 with st := axStandstill }) 0x5000 0x1C (commandRecord 2 (⟨0, 0, 0, 0, 0, 0, 0, 0⟩ : AxisCmd)) ∧
    Takes (let s := serving [(0x5000, 1, 1)]; s.setAxis 0 { s.axis 0 with st := axStandstill }) 0x5000 0x1C (commandRecord 3 (⟨0, 0, 0, 0, 0, 0, 0, 0⟩ : AxisCmd)) ∧
    Takes (let s := serving [(0x5000, 1, 1)]; s.setAxis 0 { s.axis 0 with st := axMoving }) 0x5000 0x1C (commandRecord 4 (⟨0, 0, 0, 0, 0, 0, 0, 0⟩ : AxisCmd)) ∧
    Takes (let s := serving [(0x5000, 1, 1)]; s.setAxis 0 { s.axis 0 with st := axStandstill }) 0x5000 0x1C (commandRecord 5 (⟨0, 0, 0, 0, 0, 1, 1, 1⟩ : AxisCmd)) ∧
    Takes (let s := serving [(0x5000, 1, 1)]; s.setAxis 0 { s.axis 0 with st := axGeared }) 0x5000 0x1C (commandRecord 6 (⟨0, 0, 0, 0, 0, 1, 1, 0⟩ : AxisCmd)) ∧
    Takes (let s := serving [(0x5000, 1, 1)]; s.setAxis 0 { s.axis 0 with st := axGeared }) 0x5000 0x1C (commandRecord 7 (⟨0, 0, 0, 0, 0, 0, 0, 0⟩ : AxisCmd)) ∧
    Takes (let s := serving [(0x5000, 1, 1)]; s.setAxis 0 { s.axis 0 with st := axFault }) 0x5000 0x1C (commandRecord 8 (⟨0, 0, 0, 0, 0, 0, 0, 0⟩ : AxisCmd)) ∧
    Takes (serving [(0x5800, 1, 1)]) 0x5800 4 (groupRecordBytes 1 []) ∧
    Takes (serving [(0x5800, 1, 1)]) 0x5800 4 (groupRecordBytes 2 []) ∧
    Takes (let s := serving [(0x5800, 1, 1)]; s.setGroup 0 { s.group 0 with st := 1 }) 0x5800 4 (groupRecordBytes 4 []) := by
  repeat' first | exact takes_of _ _ _ _ (by decide +kernel) | apply And.intro

theorem witness_LocalWritesAct :
    Takes (serving []) 0x7400 0x0B [1] ∧
    Takes (serving []) 0x7500 6 (leBytes 2 1) ∧
    Takes (serving []) 0x7520 0x0A (leBytes 8 1) ∧
    Takes (let s := serving [(0x5000, 1, 1), (0x5000, 4, 1), (0x5000, 5, 0), (0x7580, 19, 1), (0x5A00, 1, 2)]; s.setAxis 0 { s.axis 0 with st := axStandstill }) 0x5A00 0x0C [1] := by
  repeat' first | exact takes_of _ _ _ _ (by decide +kernel) | apply And.intro

theorem witness_FieldWritesAct :
    Takes (serving [(0x6200, 1, 5)]) 0x6200 0x0B [1] ∧
    Takes (serving []) 0x6200 1 [1] ∧
    Takes (serving []) 0x6200 5 (leBytes 8 1) ∧
    Takes (serving []) 0x6100 1 [1] ∧
    Takes (serving []) 0x6300 1 [1] ∧
    Takes (serving []) 0x7008 1 [1] ∧
    Takes (serving []) 0x7300 3 [1] ∧
    Takes (serving []) 0x7300 9 [1] := by
  repeat' first | exact takes_of _ _ _ _ (by decide +kernel) | apply And.intro

theorem witness_ProgramWritesAct :
    Takes (serving [(0x8000, 1, 1), (0x8000, 5, 1)]) 0x8000 3 [1] ∧
    Takes (serving [(0x8000, 1, 2)]) 0x8000 3 [2] ∧
    Takes (serving [(0x8000, 1, 2), (0x8000, 8, 1)]) 0x8000 4 [1] ∧
    Takes (serving [(0x8000, 1, 3)]) 0x8000 4 [2] ∧
    Takes (serving [(0x8000, 1, 3)]) 0x8000 4 [3] ∧
    Takes (let s := serving [(0x8000, 1, 1)]; s.setProg { s.prog with xst := bkPrepared }) 0x8010 5 [1] ∧
    Takes (let s := serving [(0x8000, 1, 2)]; s.setProg { s.prog with xst := bkPrepared }) 0x8010 5 [2] ∧
    Takes (let s := serving [(0x8000, 1, 1)]; s.setProg { s.prog with xst := bkPrepared }) 0x8010 5 [3] ∧
    Takes (serving []) 0x8010 5 [4] ∧
    Takes (serving [(0x8000, 1, 1)]) 0x8020 0x0A [1] ∧
    Takes (serving [(0x8000, 1, 1)]) 0x8020 0x0A [2] ∧
    Takes (let s := serving [(0x8000, 1, 2)]; s.setTask 0 { s.task 0 with decl := some ⟨0, 1, 1, 1, 0, 0, [], 0, 0, 0, 1, 0xFFFF, 0xFF, 0xFF⟩, halted := true }) 0x8100 0x1B [1] ∧
    Takes (let s := serving [(0x8000, 1, 2)]; s.setTask 0 { s.task 0 with decl := some ⟨0, 1, 1, 1, 0, 0, [], 0, 0, 0, 1, 0xFFFF, 0xFF, 0xFF⟩, halted := true }) 0x8100 0x1A [1] ∧
    Takes (let s := serving [(0x8000, 1, 2)]; s.setTask 0 { s.task 0 with decl := some ⟨0, 1, 1, 1, 0, 0, [], 0, 0, 0, 1, 0xFFFF, 0xFF, 0xFF⟩, halted := true }) 0x8100 8 ((List.replicate 16 (0 : BitVec 64)).flatMap fun p => leBytes 8 p.toNat) ∧
    Takes (let s := serving [(0x8000, 1, 2)]; s.setTask 0 { s.task 0 with decl := some ⟨0, 1, 1, 1, 0, 0, [], 0, 0, 0, 1, 0xFFFF, 0xFF, 0xFF⟩, halted := true }) 0x8100 0x0C (leBytes 4 100000) ∧
    Takes (let s := serving []; s.setProg { s.prog with active := some { emptyImage with exports := [⟨0x8800, 1, 6, 0, 1, false, 0, [0], 0⟩] } }) 0x8800 1 [1] := by
  repeat' first | exact takes_of _ _ _ _ (by decide +kernel) | apply And.intro

theorem witness_OstlerAndRecorderWritesAct :
    Takes (serving []) 0xA000 0x0B ([1, 0, 0, 0, 255, 255, 255, 255]) ∧
    Takes (let s := serving [(0x4000, 1, 1)];
          (s.setChan 0 { s.chan 0 with placed := true, unit := 0 }).setUnit 1 { s.unit 1 with st := usIdle }) 0xA010 1 ([1, 1] ++ leBytes 2 0 ++ [1, 0, 0, 0]) ∧
    Takes (let s := serving []; s.setUnit 1 { s.unit 1 with st := usRetired }) 0xA010 1 ([2, 0, 0, 0, 1, 0, 0, 0]) ∧
    Takes (serving []) 0xA010 1 ([3, 0, 0, 0, 1, 0, 0, 0]) ∧
    Takes (serving []) 0xA010 1 ([4, 1, 0, 0, 0, 0, 0, 0]) ∧
    Takes (serving []) 0xA200 1 [1] ∧
    Takes (let s := serving []; (s.setSsd 0 { s.ssd 0 with st := 4 }).setSsd 1 { s.ssd 1 with st := 4 }) 0x9200 2 [1] ∧
    Takes (let s := serving []; s.setSsd 0 { s.ssd 0 with st := 2 }) 0x9200 2 [2] ∧
    Takes (let s := serving []; s.setSsd 0 { s.ssd 0 with st := 6 }) 0x9200 2 [3] := by
  repeat' first | exact takes_of _ _ _ _ (by decide +kernel) | apply And.intro

theorem witness_LayerAndHealthWritesAct :
    Takes (serving []) 0xC000 1 [255] ∧
    Takes (serving []) 0xC000 9 [1] ∧
    Takes (let s := serving []; { s with lay := { s.lay with bankSt := bkLoaded, bankKind := 2 } }) 0xC010 3 [1] ∧
    Takes (let s := serving []; { s with lay := { s.lay with bankSt := bkPrepared, bankKind := 2 } }) 0xC010 3 [2] ∧
    Takes (serving []) 0xC010 3 [4] ∧
    Takes (let s := serving []; { s with lay := { s.lay with ovl := some ⟨[], [(0, [0, 0, 1, 0] ++ List.replicate 44 0)]⟩ } }) 0xC200 2 [1] ∧
    Takes (let s := serving []; s.setSeq 0 { s.seq 0 with st := sqRunning }) 0xC200 2 [2] ∧
    Takes (let s := serving []; s.setSeq 0 { s.seq 0 with st := sqPaused }) 0xC200 2 [3] ∧
    Takes (let s := serving []; s.setSeq 0 { s.seq 0 with st := sqRunning }) 0xC200 2 [4] ∧
    Takes (let s := serving []; s.setSeq 0 { s.seq 0 with st := sqRunning }) 0xC200 2 [5] ∧
    Takes (let s := serving []; s.setHealth { s.health with pkgSt := bkLoaded }) 0xB030 2 [1] ∧
    Takes (let s := serving []; s.setHealth { s.health with pkg := some ⟨0, 0, [], []⟩, pkgSt := bkPrepared }) 0xB030 2 [2] ∧
    Takes (serving []) 0xB030 2 [3] ∧
    Takes (let s := serving []; s.setHealth { s.health with pkg := some ⟨0, 0, [], []⟩, pkgSt := bkPrepared }) 0xB030 2 [4] ∧
    Takes (let s := serving []; { (s.setHealth { s.health with pkg := some ⟨0, 0, [], []⟩, pkgSt := bkPrepared }) with nb := { s.nb with st := 1 } }) 0xB030 3 [7] ∧
    Takes (serving []) 0xB000 7 [1] ∧
    Takes (serving []) 0xB080 5 [1] ∧
    Takes (serving []) 0x7100 2 [1] := by
  repeat' first | exact takes_of _ _ _ _ (by decide +kernel) | apply And.intro

end Tests
end

section
/-! SUPPORT. The family of spec section 01: events of ticks, the timing reference, links and dies, and the writes of the entries for
the timing reference, the line cycle, time bases and Leads. First what `Does` and `Writes` need of a command, once for each guard
around its effect; then the statements. -/

namespace Sys2Proof.Machine

variable {c : Instr} {cond : State → Prop} {f effect : State → State}

/-- An event command has the named effect when its own function agrees with it under the guard. -/
theorem does_of_run (hexec : ∀ s, exec c s = run f s) (hf : ∀ s, cond s → f s = effect s) : Does c cond effect := by
  intro s hs
  rw [hexec s, run_eq, hf s hs]

/-- The same for an event that needs the module to run. -/
theorem does_of_whenOn (hexec : ∀ s, exec c s = run (whenOn f) s) (hon : ∀ s, cond s → s.on = true) : Does c cond f :=
  does_of_run hexec fun s hs => whenOn_on s f (hon s hs)

/-- The same for an event of AX. -/
theorem does_of_whenAx (hexec : ∀ s, exec c s = run (whenAx f) s) (hax : ∀ s, cond s → axRuns s) : Does c cond f :=
  does_of_run hexec fun s hs => whenAx_on s f (hax s hs).1 (hax s hs).2

/-- A number that n bytes hold is written as its n bytes. -/
theorem sized_of_lt {n v : Nat} (hv : v < 2 ^ (8 * n)) : sized n v = leBytes n v := if_pos hv

/-- A byte is written as itself. -/
theorem leBytes_one_toNat (v : Byte) : leBytes 1 v.toNat = [v] := by
  simp only [leBytes, BitVec.ofNat_toNat, BitVec.setWidth_eq]

/-- A command that puts a number into an entry whose size holds it writes the number's bytes there. -/
theorem writes_of_put {w : WriteCtx} {index sub n v : Nat} (hexec : ∀ s, exec c s = run (put w index sub n v) s)
    (hv : v < 2 ^ (8 * n)) : Writes c w index sub (leBytes n v) := by
  intro s hserved haccepted
  rw [hexec s, run_eq, put, sized_of_lt hv, serveWrite_accepted s w index sub (leBytes n v) hserved haccepted, afterWrite]

/-- A command that puts a byte into an entry writes that byte there. -/
theorem writes_of_put_byte {w : WriteCtx} {index sub : Nat} {v : Byte}
    (hexec : ∀ s, exec c s = run (put w index sub 1 v.toNat) s) : Writes c w index sub [v] := by
  rw [← leBytes_one_toNat v]
  exact writes_of_put hexec v.isLt

/-- A bad bulk flit is counted and nothing else changes (R31). -/
theorem bulkFlit_bad (s : State) (l : Link) : bulkFlit s l false =
    s.setLink (linkNum l) { s.link (linkNum l) with bulkRetries := (s.link (linkNum l)).bulkRetries + 1 } := rfl

end Sys2Proof.Machine

open Sys2Proof Sys2Proof.Machine

/-- Settles O35: each command runs its effect behind a guard that the module runs or that AX does, or behind
none, and the condition named gives that guard. -/
theorem tickReferenceAndLinkEventsAct : Obligations.TickReferenceAndLinkEventsAct := by
  unfold Obligations.TickReferenceAndLinkEventsAct
  refine ⟨?baseTick, ?lineCycle, ?refQualified, ?refLoss, ?trim, ?flit, ?bulk, ?failed, ?watchdog, ?die⟩
  case baseTick => exact does_of_run (fun _ => rfl) fun _ _ => rfl
  case lineCycle => exact does_of_run (fun _ => rfl) fun _ _ => rfl
  case refQualified => exact does_of_whenAx (fun _ => rfl) fun _ hax => hax
  case refLoss => exact does_of_whenAx (fun _ => rfl) fun _ hax => hax
  case trim => exact does_of_whenAx (fun _ => rfl) fun _ hax => hax
  case flit => exact fun l first second => does_of_whenOn (fun _ => rfl) fun _ hon => hon
  case bulk =>
    intro l
    refine does_of_run (f := whenOn fun s => bulkFlit s l false) (fun _ => rfl) fun s hon => ?_
    rw [whenOn_on s _ hon, bulkFlit_bad]
  case failed => exact fun l => does_of_whenOn (fun _ => rfl) fun _ ⟨hon, _, _⟩ => hon
  case watchdog => exact does_of_whenOn (fun _ => rfl) fun _ hon => hon
  case die => exact fun d => does_of_whenOn (fun _ => rfl) fun _ hon => hon

/-- Settles O52: each command puts a number of the entry's size (R74), so that an accepted write takes exactly its bytes. -/
theorem timeAndLeadWritesAct : Obligations.TimeAndLeadWritesAct := by
  unfold Obligations.TimeAndLeadWritesAct
  intro w
  refine ⟨?length, ?reference, ?mode, ?setTime, ?source, ?sourceInst, ?rereference, ?resume, ?velocity, ?acceleration, ?jerk⟩
  case length => exact fun v => writes_of_put (fun _ => rfl) v.isLt
  case reference => exact fun v => writes_of_put_byte fun _ => rfl
  case mode => exact fun n v => writes_of_put_byte fun _ => rfl
  case setTime => exact fun n v => writes_of_put (fun _ => rfl) v.isLt
  case source => exact fun n v hv => writes_of_put (fun _ => rfl) hv
  case sourceInst => exact fun n v => writes_of_put (fun _ => rfl) v.isLt
  case rereference => exact fun n v => writes_of_put (fun _ => rfl) v.isLt
  case resume => exact fun n => writes_of_put_byte (v := 1) fun _ => rfl
  case velocity => exact fun n v => writes_of_put (fun _ => rfl) v.isLt
  case acceleration => exact fun n v hv => writes_of_put (fun _ => rfl) hv
  case jerk => exact fun n v hv => writes_of_put (fun _ => rfl) hv

end

section
/-! SUPPORT. The family of spec section 02, the dictionary service. First what a request, a read and a refusal do to the state, and the
bytes of a message; then the statements. -/

namespace Sys2Proof.Machine

variable (s : State) (c : ClientId)

/-! A request as it is examined: only the software stamp, the session's idle time and the counter of free values differ. -/

/-- Examining a request writes the clock's stamps, the dictionary server's part and the counter of free values only (R73, R99). -/
theorem asked_frame : asked s c =
    { s with clock := (asked s c).clock, dict := (asked s c).dict, freeCtr := (asked s c).freeCtr } := by
  cases c with
  | session n =>
    cases h : getAt none s.dict.sessions n.val <;> simp only [asked, stampRequest, touch, h] <;> rfl
  | station a => rfl
  | program => rfl

/-- Of the dictionary server, examining a request writes the sessions only (R73). -/
theorem asked_dict : (asked s c).dict = { s.dict with sessions := (asked s c).dict.sessions } := by
  cases c with
  | session n =>
    cases h : getAt none s.dict.sessions n.val <;> simp only [asked, stampRequest, touch, h] <;> rfl
  | station a => rfl
  | program => rfl

@[simp] theorem asked_regs : (asked s c).regs = s.regs := by rw [asked_frame]
@[simp] theorem asked_sent : (asked s c).sent = s.sent := by rw [asked_frame]
@[simp] theorem asked_watches : (asked s c).dict.watches = s.dict.watches := by rw [asked_dict]
@[simp] theorem asked_transfers : (asked s c).dict.transfers = s.dict.transfers := by rw [asked_dict]

variable {s c} {m : DazMsg}

/-- A request of a live client within its limit is handled in the state in which it is examined, whatever the engines would answer
while CX is away. -/
theorem request_handled {op txn index sub count : Nat} {away : Option (List Byte)} {handle : State → State} (h : served s c) :
    request s c op txn index sub count away handle = handle (asked s c) := by
  obtain ⟨hlive, hcx, hlimit⟩ := h
  simp [request, hlive, hcx, hlimit]

/-- A well-formed message of a served client is handled (R74, R76). -/
theorem dazRequest_handled {op : Nat} {away : Option (List Byte)} {good : Bool} {handle : State → State} (h : served s c)
    (hheader : headerGood c m = true) (hgood : good = true) : dazRequest s c op m away good handle = handle (asked s c) := by
  rw [dazRequest, request_handled h, hheader, hgood]
  rfl

/-- A client that is there hears its answer. -/
theorem respond_of_hears {op txn index sub count abort : Nat} {data : List Byte} (h : hears s c = true) :
    respond s c op txn index sub count abort data = s.emit (.response c op txn index sub count abort data) := if_pos h

/-- An answer changes what is sent only. -/
theorem respond_frame (op txn index sub count abort : Nat) (data : List Byte) :
    respond s c op txn index sub count abort data = { s with sent := (respond s c op txn index sub count abort data).sent } := by
  unfold respond
  split <;> rfl

/-! Reads. -/

variable {op txn index sub : Nat}

/-- A read that nothing refuses takes the value and answers it (R77). -/
theorem serveRead_of_no_cause (hcauses : readCauses s index sub = []) (hlength : (peek s index sub).length ≤ messageLimit c) :
    serveRead s c op txn index sub =
      respond (take s index sub).2 c op txn index sub 1 abOk (take s index sub).1 := by
  simp [serveRead, hcauses, firstBy, hlength]

/-- A read that a cause of R65 refuses answers the cause's code. -/
theorem serveRead_of_cause {code : Nat} (hcause : firstBy ((readCauses s index sub).map fun a => (a, ())) = some (code, ())) :
    serveRead s c op txn index sub = respond s c op txn index sub 1 code [] := by
  simp [serveRead, hcause]

/-- The entries that a read empties: the records of a capture line (R306) and the words of a stream FIFO (R462). -/
def emptiedByRead (index sub : Nat) : Prop :=
  (0x7520 ≤ index ∧ index < 0x7530 ∧ sub = 7) ∨ (0x9100 ≤ index ∧ index < 0x9200 ∧ sub = 9)

/-- A read of any other entry takes nothing but a free value for what is measured. -/
theorem take_of_not_emptied (h : ¬ emptiedByRead index sub) :
    take s index sub = (peek { s with freeCtr := s.freeCtr + 1 } index sub, { s with freeCtr := s.freeCtr + 1 }) := by
  simp only [emptiedByRead, not_or] at h
  obtain ⟨hcapture, hfifo⟩ := h
  simp [take, and_assoc, hcapture, hfifo]

/-- A read of such an entry, answered or refused, changes what is sent and the counter of free values only. -/
theorem serveRead_frame (h : ¬ emptiedByRead index sub) : serveRead s c op txn index sub =
    { s with sent := (serveRead s c op txn index sub).sent, freeCtr := (serveRead s c op txn index sub).freeCtr } := by
  simp only [serveRead]
  split
  · rw [respond_frame]
  · split
    · rw [respond_frame]
    · rw [take_of_not_emptied h, respond_frame]

/-- Where its function does not serve, NOT_READY is the first of the causes that refuse a read of an entry that is there (R65, R68). -/
theorem readCauses_of_not_serving (hserves : servesIndex s index = false) (hindex : indexDefined s index = true)
    (hentry : (entryDef s index sub).isSome = true) (hword : sub ≠ 0 ∨ isFirstEntry index = false) :
    firstBy ((readCauses s index sub).map fun a => (a, ())) = some (abNotReady, ()) := by
  have hplain : (sub = 0 && isFirstEntry index) = false := by
    obtain hsub | hfirst := hword
    · simp [hsub]
    · simp [hfirst]
  have haccess : accessCauses s index sub = abNotReady :: codeIf (!declaredHere s index sub) abUndeclared := by
    obtain ⟨e, he⟩ := Option.isSome_iff_exists.mp hentry
    simp [accessCauses, hindex, he, hserves, codeIf]
  rw [readCauses, hplain, haccess]
  cases declaredHere s index sub <;> cases (entryDef s index sub).any fun e => e.acc = .wo <;> rfl

/-- The first entry of a function belongs to one. -/
theorem functionOf_of_isFirstEntry (h : isFirstEntry index = true) : ∃ k, functionOf index = some k := by
  rw [← Option.isSome_iff_exists, functionOf, List.findIdx?_isSome, List.any_eq_true]
  obtain ⟨r, hr, hlo⟩ := List.any_eq_true.mp h
  refine ⟨r, hr, ?_⟩
  have hle : ∀ r ∈ functionRanges, r.1 ≤ r.2 := by decide
  have hrange := hle r hr
  simp_all

/-- Subindex 00 of a function's first entry is its readiness word, as a read gives it (R67). -/
theorem peek_readiness {k : Nat} (hfirst : isFirstEntry index = true) (hk : functionOf index = some k) :
    peek s index 0 = leBytes 4 (readinessWord s k) := by
  simp [peek, readyBytes, hfirst, hk]

/-- A readiness word is answered whether or not its function serves (R68). -/
theorem serveRead_readiness {k : Nat} (hfirst : isFirstEntry index = true) (hk : functionOf index = some k) :
    serveRead s c op txn index 0 =
      respond { s with freeCtr := s.freeCtr + 1 } c op txn index 0 1 abOk (leBytes 4 (readinessWord s k)) := by
  have hcauses : readCauses s index 0 = [] := by simp [readCauses, hfirst]
  have hlength : (peek s index 0).length ≤ messageLimit c := by
    rw [peek_readiness hfirst hk]
    cases c <;> simp [leBytes, messageLimit]
  have hplain : ¬ emptiedByRead index 0 := by simp [emptiedByRead]
  rw [serveRead_of_no_cause hcauses hlength, take_of_not_emptied hplain, peek_readiness hfirst hk]
  rfl

/-! Bytes of a message. -/

@[simp] theorem leBytes_length (n v : Nat) : (leBytes n v).length = n := by
  induction n generalizing v with
  | zero => rfl
  | succ n ih => simp [leBytes, ih]

/-- A number that n bytes hold is read from its n bytes. -/
theorem leNat_leBytes {n v : Nat} (h : v < 256 ^ n) : leNat (leBytes n v) = v := by
  induction n generalizing v with
  | zero => simp_all [leBytes, leNat]
  | succ n ih =>
    have hrest : v / 256 < 256 ^ n := by
      rw [Nat.div_lt_iff_lt_mul (by decide)]
      simpa [Nat.pow_succ] using h
    simp only [leBytes, leNat, ih hrest, BitVec.toNat_ofNat]
    omega

/-- A field of n bytes is read where it stands in a message. -/
theorem leNat_slice {b pre rest : List Byte} {k n v : Nat} (hb : b = pre ++ leBytes n v ++ rest) (hk : pre.length = k)
    (hv : v < 256 ^ n) : leNat (slice b k n) = v := by
  have hslice : slice b k n = leBytes n v := by simp [slice, hb, ← hk]
  rw [hslice, leNat_leBytes hv]

/-! Refusals of a write. -/

/-- A counter writes its register, and a free value where it passes its last. -/
theorem bump_frame (i j : Nat) : s.bump i j = { s with regs := (s.bump i j).regs, freeCtr := (s.bump i j).freeCtr } := by
  simp only [State.bump, State.countBy]
  split <;> rfl

/-- A counter leaves every other register. -/
theorem rn_bump_ne {i j i' j' : Nat} (h : regKey i' j' ≠ regKey i j) : (s.bump i j).rn i' j' = s.rn i' j' := by
  simp only [State.bump, State.countBy]
  split <;> rw [State.rn_setNum_ne _ _ _ _ _ _ h]
  rfl

/-- A refusal that is no enable without room leaves a count of a past-due action behind, or nothing (R125, R381). -/
theorem noteWriteRefusal_cases {code : Nat} (e : Elem) (hplace : code ≠ abPlacementRefused) (hprofiler : code ≠ abNoProfiler) :
    noteWriteRefusal s code e = s.bump 0x2050 6 ∨ noteWriteRefusal s code e = s := by
  by_cases hpast : code = abPastDue
  · exact .inl (if_pos hpast)
  · exact .inr (by simp [noteWriteRefusal, hpast, hplace, hprofiler])

theorem noteWriteRefusal_frame {code : Nat} (e : Elem) (hplace : code ≠ abPlacementRefused) (hprofiler : code ≠ abNoProfiler) :
    noteWriteRefusal s code e =
      { s with regs := (noteWriteRefusal s code e).regs, freeCtr := (noteWriteRefusal s code e).freeCtr } := by
  obtain hcount | hnothing := noteWriteRefusal_cases (s := s) e hplace hprofiler
  · rw [hcount]
    exact bump_frame _ _
  · rw [hnothing]

theorem rn_noteWriteRefusal {code i j : Nat} (e : Elem) (hplace : code ≠ abPlacementRefused) (hprofiler : code ≠ abNoProfiler)
    (hkey : regKey i j ≠ regKey 0x2050 6) : (noteWriteRefusal s code e).rn i j = s.rn i j := by
  obtain hcount | hnothing := noteWriteRefusal_cases (s := s) e hplace hprofiler
  · rw [hcount, rn_bump_ne hkey]
  · rw [hnothing]

/-- Whether a client hears an answer rests on the sessions. -/
theorem hears_congr {t : State} (h : t.dict = s.dict) : hears t c = hears s c := by
  cases c <;> simp [hears, h]

/-! What needs CX, and the requests by their opcode. -/

/-- An event of CX has its effect where CX computes. -/
theorem does_of_whenCx {i : Instr} {cond : State → Prop} {f effect : State → State} (hexec : ∀ s, exec i s = run (whenCx f) s)
    (hcx : ∀ s, cond s → cxRuns s) (hf : ∀ s, cond s → f s = effect s) : Does i cond effect :=
  does_of_run hexec fun s hs => (whenCx_on s f (hcx s hs).1 (hcx s hs).2).trans (hf s hs)

/-- A well-formed READ of a served client is handled. -/
theorem dazRead_handled (h : served s c) (hheader : headerGood c m = true) (hcount : m.count = 1) (hsched : schedFlag m = false)
    (hdata : m.data = []) :
    dazRead s c m = serveRead (asked s c) c 1 m.txn.toNat m.index.toNat m.sub.toNat :=
  dazRequest_handled h hheader (by simp [hcount, hsched, hdata])

/-- A READ that nothing refuses is answered with the value (R77). -/
theorem serveRead_readable (h : readable s c index sub) : serveRead (asked s c) c 1 txn index sub = afterRead s c txn index sub :=
  serveRead_of_no_cause h.1 h.2

/-- A well-formed segment of a served client is handled for the entry that its command names. -/
theorem segmentOf_handled (h : served s c) (hheader : headerGood c m = true) (hcount : m.count = 1) (hsched : schedFlag m = false)
    (hlength : 4 ≤ m.data.length) : segmentOf s c m index sub =
      serveSegment (asked s c) c m.txn.toNat index sub (leNat (slice m.data 0 4)) (m.data.drop 4) (lastFlag m) := by
  have hflag : bit m.flags.toNat 1 = false := hsched
  exact dazRequest_handled (m := { m with index := BitVec.ofNat 16 index, sub := BitVec.ofNat 8 sub }) h hheader
    (by simp [schedFlag, hlength, hcount, hflag])

/-- The first segment of a transfer, not its last, is kept and answered (R79). -/
theorem segmentOf_takesSegment (h : takesSegment c m index sub s) : segmentOf s c m index sub = keptSegment s c m index sub := by
  obtain ⟨hheader, hcount, hsched, hlast, hlength, hserved, htransfers, -, hcauses⟩ := h
  rw [segmentOf_handled hserved hheader hcount hsched hlength]
  simp [serveSegment, htransfers, hcauses, firstBy, hlast, keptSegment, dropTransfer]

/-- A well-formed INFO of a served client is handled. -/
theorem dazInfo_handled (h : served s c) (hheader : headerGood c m = true) (hcount : m.count = 1) (hsched : schedFlag m = false)
    (hdata : m.data = []) : dazInfo s c m = serveInfo (asked s c) c m.txn.toNat m.index.toNat m.sub.toNat :=
  dazRequest_handled h hheader (by simp [hcount, hsched, hdata])

/-- A well-formed WATCH of a served client is handled. -/
theorem dazWatch_handled (h : served s c) (hheader : headerGood c m = true) (hcount : m.count = 1) (hsched : schedFlag m = false)
    (hdata : m.data = []) : dazWatch s c m = serveWatch (asked s c) c m.txn.toNat m.index.toNat m.sub.toNat :=
  dazRequest_handled h hheader (by simp [hcount, hsched, hdata])

/-- The most bytes of one message are a number of 4 bytes (R81, R82). -/
theorem messageLimit_lt (c : ClientId) : messageLimit c < 256 ^ 4 := by
  cases c <;> simp [messageLimit]

/-- A well-formed READ_SEGMENT of a served client is handled for the part that its offset and length name. -/
theorem dazReadSegment_handled {off len : Nat} (h : served s c) (hheader : headerGood c m = true) (hcount : m.count = 1)
    (hsched : schedFlag m = false) (hoff : off < 2 ^ 32) (hlen : len + 4 ≤ messageLimit c)
    (hdata : m.data = leBytes 4 off ++ leBytes 4 len) :
    dazReadSegment s c m = serveReadSegment (asked s c) c m.txn.toNat m.index.toNat m.sub.toNat off len := by
  have hlimit := messageLimit_lt c
  have hoffset : leNat (slice m.data 0 4) = off := leNat_slice (pre := []) hdata rfl (by omega)
  have hlength : leNat (slice m.data 4 4) = len := leNat_slice (rest := []) (by simp [hdata]) (leBytes_length 4 off) (by omega)
  rw [dazReadSegment, dazRequest_handled h hheader (by simp [hdata, hcount, hsched]), hoffset, hlength]

/-- A well-formed CANCEL of a served client is handled for the TRANSACTION that it names. -/
theorem dazCancel_handled {n : BitVec 16} (h : served s c) (hheader : headerGood c m = true) (hcount : m.count = 1)
    (hsched : schedFlag m = false) (hdata : m.data = leBytes 2 n.toNat) :
    dazCancel s c m = serveCancel (asked s c) c m.txn.toNat m.index.toNat m.sub.toNat n.toNat := by
  have htarget : leNat m.data = n.toNat := by rw [hdata, leNat_leBytes n.isLt]
  rw [dazCancel, dazRequest_handled h hheader (by simp [hdata, hcount, hsched]), htarget]

/-- A well-formed WRITE of a served client without an apply block is handled. -/
theorem dazWrite_handled (h : served s c) (hheader : headerGood c m = true) (hcount : m.count = 1) (hsched : schedFlag m = false) :
    dazWrite s c m = writeElems (asked s c) 2 c m.txn.toNat none [⟨m.index.toNat, m.sub.toNat, .oct m.data⟩] [] := by
  rw [dazWrite, dazRequest_handled h hheader (by simp [hcount, hsched])]
  simp [hsched]

/-- A WRITE_MULTI of a served client without an apply block, whose header names its first element, is handled. -/
theorem dazWriteMulti_handled {l : List Elem} (h : served s c) (hheader : headerGood c m = true) (hsched : schedFlag m = false)
    (helems : takeElems m.count.toNat m.data = some l)
    (hhead : (l.head?.map fun e => (e.index, e.sub)) = some (m.index.toNat, m.sub.toNat)) :
    dazWriteMulti s c m = writeElems (asked s c) 4 c m.txn.toNat none l [] := by
  rw [dazWriteMulti, dazRequest_handled h hheader (by simp [hsched, helems, ← hhead])]
  simp [hsched, helems]

/-- A READ_MULTI of a served client with one descriptor, that of its header, is handled. -/
theorem dazReadMulti_handled (h : served s c) (hheader : headerGood c m = true) (hcount : m.count = 1) (hsched : schedFlag m = false)
    (hdata : m.data = leBytes 2 m.index.toNat ++ leBytes 1 m.sub.toNat ++ [0, 0, 0, 0, 0]) :
    dazReadMulti s c m = serveReadMulti (asked s c) c m.txn.toNat [(m.index.toNat, m.sub.toNat)] := by
  have hindex : leNat (slice m.data 0 2) = m.index.toNat :=
    leNat_slice (pre := []) (rest := leBytes 1 m.sub.toNat ++ [0, 0, 0, 0, 0]) (by simp [hdata]) rfl m.index.isLt
  have hsub : leNat (slice m.data 2 1) = m.sub.toNat :=
    leNat_slice (pre := leBytes 2 m.index.toNat) hdata (leBytes_length _ _) m.sub.isLt
  have hreserved : leNat (slice m.data 3 1) = 0 :=
    leNat_slice (pre := leBytes 2 m.index.toNat ++ leBytes 1 m.sub.toNat) (v := 0) (rest := [0, 0, 0, 0]) hdata (by simp) (by decide)
  have hsize : m.data.length = 8 := by simp [hdata]
  have hlist : takeDescs m.count.toNat m.data = [(m.index.toNat, m.sub.toNat)] := by
    simp [hcount, takeDescs, hindex, hsub]
  rw [dazReadMulti, hlist, dazRequest_handled h hheader (by simp [hsize, hcount, hsched, hreserved])]

/-! Requests that nothing refuses. -/

/-- An INFO that nothing refuses answers the entry's record (R571). -/
theorem serveInfo_of_no_cause {e : Entry} (hcauses : accessCauses s index sub = []) (hentry : entryDef s index sub = some e) :
    serveInfo s c txn index sub = respond s c 7 txn index sub 1 abOk (infoRecord s index sub e) := by
  simp [serveInfo, hcauses, firstBy, hentry]

/-- A READ_SEGMENT that nothing refuses answers its offset and the part of the value from there (R77). -/
theorem serveReadSegment_of_no_cause {off len : Nat} (hcauses : readCauses s index sub = []) (hlen : len + 4 ≤ messageLimit c)
    (hwithin : off ≤ (peek s index sub).length) :
    serveReadSegment s c txn index sub off len = respond (take s index sub).2 c 5 txn index sub 1 abOk
      (leBytes 4 off ++ ((take s index sub).1.drop off).take len) := by
  simp [serveReadSegment, hcauses, firstBy, Nat.not_lt.mpr hlen, Nat.not_lt.mpr hwithin]

/-- A READ_MULTI of one entry that nothing refuses answers the element with its value (R77). -/
theorem serveReadMulti_single (hcauses : readCauses s index sub = [])
    (hlimit : (elementBytes index sub (peek s index sub)).length ≤ messageLimit c) :
    serveReadMulti s c txn [(index, sub)] = respond (take s index sub).2 c 3 txn index sub 1 abOk
      (elementBytes index sub (take s index sub).1) := by
  simp [serveReadMulti, hcauses, firstBy, hlimit]

/-- A CANCEL of the only watch ends it (R77). -/
theorem serveCancel_watch {target : Nat} {w : Watch} (hwatches : s.dict.watches = [w]) (hclient : w.client = c)
    (htxn : w.txn = target) : serveCancel s c txn index sub target =
      respond { s with dict := { s.dict with watches := [] } } c 9 txn index sub 1 abOk [] := by
  simp [serveCancel, hwatches, hclient, htxn]

/-- A write that nothing refuses is accepted (R65). -/
theorem writeElems_of_no_cause {ap : Option Apply} {elems : List Elem} {extra : List Nat}
    (h : writeRefusal s c ap elems extra = none) : writeElems s op c txn ap elems extra = acceptWrite s op c txn ap elems := by
  rw [writeElems, h]

/-! What falls due for clients. -/

/-- A scheduled write at its boundary applies with the others of that boundary, after the changes of layers and the step ends
(R123, R494). -/
theorem scheduledDue_of_due {d : Due} (hcx : s.cxUp = true) (hahead : lcAhead s = false) (hdue : d ∈ dueWrites s)
    (hwho : d.action.work.who = some (c, txn)) : scheduledDue s c txn =
      (let t := stepEndsDue (applyFirst (applyFirst s isActivate false) isModeRequest false)
      applyDue t [] ((dueWrites t).filter fun d => !((boundaryOf d).any fun w => w.elems.any (isRwc t)))) := by
  have hany : ((dueWrites s).any fun d => d.action.work.who = some (c, txn)) = true :=
    List.any_eq_true.mpr ⟨d, hdue, decide_eq_true hwho⟩
  rw [scheduledDue, hcx, hahead, hany]
  rfl

/-- The end of a recipe step that is due ends every step that is (R498). -/
theorem stepEndFires_of_due {k : Nat} {d : Due} (hahead : lcAhead s = false) (hdue : d ∈ endsDue s)
    (hwork : d.action.work = .stepEnd k) : stepEndFires s k = stepEndsDue s := by
  have hany : ((endsDue s).any fun d => d.action.work = .stepEnd k) = true :=
    List.any_eq_true.mpr ⟨d, hdue, decide_eq_true hwork⟩
  simp [stepEndFires, hahead, hany]

/-- A transfer without a segment for more than 10 s is abandoned (R74, R79). -/
theorem segmentTimeout_of_late {t : Transfer}
    (hfind : (s.dict.transfers.find? fun t => t.client = c && t.index = index && t.sub = sub) = some t)
    (hlate : t.last + wallSec 10 < s.clock.timClk) : segmentTimeout s c index sub =
      { s with dict := { s.dict with
        transfers := s.dict.transfers.filter fun t => !(t.index = index && t.sub = sub),
        abandoned := s.dict.abandoned ++ [(c, index, sub)] } } := by
  simp [segmentTimeout, hfind, hlate, dropTransfer]

/-- A session without a request for the idle timeout closes (R73). -/
theorem idleSession_of_idle {n : Fin 16} {x : Session} (hsession : getAt none s.dict.sessions n.val = some x)
    (hidle : x.lastRequest + wallSec (s.rn 0x1100 3) ≤ s.clock.timClk) :
    idleSession s n = (endSession s n.val).emit (.closed (.session n)) := by
  simp [idleSession, hsession, hidle]

/-- The first client of a served module with a base configuration gets session 0 with the one role of its certificate (R63, R82). -/
theorem openSession_first {uplink : Nat} {r : Role} (hserves : servesFn 0 s) (huplink : bit (s.rn 0x1100 6) uplink = true)
    (hbase : s.lay.base.isSome = true) (hnone : s.dict.sessions = []) (hroom : 0 < s.rn 0x1100 2) :
    openSession s uplink true [r] =
      { s with dict := { s.dict with sessions := setAt s.dict.sessions 0 (some ⟨uplink, r, s.clock.timClk⟩) } } := by
  obtain ⟨hon, hcx, hready⟩ := hserves
  have hloaded : s.lay.base.isNone = false := by simpa using hbase
  simp [openSession, hon, hcx, hready, huplink, hloaded, hnone, hroom, getAt, List.range_succ_eq_map]

end Sys2Proof.Machine

open Sys2Proof Sys2Proof.Machine

/-- Settles O29: of the request, what its examination writes remains; of the refusal, the count of past-due actions, where it is one,
and the answer. -/
theorem refusedWriteLeavesTheEntry : Obligations.RefusedWriteLeavesTheEntry := by
  unfold Obligations.RefusedWriteLeavesTheEntry
  intro w index sub data code e hplace hprofiler s ⟨hserved, hrefused⟩
  refine ⟨serveWrite s w index.toNat sub.toNat data, rfl, ?_⟩
  rw [serveWrite_refused s w index.toNat sub.toNat data (code, e) hserved hrefused]
  have hnote := noteWriteRefusal_frame (s := asked s w.client) e hplace hprofiler
  refine ⟨?frame, ?clock, ?dict, ?registers, ?answer⟩
  case frame => rw [respond_frame, hnote, asked_frame]
  case clock => rw [respond_frame, hnote]
  case dict => rw [respond_frame, hnote]
  case registers =>
    intro i j hj hother
    have hkey : regKey i j ≠ regKey 0x2050 6 := by
      simp only [regKey]
      omega
    rw [respond_frame]
    calc (noteWriteRefusal (asked s w.client) code e).rn i j
        = (asked s w.client).rn i j := rn_noteWriteRefusal e hplace hprofiler hkey
      _ = s.rn i j := by simp only [State.rn, State.reg, asked_regs]
  case answer =>
    intro hhears
    have hdict : (noteWriteRefusal (asked s w.client) code e).dict = (asked s w.client).dict := by rw [hnote]
    rw [respond_of_hears ((hears_congr hdict).trans hhears), State.emit, hnote, asked_sent]

/-- Settles O30: NOT_READY comes first of the causes of a read, and the readiness word has none. -/
theorem functionNotReadyRefusesReads : Obligations.FunctionNotReadyRefusesReads := by
  unfold Obligations.FunctionNotReadyRefusesReads
  intro c m hheader hcount hsched hdata s ⟨hserved, hhears, hserves, hindex, hentry⟩
  refine ⟨dazRead s c m, rfl, ?_⟩
  rw [dazRead_handled hserved hheader hcount hsched hdata]
  by_cases hword : m.sub = 0 ∧ isFirstEntry m.index.toNat = true
  · obtain ⟨hsub, hfirst⟩ := hword
    obtain ⟨k, hk⟩ := functionOf_of_isFirstEntry hfirst
    have hsubNat : m.sub.toNat = 0 := by rw [hsub]; rfl
    rw [hsubNat, serveRead_readiness hfirst hk]
    rw [respond_of_hears (s := { asked s c with freeCtr := (asked s c).freeCtr + 1 }) hhears, State.emit, asked_sent]
    exact ⟨fun hplain => by simp_all, fun _ _ => ⟨k, hk, rfl⟩, by rw [asked_frame]⟩
  · have hplain : m.sub.toNat ≠ 0 ∨ isFirstEntry m.index.toNat = false := by
      rw [not_and_or, Bool.not_eq_true] at hword
      exact hword.imp_left fun hsub hzero => hsub (BitVec.eq_of_toNat_eq hzero)
    rw [serveRead_of_cause (readCauses_of_not_serving hserves hindex hentry hplain), respond_of_hears hhears, State.emit, asked_sent]
    exact ⟨fun _ => rfl, fun hsub hfirst => absurd ⟨hsub, hfirst⟩ hword, by rw [asked_frame]⟩

/-- Settles O31: a read of an entry that it does not empty writes what is sent and the counter of free values, its examination the
rest. -/
theorem readsLeaveTheMachine : Obligations.ReadsLeaveTheMachine := by
  unfold Obligations.ReadsLeaveTheMachine
  intro c m hheader hcount hsched hdata hcapture hfifo s hserved
  refine ⟨dazRead s c m, rfl, ?_⟩
  rw [dazRead_handled hserved hheader hcount hsched hdata]
  have hkept : ¬ emptiedByRead m.index.toNat m.sub.toNat := by
    rintro (⟨hlo, hhi, hsub⟩ | ⟨hlo, hhi, hsub⟩)
    · exact hcapture ⟨hlo, hhi, BitVec.eq_of_toNat_eq hsub⟩
    · exact hfifo ⟨hlo, hhi, BitVec.eq_of_toNat_eq hsub⟩
  rw [serveRead_frame hkept]
  exact ⟨by rw [asked_frame], rfl, rfl⟩

/-- Settles O7: the registers' store is empty at reset, so that each reads its default. -/
theorem resetState : Obligations.ResetState := by
  unfold Obligations.ResetState
  have hdefault : ∀ index sub, State.reset.reg index sub = defaultVal index sub := fun _ _ => rfl
  refine ⟨rfl, rfl, rfl, rfl, rfl, ?_, ?_, ?_, hdefault⟩ <;> rw [State.rn, hdefault] <;> decide

/-- Settles O8: each part named is one that `settle` takes from the command's own effect. -/
theorem reactionsLeaveTheRest : Obligations.ReactionsLeaveTheRest := by
  unfold Obligations.ReactionsLeaveTheRest
  intro old s
  refine ⟨?time, ?motion, ?field, ?recording, ?rest⟩
  case time => simp [settle]
  case motion => simp
  case field => simp
  case recording => simp
  case rest => simp

/-- Settles O49: each event's own tests are met by what its condition names. -/
theorem sessionEventsAct : Obligations.SessionEventsAct := by
  unfold Obligations.SessionEventsAct
  refine ⟨?scheduled, ?segment, ?opened, ?idle, ?closed, ?stepEnd⟩
  case scheduled =>
    intro c txn d
    refine does_of_run (fun _ => rfl) fun s ⟨⟨hon, hcx⟩, hahead, hdue, hwho⟩ => ?_
    exact (whenOn_on s _ hon).trans (scheduledDue_of_due hcx hahead hdue hwho)
  case segment =>
    exact fun c index sub t => does_of_whenCx (fun _ => rfl) (fun _ hs => hs.1) fun s ⟨_, hfind, hlate⟩ =>
      segmentTimeout_of_late hfind hlate
  case opened =>
    exact fun u r => does_of_whenCx (fun _ => rfl) (fun _ ⟨⟨hon, hcx, _⟩, _⟩ => ⟨hon, hcx⟩)
      fun s ⟨hserves, huplink, hbase, hnone, hroom⟩ => openSession_first hserves huplink hbase hnone hroom
  case idle =>
    exact fun n x => does_of_whenCx (fun _ => rfl) (fun _ hs => hs.1) fun s ⟨_, hsession, hidle⟩ => idleSession_of_idle hsession hidle
  case closed => exact fun n => does_of_whenCx (fun _ => rfl) (fun _ hs => hs) fun _ _ => rfl
  case stepEnd =>
    intro k d
    refine does_of_run (fun _ => rfl) fun s ⟨⟨hon, _⟩, hahead, hdue, hwork⟩ => ?_
    exact (whenOn_on s _ hon).trans (stepEndFires_of_due hahead hdue hwork)

/-- Settles O50: a well-formed request of a served client is handled where it is examined, and no test that comes before its effect
holds. -/
theorem dictionaryRequestsAct : Obligations.DictionaryRequestsAct := by
  unfold Obligations.DictionaryRequestsAct
  refine ⟨fun c m hheader hcount hsched => ⟨fun hdata => ⟨?read, ?info, ?watch⟩, ?readSegment, ?cancel, ?write⟩, ?writeMulti,
    ?readMulti, ?capture, ?fifo⟩
  case read =>
    exact does_of_run (fun _ => rfl) fun s ⟨hserved, hreadable⟩ =>
      (dazRead_handled hserved hheader hcount hsched hdata).trans (serveRead_readable hreadable)
  case info =>
    exact fun e => does_of_run (fun _ => rfl) fun s ⟨hserved, hcauses, hentry⟩ =>
      (dazInfo_handled hserved hheader hcount hsched hdata).trans (serveInfo_of_no_cause hcauses hentry)
  case watch =>
    exact does_of_run (fun _ => rfl) fun s ⟨hserved, _, _⟩ => dazWatch_handled hserved hheader hcount hsched hdata
  case readSegment =>
    exact fun off len hoff hlen hdata => does_of_run (fun _ => rfl) fun s ⟨hserved, hcauses, hwithin⟩ =>
      (dazReadSegment_handled hserved hheader hcount hsched hoff hlen hdata).trans (serveReadSegment_of_no_cause hcauses hlen hwithin)
  case cancel =>
    exact fun n w hdata => does_of_run (fun _ => rfl) fun s ⟨hserved, hwatches, hclient, htxn⟩ =>
      (dazCancel_handled hserved hheader hcount hsched hdata).trans
        (serveCancel_watch ((asked_watches s c).trans hwatches) hclient htxn)
  case write =>
    exact does_of_run (fun _ => rfl) fun s ⟨hserved, hrefusal⟩ =>
      (dazWrite_handled hserved hheader hcount hsched).trans (writeElems_of_no_cause hrefusal)
  case writeMulti =>
    exact fun c m l hheader hsched helems hhead => does_of_run (fun _ => rfl) fun s ⟨hserved, hrefusal⟩ =>
      (dazWriteMulti_handled hserved hheader hsched helems hhead).trans (writeElems_of_no_cause hrefusal)
  case readMulti =>
    exact fun c m hheader hcount hsched hdata => does_of_run (fun _ => rfl) fun s ⟨hserved, hcauses, hlimit⟩ =>
      (dazReadMulti_handled hserved hheader hcount hsched hdata).trans (serveReadMulti_single hcauses hlimit)
  case capture =>
    exact fun c txn k => does_of_run (fun _ => rfl) fun s ⟨hserved, hreadable⟩ =>
      (request_handled hserved).trans (serveRead_readable hreadable)
  case fifo =>
    exact fun c txn f => does_of_run (fun _ => rfl) fun s ⟨hserved, hreadable⟩ =>
      (request_handled hserved).trans (serveRead_readable hreadable)

/-- Settles O51: the four commands differ in the entry that their segments name. -/
theorem segmentsAct : Obligations.SegmentsAct := by
  unfold Obligations.SegmentsAct
  refine ⟨?plain, ?program, ?configuration, ?firmware⟩
  all_goals
    intro c m
    exact does_of_run (fun _ => rfl) fun s hs => segmentOf_takesSegment hs

end

section
/-! SUPPORT. The family of spec section 03, line time. First Lead positions on their circle and what a comparison over an interval
finds; then the statements. -/

namespace Sys2Proof.Machine

/-! Differences of 64-bit numbers (R101): the one representative of the difference between -2^63 and 2^63. -/

theorem diff64_bounds (a b : Nat) : -2 ^ 63 ≤ diff64 a b ∧ diff64 a b < 2 ^ 63 := by
  simp only [diff64, toSigned]
  split <;> omega

theorem diff64_emod (a b : Nat) : diff64 a b % 2 ^ 64 = ((a : Int) - b) % 2 ^ 64 := by
  simp only [diff64, toSigned]
  split <;> omega

/-- A number in this range that agrees with the difference modulo 2^64 is the difference. -/
theorem diff64_eq {a b : Nat} {d : Int} (hmod : ((a : Int) - b) % 2 ^ 64 = d % 2 ^ 64) (hlo : -2 ^ 63 ≤ d) (hhi : d < 2 ^ 63) :
    diff64 a b = d := by
  have hbounds := diff64_bounds a b
  have hemod := diff64_emod a b
  omega

/-! The comparison of a Lead that does not jump (R116). -/

variable {p target d : Nat}

/-- A number below 2^64 is read back as itself. -/
theorem ofSigned_natCast (hp : p < 2 ^ 64) : ofSigned 64 (p : Int) = p := by
  simp only [ofSigned]
  omega

theorem crossLead_forward_wait_iff {hi : Nat} {skip : Bool} (hp : p < 2 ^ 64) :
    crossLead p hi 0 skip target false = .wait ↔ ¬(0 < diff64 hi p ∧ 0 ≤ diff64 target p ∧ diff64 target hi < 0) := by
  simp [crossLead, ofSigned_natCast hp, and_assoc]

theorem crossLead_backward_wait_iff {hi : Nat} {skip : Bool} (hp : p < 2 ^ 64) :
    crossLead p hi 0 skip target true = .wait ↔ ¬(diff64 hi p < 0 ∧ 0 ≤ diff64 p target ∧ diff64 hi target < 0) := by
  simp [crossLead, ofSigned_natCast hp, and_assoc]

/-- How far a target lies ahead of a Lead that goes forward. -/
def gapForward (target p : Nat) : Nat := (target + 2 ^ 64 - p) % 2 ^ 64

/-- How far it lies ahead of one that goes backward. -/
def gapBackward (target p : Nat) : Nat := (p + 2 ^ 64 - target) % 2 ^ 64

/-- A step forward fires a target exactly where it is longer than the gap: the interval holds its lower end and not its upper. -/
theorem crossLead_forward_step (hp : p < 2 ^ 64) (ht : target < 2 ^ 64) (hpos : 0 < d) (hd : d < 2 ^ 63) :
    crossLead p ((p + d) % 2 ^ 64) 0 false target false = .wait ↔ d ≤ gapForward target p := by
  have hmove : diff64 ((p + d) % 2 ^ 64) p = d := diff64_eq (by omega) (by omega) (by omega)
  rw [crossLead_forward_wait_iff hp, hmove]
  have hlow := diff64_bounds target p
  have hhigh := diff64_bounds target ((p + d) % 2 ^ 64)
  have hlowMod := diff64_emod target p
  have hhighMod := diff64_emod target ((p + d) % 2 ^ 64)
  simp only [gapForward]
  omega

/-- The same backward. -/
theorem crossLead_backward_step (hp : p < 2 ^ 64) (ht : target < 2 ^ 64) (hpos : 0 < d) (hd : d < 2 ^ 63) :
    crossLead p ((p + 2 ^ 64 - d) % 2 ^ 64) 0 false target true = .wait ↔ d ≤ gapBackward target p := by
  have hmove : diff64 ((p + 2 ^ 64 - d) % 2 ^ 64) p = -d := diff64_eq (by omega) (by omega) (by omega)
  rw [crossLead_backward_wait_iff hp, hmove]
  have hlow := diff64_bounds p target
  have hhigh := diff64_bounds ((p + 2 ^ 64 - d) % 2 ^ 64) target
  have hlowMod := diff64_emod p target
  have hhighMod := diff64_emod ((p + 2 ^ 64 - d) % 2 ^ 64) target
  simp only [gapBackward]
  omega

/-- How many of consecutive steps fire a target that lies a gap ahead: the comparisons of both directions, seen from the gap. -/
def gapFires : Nat → List Nat → Nat
  | _, [] => 0
  | gap, d :: ds => (if d ≤ gap then 0 else 1) + gapFires ((gap + 2 ^ 64 - d) % 2 ^ 64) ds

/-- Once passed, the target lies at least half the range ahead, so that no later step reaches it again. -/
theorem gapFires_eq {gap : Nat} {steps : List Nat} (hgap : gap < 2 ^ 64) (hsum : steps.sum < 2 ^ 63) :
    gapFires gap steps = if gap < steps.sum then 1 else 0 := by
  induction steps generalizing gap with
  | nil => simp [gapFires]
  | cons d ds ih =>
    rw [List.sum_cons] at hsum ⊢
    have hrest := ih (gap := (gap + 2 ^ 64 - d) % 2 ^ 64) (by omega) (by omega)
    rw [gapFires, hrest]
    by_cases hreach : d ≤ gap
    · have hleft : (gap + 2 ^ 64 - d) % 2 ^ 64 < ds.sum ↔ gap < d + ds.sum := by omega
      simp only [hreach, hleft, if_true, Nat.zero_add]
    · have hpassed : ¬(gap + 2 ^ 64 - d) % 2 ^ 64 < ds.sum := by omega
      have hwithin : gap < d + ds.sum := by omega
      simp only [hreach, hpassed, hwithin, if_true, if_false]

theorem forwardFires_eq_gapFires {steps : List Nat} (hp : p < 2 ^ 64) (ht : target < 2 ^ 64) (hpos : ∀ d ∈ steps, 0 < d)
    (hsum : steps.sum < 2 ^ 63) : forwardFires target p steps = gapFires (gapForward target p) steps := by
  induction steps generalizing p with
  | nil => rfl
  | cons d ds ih =>
    rw [List.forall_mem_cons] at hpos
    rw [List.sum_cons] at hsum
    have hrest := ih (p := (p + d) % 2 ^ 64) (by omega) hpos.2 (by omega)
    have hgap : gapForward target ((p + d) % 2 ^ 64) = (gapForward target p + 2 ^ 64 - d) % 2 ^ 64 := by
      simp only [gapForward]
      omega
    simp only [forwardFires, gapFires, crossLead_forward_step hp ht hpos.1 (by omega), hrest, hgap]

theorem backwardFires_eq_gapFires {steps : List Nat} (hp : p < 2 ^ 64) (ht : target < 2 ^ 64) (hpos : ∀ d ∈ steps, 0 < d)
    (hsum : steps.sum < 2 ^ 63) : backwardFires target p steps = gapFires (gapBackward target p) steps := by
  induction steps generalizing p with
  | nil => rfl
  | cons d ds ih =>
    rw [List.forall_mem_cons] at hpos
    rw [List.sum_cons] at hsum
    have hrest := ih (p := (p + 2 ^ 64 - d) % 2 ^ 64) (by omega) hpos.2 (by omega)
    have hgap : gapBackward target ((p + 2 ^ 64 - d) % 2 ^ 64) = (gapBackward target p + 2 ^ 64 - d) % 2 ^ 64 := by
      simp only [gapBackward]
      omega
    simp only [backwardFires, gapFires, crossLead_backward_step hp ht hpos.1 (by omega), hrest, hgap]

/-! Past due (R118): the edge that a target must not lie behind, and on which side of it a target is past due. -/

variable {l : Lead}

theorem lateEdge_forward_moving (h : 0 < l.vel) : lateEdge l false = l.ahead 2 := if_pos h
theorem lateEdge_forward_standing (h : l.vel ≤ 0) : lateEdge l false = l.pos64 := if_neg (Int.not_lt.mpr h)
theorem lateEdge_backward_moving (h : l.vel < 0) : lateEdge l true = l.ahead 2 := if_pos h
theorem lateEdge_backward_standing (h : 0 ≤ l.vel) : lateEdge l true = l.pos64 := if_neg (Int.not_lt.mpr h)

variable {s : State} {n t : Nat}

/-- Forward, a target is past due behind the edge (R118). -/
theorem pastDue_lead_forward : pastDue s (.lead n t) false = true ↔ diff64 t (lateEdge (s.lead n) false) < 0 := by
  simp [pastDue]

/-- Backward, one at the edge is past due as well. -/
theorem pastDue_lead_backward : pastDue s (.lead n t) true = true ↔ 0 ≤ diff64 t (lateEdge (s.lead n) true) := by
  simp [pastDue]

/-! Whole laps (R119). -/

/-- A target moved by whole laps keeps its fraction. -/
theorem moveLaps_emod_lap (t k : Nat) (b : Bool) : moveLaps t k b % 2 ^ 32 = t % 2 ^ 32 := by
  cases b <;> simp only [moveLaps, ofSigned, Bool.false_eq_true, if_true, if_false] <;> omega

/-- How a target lies to an edge after it was moved forward, as long as it does not leave the half of the range on its side. -/
theorem diff64_moveLaps_forward {k e : Nat} (h : diff64 t e + k * 2 ^ 32 < 2 ^ 63) :
    diff64 (moveLaps t k false) e = diff64 t e + k * 2 ^ 32 := by
  have hbounds := diff64_bounds t e
  have hmod := diff64_emod t e
  refine diff64_eq ?_ (by omega) h
  simp only [moveLaps, Bool.false_eq_true, if_false]
  omega

/-- The same backward. -/
theorem diff64_moveLaps_backward {k e : Nat} (h : -2 ^ 63 ≤ diff64 t e - k * 2 ^ 32) :
    diff64 (moveLaps t k true) e = diff64 t e - k * 2 ^ 32 := by
  have hbounds := diff64_bounds t e
  have hmod := diff64_emod t e
  refine diff64_eq ?_ h (by omega)
  simp only [moveLaps, ofSigned, if_true]
  omega

/-- Forward, a past-due target is due again after the laps that `lapsToMove` counts, and after no fewer. -/
theorem pastDue_moveLaps_forward {k : Nat} (h : pastDue s (.lead n t) false = true) (hk : k ≤ lapsToMove s n t false) :
    pastDue s (.lead n (moveLaps t k false)) false = true ↔ k < lapsToMove s n t false := by
  rw [pastDue_lead_forward] at h ⊢
  have hbounds := diff64_bounds t (lateEdge (s.lead n) false)
  simp only [lapsToMove, Bool.false_eq_true, if_false] at hk ⊢
  rw [diff64_moveLaps_forward (by omega)]
  omega

/-- The same backward. -/
theorem pastDue_moveLaps_backward {k : Nat} (h : pastDue s (.lead n t) true = true) (hk : k ≤ lapsToMove s n t true) :
    pastDue s (.lead n (moveLaps t k true)) true = true ↔ k < lapsToMove s n t true := by
  rw [pastDue_lead_backward] at h ⊢
  have hbounds := diff64_bounds t (lateEdge (s.lead n) true)
  simp only [lapsToMove, if_true] at hk ⊢
  rw [diff64_moveLaps_backward (by omega)]
  omega

/-- In either direction. -/
theorem pastDue_moveLaps {b : Bool} {k : Nat} (h : pastDue s (.lead n t) b = true) (hk : k ≤ lapsToMove s n t b) :
    pastDue s (.lead n (moveLaps t k b)) b = true ↔ k < lapsToMove s n t b := by
  cases b with
  | false => exact pastDue_moveLaps_forward h hk
  | true => exact pastDue_moveLaps_backward h hk

/-- A target that is past due is moved by at least one lap. -/
theorem lapsToMove_pos {b : Bool} (h : pastDue s (.lead n t) b = true) : 1 ≤ lapsToMove s n t b := by
  cases b with
  | false =>
    rw [pastDue_lead_forward] at h
    simp only [lapsToMove, Bool.false_eq_true, if_false]
    omega
  | true =>
    rw [pastDue_lead_backward] at h
    simp only [lapsToMove, if_true]
    omega

end Sys2Proof.Machine

open Sys2Proof Sys2Proof.Machine

/-- Settles O9: in either direction the comparisons rest on the gap to the target alone, and a gap once passed is at least half the
range. -/
theorem leadCrossingFiresOnce : Obligations.LeadCrossingFiresOnce := by
  unfold Obligations.LeadCrossingFiresOnce
  intro p target steps hp ht hpos hsum
  rw [forwardFires_eq_gapFires hp ht hpos hsum, backwardFires_eq_gapFires hp ht hpos hsum]
  exact ⟨gapFires_eq (Nat.mod_lt _ (by decide)) hsum, gapFires_eq (Nat.mod_lt _ (by decide)) hsum⟩

/-- Settles O11: up to the laps that `lapsToMove` counts the moved target stays past due, and with them it no longer is. -/
theorem nextLapIsTheFirstLap : Obligations.NextLapIsTheFirstLap := by
  unfold Obligations.NextLapIsTheFirstLap
  intro s n t b _ hpast
  refine ⟨moveLaps_emod_lap t _ b, lapsToMove_pos hpast, ?_, fun k hk => (pastDue_moveLaps hpast hk.le).mpr hk⟩
  rw [← Bool.not_eq_true, pastDue_moveLaps hpast le_rfl]
  exact Nat.lt_irrefl _

end

section
/-! SUPPORT. The family of spec section 03, continued: the action table and time bases. First what a counter leaves alone, what an
action's acceptance and a step of a time base do to the table, and HOLDOVER; then the statements. -/

namespace Sys2Proof.Machine

variable (s : State) {i j : Nat}

/-! What a counter leaves alone, and what it counts. -/

@[simp] theorem bump_actions : (s.bump i j).actions = s.actions := by rw [bump_frame]
@[simp] theorem bump_clock : (s.bump i j).clock = s.clock := by rw [bump_frame]
@[simp] theorem bump_tbs : (s.bump i j).tbs = s.tbs := by rw [bump_frame]

/-- A counter that has not reached its last value counts one. -/
theorem rn_bump {s : State} (h : s.rn i j + 1 < 2 ^ 32) : (s.bump i j).rn i j = s.rn i j + 1 := by
  simp only [State.bump, State.countBy, if_pos h, State.rn_setNum]

/-- A register is read as the store of registers holds it. -/
theorem rn_congr {s t : State} (h : t.regs = s.regs) : t.rn i j = s.rn i j := by
  simp only [State.rn, State.reg, h]

/-! Acceptance (R118, R119). -/

/-- An action as the table takes it. -/
def accepts (k : ActionKind) (b : Bool) (attr : Nat) (rep : Bool) (w : Work) : Action :=
  ⟨s.actions.nextId, k, b, attr, rep, w, s.clock.tick, 0, 0⟩

@[simp] theorem accepts_kind (k : ActionKind) (b : Bool) (attr : Nat) (rep : Bool) (w : Work) :
    (accepts s k b attr rep w).kind = k := rfl
@[simp] theorem accepts_backward (k : ActionKind) (b : Bool) (attr : Nat) (rep : Bool) (w : Work) :
    (accepts s k b attr rep w).backward = b := rfl

/-- The state whose next action has the next number. -/
def withNextId : State := { s with actions := { s.actions with nextId := s.actions.nextId + 1 } }

/-- The number of the next action bears on nothing else. -/
@[simp] theorem withNextId_clock : (withNextId s).clock = s.clock := rfl
@[simp] theorem withNextId_armed : (withNextId s).actions.armed = s.actions.armed := rfl
@[simp] theorem withNextId_due : (withNextId s).actions.due = s.actions.due := rfl
@[simp] theorem rn_withNextId : (withNextId s).rn i j = s.rn i j := rfl
@[simp] theorem lateness_withNextId (k : ActionKind) (b : Bool) : lateness (withNextId s) k b = lateness s k b := by
  cases k <;> rfl

variable {s} {k : ActionKind} {b rep : Bool} {attr : Nat} {w : Work}

/-- What nothing refuses enters the table. -/
theorem armAction_of_ok (h : actionAbort s k b attr rep = abOk) : armAction s k b attr rep w = enterAction s k b attr rep w :=
  if_pos h

/-- What is past due under LATE_REJECT is counted and no more (R119, R125). -/
theorem armAction_of_pastDue (h : actionAbort s k b attr rep = abPastDue) : armAction s k b attr rep w = s.bump 0x2050 6 := by
  rw [armAction, h]
  rfl

/-- With room in the table, LATE_REJECT refuses what is past due before any other cause (R65). -/
theorem actionAbort_lateReject (hroom : s.actions.armed.length < 4096) (hpast : pastDue s k b = true) :
    actionAbort s k b 1 rep = abPastDue := by
  simp [actionAbort, Nat.not_le.mpr hroom, hpast]

/-- An action that is not past due is armed (R118). -/
theorem enterAction_of_not_pastDue (h : pastDue s k b = false) :
    enterAction s k b attr rep w = keepArmed (withNextId s) (accepts s k b attr rep w) :=
  if_neg (ne_true_of_eq_false h)

/-- A past-due action under LATE_FIRE fires late (R119). -/
theorem enterAction_lateFire (h : pastDue s k b = true) :
    enterAction s k b 0 rep w = fireLate (withNextId s) (accepts s k b 0 rep w) :=
  if_pos h

/-- A past-due target of a Lead under NEXT_LAP is moved (R119). -/
theorem enterAction_nextLap {n x : Nat} (h : pastDue s (.lead n x) b = true) :
    enterAction s (.lead n x) b 2 rep w = keepArmed ((withNextId s).bump 0x2050 7)
      { accepts s (.lead n (moveLaps x (lapsToMove s n x b) b)) b 2 rep w with
        status := statNextLap, laps := lapsToMove s n x b } :=
  if_pos h

/-- An action that fires late, due two base ticks after the present one with LATE set (R119). -/
def lateDue (tick : Nat) (a : Action) : Due := ⟨{ a with status := a.status + statLate }, tick + 2, 0⟩

theorem fireLate_actions (a : Action) :
    (fireLate s a).actions = { s.actions with due := s.actions.due ++ [lateDue s.clock.tick a] } := by
  simp [fireLate, lateDue]

@[simp] theorem fireLate_clock (a : Action) : (fireLate s a).clock = s.clock := by simp [fireLate]
@[simp] theorem fireLate_tbs (a : Action) : (fireLate s a).tbs = s.tbs := by simp [fireLate]

/-- A LATE_FIRE leaves its lateness in the registers and is counted (R125). -/
theorem fireLate_regs (a : Action) : (fireLate s a).regs =
    (((s.bump 0x2050 3).setNum 0x2050 4 ((lateness s a.kind a.backward).1 % 2 ^ 32)).setNum 0x2050 5
      ((lateness s a.kind a.backward).2 % 2 ^ 32)).regs := rfl

theorem rn_fireLate_time (a : Action) : (fireLate s a).rn 0x2050 4 = (lateness s a.kind a.backward).1 % 2 ^ 32 := by
  rw [rn_congr (fireLate_regs a), State.rn_setNum_ne _ _ _ _ _ _ (by decide), State.rn_setNum]

theorem rn_fireLate_distance (a : Action) : (fireLate s a).rn 0x2050 5 = (lateness s a.kind a.backward).2 % 2 ^ 32 := by
  rw [rn_congr (fireLate_regs a), State.rn_setNum]

theorem rn_fireLate_count (a : Action) (h : s.rn 0x2050 3 + 1 < 2 ^ 32) : (fireLate s a).rn 0x2050 3 = s.rn 0x2050 3 + 1 := by
  rw [rn_congr (fireLate_regs a), State.rn_setNum_ne _ _ _ _ _ _ (by decide), State.rn_setNum_ne _ _ _ _ _ _ (by decide), rn_bump h]

/-! A step of a time base (R122). -/

/-- Whether a step of time base n from one value to another passes an armed action. -/
def tbPasses (n old new : Nat) (a : Action) : Bool :=
  match a.kind with
  | .tb m t => m = n && decide (old ≤ t) && decide (t < new)
  | _ => false

/-- A passed action as if accepted now: refused under LATE_REJECT, fired late otherwise. -/
def handlePassed (s : State) (a : Action) : State :=
  if a.attr = 1 then answerWork (s.bump 0x2050 6) a.work abPastDue 0 0 else fireLate s a

/-- What a step does with one armed action. -/
def stepAction (n old new : Nat) (s : State) (a : Action) : State :=
  if tbPasses n old new a then handlePassed s a else keepArmed s a

/-- A step goes through the armed actions in their order. -/
theorem stepActions_eq_foldl (n old new : Nat) : stepActions s n old new =
    s.actions.armed.foldl (stepAction n old new) { s with actions := { s.actions with armed := [] } } := by
  have hone : ∀ (s : State) (a : Action), (match a.kind with
      | .tb m t => if m = n && decide (old ≤ t) && decide (t < new) then handlePassed s a else keepArmed s a
      | _ => keepArmed s a) = stepAction n old new s a := by
    intro s a
    cases h : a.kind <;> simp [stepAction, tbPasses, h]
  exact congrArg (fun f => s.actions.armed.foldl f _) (funext fun s => funext fun a => hone s a)

/-- An answer to a write changes what is sent only. -/
theorem answerAt_frame (c : ClientId) (txn op : Nat) (elems : List Elem) (abort tb0 status : Nat) :
    answerAt s c txn op elems abort tb0 status = { s with sent := (answerAt s c txn op elems abort tb0 status).sent } := by
  unfold answerAt
  cases hears s c <;> rfl

/-- So does the answer to the write that an action carries, if it carries one. -/
theorem answerWork_frame (w : Work) (abort tb0 status : Nat) :
    answerWork s w abort tb0 status = { s with sent := (answerWork s w abort tb0 status).sent } := by
  unfold answerWork
  split
  case h_5 => rfl
  all_goals exact answerAt_frame ..

/-- A passed action writes neither the clock nor a time base. -/
theorem handlePassed_clock (a : Action) : (handlePassed s a).clock = s.clock := by
  unfold handlePassed
  split
  · rw [answerWork_frame, bump_clock]
  · exact fireLate_clock a

theorem handlePassed_tbs (a : Action) : (handlePassed s a).tbs = s.tbs := by
  unfold handlePassed
  split
  · rw [answerWork_frame, bump_tbs]
  · exact fireLate_tbs a

/-- A passed action is due late unless LATE_REJECT refuses it. -/
theorem handlePassed_actions (a : Action) : (handlePassed s a).actions =
    { s.actions with due := s.actions.due ++ ([a].filter fun a => a.attr ≠ 1).map (lateDue s.clock.tick) } := by
  by_cases hreject : a.attr = 1
  · rw [handlePassed, if_pos hreject, answerWork_frame, bump_actions]
    simp [hreject]
  · simp [handlePassed, hreject, fireLate_actions]

@[simp] theorem stepAction_clock (n old new : Nat) (a : Action) : (stepAction n old new s a).clock = s.clock := by
  unfold stepAction
  split
  · exact handlePassed_clock a
  · rfl

@[simp] theorem stepAction_tbs (n old new : Nat) (a : Action) : (stepAction n old new s a).tbs = s.tbs := by
  unfold stepAction
  split
  · exact handlePassed_tbs a
  · rfl

/-- What goes through a step in the order of a list: what it does not pass stays armed, what it passes is due late unless LATE_REJECT
refuses it. -/
def throughStep (n old new tick : Nat) (l : List Action) (x : Actions) : Actions :=
  { x with
    armed := x.armed ++ l.filter fun a => !tbPasses n old new a
    due := x.due ++ (l.filter fun a => tbPasses n old new a && a.attr ≠ 1).map (lateDue tick) }

theorem throughStep_cons (n old new tick : Nat) (a : Action) (l : List Action) (x : Actions) :
    throughStep n old new tick (a :: l) x = throughStep n old new tick l (throughStep n old new tick [a] x) := by
  rw [← List.singleton_append]
  simp only [throughStep, List.filter_append, List.map_append, List.append_assoc]

theorem stepAction_actions (n old new : Nat) (a : Action) :
    (stepAction n old new s a).actions = throughStep n old new s.clock.tick [a] s.actions := by
  unfold stepAction
  split
  next hpassed => simp [handlePassed_actions, throughStep, hpassed, List.filter_cons]
  next hkept => simp [keepArmed, throughStep, hkept]

/-- A step through a list of actions, as a whole. -/
theorem foldl_stepAction (n old new : Nat) (l : List Action) (s : State) :
    (l.foldl (stepAction n old new) s).actions = throughStep n old new s.clock.tick l s.actions ∧
      (l.foldl (stepAction n old new) s).tbs = s.tbs := by
  induction l generalizing s with
  | nil => simp [throughStep]
  | cons a l ih =>
    obtain ⟨hactions, htbs⟩ := ih (stepAction n old new s a)
    rw [List.foldl_cons, hactions, htbs, stepAction_clock, stepAction_actions, stepAction_tbs, ← throughStep_cons]
    exact ⟨rfl, rfl⟩

/-- A step of a time base takes the armed actions through it. -/
theorem stepTb_actions (s : State) (n v : Nat) : (stepTb s n v).actions =
    throughStep n (s.tb n).val (v % tbModulus) s.clock.tick s.actions.armed { s.actions with armed := [] } := by
  unfold stepTb
  rw [stepActions_eq_foldl]
  exact (foldl_stepAction ..).1

/-- It writes the stepped time base and no other. -/
theorem stepTb_tbs (s : State) (n v : Nat) :
    (stepTb s n v).tbs = (s.setTb n { s.tb n with val := v % tbModulus, first := true }).tbs := by
  unfold stepTb
  rw [stepActions_eq_foldl]
  exact (foldl_stepAction ..).2

/-- A backward step passes no action. -/
theorem tbPasses_backward {n old new : Nat} (h : new ≤ old) (a : Action) : tbPasses n old new a = false := by
  unfold tbPasses
  split
  · simp only [Bool.and_eq_false_iff, decide_eq_false_iff_not]
    omega
  · rfl

/-- Reads of time bases rest on their store. -/
theorem tb_congr {s t : State} {m : Nat} (h : t.tbs = s.tbs) : t.tb m = s.tb m := by
  simp only [State.tb, h]

/-! HOLDOVER (R91). -/

/-- A time base in HOLDOVER: it holds its value and adds the mean of its frequency parts, or its increment where it has none. -/
def heldOver (t : TimeBase) : TimeBase :=
  { t with st := .holdover, inc := if t.freqs.isEmpty then t.inc else incOfRate (meanFreq t.freqs), transmitter := none,
           masters := [], inCount := 0, beyond := 0 }

theorem enterHoldover_eq (s : State) (n : Nat) : enterHoldover s n = (s.setTb n (heldOver (s.tb n))).bump (0x2010 + n) 0x0C := rfl

theorem toHoldover_tbs (s : State) (n : Nat) : (toHoldover s n).tbs = (s.setTb n (heldOver (s.tb n))).tbs := by
  rw [toHoldover, State.setNum_tbs, enterHoldover_eq, bump_tbs]

/-- Besides time bases, HOLDOVER writes registers and, where the count would pass its last value, a free value. -/
theorem toHoldover_frame (s : State) (n : Nat) : toHoldover s n =
    { s with tbs := (toHoldover s n).tbs, regs := (toHoldover s n).regs, freeCtr := (toHoldover s n).freeCtr } := by
  rw [toHoldover, enterHoldover_eq, bump_frame]
  rfl

/-- Of the registers it writes the grandmaster and the count of HOLDOVER. -/
theorem rn_toHoldover_ne (s : State) {n i j : Nat} (hj : j < 256) (hother : i ≠ 0x2010 + n ∨ (j ≠ 0x0A ∧ j ≠ 0x0C)) :
    (toHoldover s n).rn i j = s.rn i j := by
  have hgrandmaster : regKey i j ≠ regKey (tbIdx n) 0x0A := by
    simp only [regKey, tbIdx]
    omega
  have hcount : regKey i j ≠ regKey (0x2010 + n) 0x0C := by
    simp only [regKey]
    omega
  rw [toHoldover, State.rn_setNum_ne _ _ _ _ _ _ hgrandmaster, enterHoldover_eq, rn_bump_ne hcount]
  rfl

/-- A time base listens while it is LOCKED, or ACQUIRING with a time transmitter (R91). -/
theorem listens_of {s : State} {n : Nat} (hcx : s.cxUp = true) (hhold : (s.tb n).hold = false)
    (hst : (s.tb n).st = .locked ∨ ((s.tb n).st = .acquiring ∧ (s.tb n).transmitter.isSome = true)) : listens s n = true := by
  obtain hlocked | ⟨hacquiring, htransmitter⟩ := hst
  · simp [listens, hcx, hhold, hlocked]
  · simp [listens, hcx, hhold, hacquiring, htransmitter]

/-- One that listens goes to HOLDOVER when no Sync has come for 3 intervals. -/
theorem syncLost_of_silent {s : State} {n : Nat} (hlistens : listens s n = true)
    (hsilent : s.elapsed (s.tb n).lastSync (3 * logClocks (s.tb n).logSync) = true) : syncLost s n = toHoldover s n :=
  if_pos (by rw [hlistens, hsilent]; rfl)

/-- So does it when no Announce has. -/
theorem announceLost_of_silent {s : State} {n : Nat} (hlistens : listens s n = true)
    (hsilent : s.elapsed (s.tb n).lastAnnounce (3 * logClocks (s.tb n).logAnnounce) = true) : announceLost s n = toHoldover s n :=
  if_pos (by rw [hlistens, hsilent]; rfl)

/-- What a time base that enters HOLDOVER leaves behind. -/
def holdsOver (n : Nat) (s t : State) : Prop :=
  (t.tb n).st = .holdover ∧ (t.tb n).val = (s.tb n).val ∧
  ((s.tb n).freqs = [] → (t.tb n).inc = (s.tb n).inc) ∧
  ((s.tb n).freqs ≠ [] → (t.tb n).inc = incOfRate (meanFreq (s.tb n).freqs)) ∧
  (∀ m, m ≠ n → t.tb m = s.tb m) ∧
  (∀ i j, j < 256 → (i ≠ 0x2010 + n ∨ (j ≠ 0x0A ∧ j ≠ 0x0C)) → t.rn i j = s.rn i j) ∧
  t = { s with tbs := t.tbs, regs := t.regs, freeCtr := t.freeCtr }

theorem holdsOver_toHoldover (s : State) (n : Nat) : holdsOver n s (toHoldover s n) := by
  have hown : (toHoldover s n).tb n = heldOver (s.tb n) := by rw [tb_congr (toHoldover_tbs s n), State.tb_setTb]
  refine ⟨?state, ?value, ?keeps, ?mean, ?others, fun i j => rn_toHoldover_ne s, toHoldover_frame s n⟩
  case state => rw [hown, heldOver]
  case value => rw [hown, heldOver]
  case keeps =>
    intro hnone
    simp [hown, heldOver, hnone]
  case mean =>
    intro hsome
    simp [hown, heldOver, hsome]
  case others => exact fun m hm => by rw [tb_congr (toHoldover_tbs s n), State.tb_setTb_ne _ _ _ _ hm]

/-! PTP messages and Lead samples whose tests are met. -/

variable {p n : Nat}

/-- An event of AX has its effect where AX runs. -/
theorem does_of_axRuns {i : Instr} {cond : State → Prop} {f effect : State → State} (hexec : ∀ s, exec i s = run (whenAx f) s)
    (hax : ∀ s, cond s → axRuns s) (hf : ∀ s, cond s → f s = effect s) : Does i cond effect :=
  does_of_run hexec fun s hs => (whenAx_on s f (hax s hs).1 (hax s hs).2).trans (hf s hs)

/-- What it leaves behind is what its own function leaves. -/
theorem touches_of_axRuns {i : Instr} {cond : State → Prop} {f : State → State} {r : State → State → Prop}
    (hexec : ∀ s, exec i s = run (whenAx f) s) (hax : ∀ s, cond s → axRuns s) (hr : ∀ s, cond s → r s (f s)) : Touches i cond r :=
  fun s hs => ⟨f s, does_of_whenAx hexec hax s hs, hr s hs⟩

/-- A time transmitter sends a two-step Sync (R97, R98). -/
theorem syncSend_of_transmitter (h : isTransmitter s p n = true) : syncSend s p n =
    (let q := ((s.port p).syncSeq + 1) % 65536
     let t := (s.setPort p { s.port p with syncSeq := q }).emit (.ptp ptpSync p n q 0 0)
     let x := stampOf t p n (egressCorr t p)
     x.2.emit (.ptp ptpFollowUp p n q x.1 0)) := by
  rw [syncSend, h]
  rfl

/-- It announces the grandmaster in use, where there is one (R97). -/
theorem announceSend_of_transmitter (h : isTransmitter s p n = true) (hgm : s.rn (0x2010 + n) 0x0A ≠ 0) : announceSend s p n =
    (let q := ((s.port p).annSeq + 1) % 65536
     (s.setPort p { s.port p with annSeq := q }).emit
        (.announce p n q (s.rn (0x2010 + n) 0x0A) 248 (clockPriorities s).1 (clockPriorities s).2 (announceLog s n))) := by
  have hinUse : s.rn (tbIdx n) 0x0A ≠ 0 := hgm
  simp only [announceSend, h, if_neg hinUse]
  rfl

/-- The response to the request in progress completes the measurement (R97). -/
theorem delayResponse_of_waiting {seq delay : Nat} (hwaits : (s.port p).waiting = true) (hseq : (s.port p).seq = seq) :
    delayResponse s p seq delay = s.setPort p { s.port p with waiting := false, measured := true, pathDelay := delay } :=
  if_pos (by simp [hwaits, hseq])

/-- TB7 is written back while it is LOCKED (R95). -/
theorem tb7Writeback_of_locked (hax : s.axUp = true) (hst : (s.tb 7).st = .locked) : tb7Writeback s =
    { s with paddock := { s.paddock with clock := (s.tb 7).val * 32768 / secUnits } } :=
  if_pos (by simp [hax, hst])

/-- A Henvy sample is taken as it is by a module that has joined (R104, R205). -/
theorem leadSampleIn_henvy {value stamp : Nat} (hax : s.axUp = true) (hcx : s.cxUp = true) (hsource : leadSource s n = 4)
    (hjoined : henvyState s = 2) : leadSampleIn s n value stamp =
      takeSample s n (toSigned 64 value * 2 ^ 32) ((stamp : Int) + s.ri (0x2040 + n) 0x14 32) := by
  have hmember : s.rn 0x3080 8 = 2 := hjoined
  simp [leadSampleIn, hax, hcx, hsource, hmember, leadIdx]

/-- A Lead that extrapolates for longer than its timeout begins to stop (R106). -/
theorem leadTimeout_of_late (hst : (s.lead n).st = 2)
    (hlate : (s.lead n).sinceTick + 160 * s.rn (0x2040 + n) 0x12 ≤ s.clock.tick) :
    leadTimeout s n = s.setLead n { s.lead n with st := 3 } :=
  if_pos (by simp [hst, ldExtra, leadIdx, hlate])

/-- One that has stopped is LOST (R106). -/
theorem leadStopped_of_still (hst : (s.lead n).st = 3) (hvel : (s.lead n).vel = 0) :
    leadStopped s n = s.setLead n { s.lead n with st := 4 } :=
  if_pos (by simp [hst, hvel, ldStopping])

end Sys2Proof.Machine

open Sys2Proof Sys2Proof.Machine

/-- Settles O13: the step takes the armed actions through it in their order, and a step back passes none of them. -/
theorem timeBaseStepHandlesPassedActions : Obligations.TimeBaseStepHandlesPassedActions := by
  unfold Obligations.TimeBaseStepHandlesPassedActions
  intro s n v _
  refine ⟨?armed, ?due, ?backward, ?own, ?others⟩
  case armed =>
    rw [stepTb_actions, throughStep]
    rfl
  case due => 
    rw [stepTb_actions, throughStep]
    rfl
  case backward =>
    intro hback
    rw [stepTb_actions, throughStep]
    simp [tbPasses_backward hback]
  case own => rw [tb_congr (stepTb_tbs s n v), State.tb_setTb]
  case others => exact fun m hm => by rw [tb_congr (stepTb_tbs s n v), State.tb_setTb_ne _ _ _ _ hm]

/-- Settles O14: either silence brings a time base that listens to HOLDOVER. -/
theorem timingLossEntersHoldover : Obligations.TimingLossEntersHoldover := by
  unfold Obligations.TimingLossEntersHoldover
  rintro n c (rfl | rfl)
  · refine touches_of_axRuns (fun _ => rfl) (fun _ hs => hs.1) fun s ⟨_, hcx, hhold, hst, hsync, _⟩ => ?_
    rw [syncLost_of_silent (listens_of hcx hhold hst) (hsync rfl)]
    exact holdsOver_toHoldover s n.val
  · refine touches_of_axRuns (fun _ => rfl) (fun _ hs => hs.1) fun s ⟨_, hcx, hhold, hst, _, hannounce⟩ => ?_
    rw [announceLost_of_silent (listens_of hcx hhold hst) (hannounce rfl)]
    exact holdsOver_toHoldover s n.val

/-- Settles O10: the tests read the edge of the direction, and what is neither past due nor refused is armed. -/
theorem pastDueTest : Obligations.PastDueTest := by
  unfold Obligations.PastDueTest
  intro s n t
  refine ⟨fun _ => rfl, fun _ => rfl, ?movesForward, ?standsForward, ?movesBackward, ?standsBackward, ?armed⟩
  case movesForward => exact fun hvel => by rw [pastDue_lead_forward, lateEdge_forward_moving hvel]
  case standsForward => exact fun hvel => by rw [pastDue_lead_forward, lateEdge_forward_standing hvel]
  case movesBackward => exact fun hvel => by rw [pastDue_lead_backward, lateEdge_backward_moving hvel]
  case standsBackward => exact fun hvel => by rw [pastDue_lead_backward, lateEdge_backward_standing hvel]
  case armed =>
    intro k b attr rep w hpast hok
    rw [armAction_of_ok hok, enterAction_of_not_pastDue hpast]
    exact ⟨rfl, rfl⟩

/-- Settles O12: the handling asked for decides whether the table takes the action and what its acceptance does with it. -/
theorem pastDueHandling : Obligations.PastDueHandling := by
  unfold Obligations.PastDueHandling
  intro s k b rep w hpast
  refine ⟨?lateFire, ?lateReject, ?nextLap⟩
  case lateFire =>
    intro hok
    have hentered := (armAction_of_ok hok).trans (enterAction_lateFire (rep := rep) (w := w) hpast)
    simp only [hentered]
    refine ⟨?armed, ?due, ?time, ?distance, rn_fireLate_count (s := withNextId s) _⟩
    case armed => simp [fireLate_actions]
    case due => simp [fireLate_actions, lateDue, accepts]
    case time => simp [rn_fireLate_time]
    case distance => simp [rn_fireLate_distance]
  case lateReject =>
    intro hroom
    have hreject := actionAbort_lateReject (rep := rep) hroom hpast
    rw [armAction_of_pastDue hreject]
    exact ⟨hreject, bump_actions s, rn_bump⟩
  case nextLap =>
    rintro n x rfl hok
    have hentered := (armAction_of_ok hok).trans (enterAction_nextLap (rep := rep) (w := w) hpast)
    simp only [hentered]
    refine ⟨?due, ?count, ?armed⟩
    case due => simp [keepArmed]
    case count => exact rn_bump (s := withNextId s)
    case armed => simp [keepArmed, accepts]

/-- Settles O36: each event's own tests are met by what its condition names. -/
theorem timeBaseEventsAct : Obligations.TimeBaseEventsAct := by
  unfold Obligations.TimeBaseEventsAct
  refine ⟨?sync, ?announce, ?syncLoss, ?announceTimeout, ?syncSend, ?announceSend, ?delaySend, ?delayReceived, ?delayResponse,
    ?writeback, ?pps⟩
  case sync => exact fun n m => does_of_whenAx (fun _ => rfl) fun _ hax => hax
  case announce => exact fun n m => does_of_whenAx (fun _ => rfl) fun _ hs => hs.1
  case syncLoss =>
    exact fun n => does_of_axRuns (fun _ => rfl) (fun _ hs => hs.1) fun s ⟨_, hcx, hst, hhold, hsilent⟩ =>
      syncLost_of_silent (listens_of hcx hhold (.inl hst)) hsilent
  case announceTimeout =>
    exact fun n => does_of_axRuns (fun _ => rfl) (fun _ hs => hs.1) fun s ⟨_, hcx, hst, hhold, hsilent⟩ =>
      announceLost_of_silent (listens_of hcx hhold (.inl hst)) hsilent
  case syncSend =>
    exact fun p n => does_of_axRuns (fun _ => rfl) (fun _ hs => hs.1) fun s ⟨_, htransmits⟩ => syncSend_of_transmitter htransmits
  case announceSend =>
    exact fun p n => does_of_axRuns (fun _ => rfl) (fun _ hs => hs.1) fun s ⟨_, htransmits, hgm⟩ =>
      announceSend_of_transmitter htransmits hgm
  case delaySend => exact fun p n => does_of_whenAx (fun _ => rfl) fun _ hs => hs.1
  case delayReceived => exact fun p n who seq => does_of_whenAx (fun _ => rfl) fun _ hs => hs.1
  case delayResponse =>
    exact fun p n seq delay => does_of_axRuns (fun _ => rfl) (fun _ hs => hs.1) fun s ⟨_, hwaits, hseq⟩ =>
      delayResponse_of_waiting hwaits hseq
  case writeback =>
    exact does_of_axRuns (fun _ => rfl) (fun _ hs => hs.1) fun s ⟨hax, hlocked⟩ => tb7Writeback_of_locked hax.2 hlocked
  case pps => exact fun offset => does_of_whenAx (fun _ => rfl) fun _ hax => hax

/-- Settles O37: the samples, the timeout and the stop meet the tests of their own functions, and a station's sample and a firing are
their functions' own effects. -/
theorem leadAndActionEventsAct : Obligations.LeadAndActionEventsAct := by
  unfold Obligations.LeadAndActionEventsAct
  refine ⟨?henvy, ?station, ?timeout, ?stopped, ?fires⟩
  case henvy =>
    refine fun n value velocity stamp => does_of_run (fun _ => rfl) fun s ⟨hax, hcx, hsource, hjoined⟩ => ?_
    exact (whenOn_on s _ hax.1).trans (leadSampleIn_henvy hax.2 hcx hsource hjoined)
  case station =>
    exact fun n value velocity stamp => does_of_whenOn (fun _ => rfl) fun _ hs => hs.1.1
  case timeout =>
    refine fun n => does_of_run (fun _ => rfl) fun s ⟨hon, hst, hlate⟩ => ?_
    exact (whenOn_on s _ hon).trans (leadTimeout_of_late hst hlate)
  case stopped =>
    refine fun n => does_of_run (fun _ => rfl) fun s ⟨hon, hst, hvel⟩ => ?_
    exact (whenOn_on s _ hon).trans (leadStopped_of_still hst hvel)
  case fires => exact fun id d => does_of_whenOn (fun _ => rfl) fun _ hs => hs.1

end


section
/-! SUPPORT. The family of spec section 04, the line bus. First single bits of a number, what stop pins, stop objects and their change do
to the state, and the checks of a frame that comes in; then the statements. -/

namespace Sys2Proof.Machine

/-! Bits of a number. -/

theorem bit_eq_testBit (w n : Nat) : bit w n = w.testBit n := Nat.testBit_eq_decide_div_mod_eq.symm

/-- A number with one bit set, by its parts above that bit and below it. -/
theorem setBit_eq (w n : Nat) (b : Bool) : setBit w n b = 2 ^ n * (2 * (w / 2 ^ (n + 1)) + b2n b) + w % 2 ^ n := by
  have hbit : b2n (bit w n) = w / 2 ^ n % 2 := by
    simp only [b2n, bit, decide_eq_true_eq]
    split <;> omega
  have hsplit : w = 2 ^ n * (2 * (w / 2 ^ (n + 1))) + w / 2 ^ n % 2 * 2 ^ n + w % 2 ^ n := by
    conv_lhs => rw [← Nat.div_add_mod w (2 ^ n), ← Nat.div_add_mod (w / 2 ^ n) 2, Nat.div_div_eq_div_mul, ← Nat.pow_succ]
    ring
  rw [setBit, hbit, Nat.mul_add, Nat.mul_comm (2 ^ n) (b2n b)]
  omega

@[simp] theorem bit_setBit (w n : Nat) (b : Bool) : bit (setBit w n b) n = b := by
  rw [bit_eq_testBit, setBit_eq, Nat.testBit_two_pow_mul_add _ (Nat.mod_lt _ (Nat.two_pow_pos n))]
  cases b <;> simp [b2n]

theorem bit_setBit_ne {n m : Nat} (w : Nat) (b : Bool) (h : m ≠ n) : bit (setBit w n b) m = bit w m := by
  rw [bit_eq_testBit, bit_eq_testBit, setBit_eq, Nat.testBit_two_pow_mul_add _ (Nat.mod_lt _ (Nat.two_pow_pos n))]
  split
  next hbelow => simp [Nat.testBit_mod_two_pow, hbelow]
  next habove =>
    obtain ⟨k, rfl⟩ : ∃ k, m = n + 1 + k := ⟨m - (n + 1), by omega⟩
    have hhigh : (2 * (w / 2 ^ (n + 1)) + b2n b) / 2 = w / 2 ^ (n + 1) := by
      have hle : b2n b ≤ 1 := by cases b <;> decide
      omega
    rw [show n + 1 + k - n = k + 1 by omega, Nat.testBit_succ, hhigh, Nat.testBit_div_two_pow, Nat.add_comm k]

/-- Setting one of its k bits keeps a number within them. -/
theorem setBit_lt {w n k : Nat} (b : Bool) (hw : w < 2 ^ k) (hn : n < k) : setBit w n b < 2 ^ k := by
  refine Nat.lt_pow_two_of_testBit _ fun i hi => ?_
  rw [← bit_eq_testBit, bit_setBit_ne w b (by omega), bit_eq_testBit]
  exact Nat.testBit_lt_two_pow (hw.trans_le (Nat.pow_le_pow_right (by decide) hi))

/-- The number whose bits below n are those that a test picks. -/
def maskOf (p : Nat → Bool) (n : Nat) : Nat := (List.range n).foldl (fun m o => if p o then m + 2 ^ o else m) 0

theorem maskOf_succ (p : Nat → Bool) (n : Nat) : maskOf p (n + 1) = if p n then maskOf p n + 2 ^ n else maskOf p n := by
  simp only [maskOf, List.range_succ, List.foldl_append, List.foldl_cons, List.foldl_nil]

theorem maskOf_lt (p : Nat → Bool) (n : Nat) : maskOf p n < 2 ^ n := by
  induction n with
  | zero => exact Nat.one_pos
  | succ n ih =>
    rw [maskOf_succ, Nat.pow_succ]
    split <;> omega

theorem bit_maskOf {n o : Nat} (p : Nat → Bool) (h : o < n) : bit (maskOf p n) o = p o := by
  rw [bit_eq_testBit]
  induction n with
  | zero => omega
  | succ n ih =>
    have hhigh : (maskOf p n).testBit n = false := Nat.testBit_lt_two_pow (maskOf_lt p n)
    rw [maskOf_succ, Nat.add_comm (maskOf p n)]
    obtain rfl | hlt := Nat.eq_or_lt_of_le (Nat.le_of_lt_succ h)
    · cases hp : p o <;> simp [Nat.testBit_two_pow_add_eq, hhigh]
    · rw [← ih hlt]
      split
      · exact Nat.testBit_two_pow_add_gt hlt _
      · rfl

/-! Functions applied to the numbers from 0 on. -/

theorem forNums_succ (n : Nat) (s : State) (f : State → Nat → State) : forNums (n + 1) s f = f (forNums n s f) n := by
  simp only [forNums, List.range_succ, List.foldl_append, List.foldl_cons, List.foldl_nil]

/-- What holds first and is kept each time holds after the last. -/
theorem forNums_keeps {P : State → Prop} {f : State → Nat → State} {s : State} (n : Nat) (hfirst : P s)
    (hkeeps : ∀ t k, P t → P (f t k)) : P (forNums n s f) := by
  induction n with
  | zero => exact hfirst
  | succ n ih =>
    rw [forNums_succ]
    exact hkeeps _ _ ih

/-- Where every time leaves a register, the register keeps its value. -/
theorem rn_forNums {f : State → Nat → State} {s : State} {i j : Nat} (n : Nat) (h : ∀ t k, (f t k).rn i j = t.rn i j) :
    (forNums n s f).rn i j = s.rn i j :=
  forNums_keeps (P := fun t => t.rn i j = s.rn i j) n rfl fun t k ht => (h t k).trans ht

variable (s : State) {i j o : Nat}

/-! A Rein bit that has changed (R147, R196, R242). -/

/-- A trigger writes the trace and its tick. -/
theorem triggerTrace_frame (n : Nat) : ∃ x r, triggerTrace s n = { s with traces := x, regs := r } := by
  simp only [triggerTrace]
  split
  · exact ⟨_, _, rfl⟩
  · exact ⟨_, _, rfl⟩

/-- Registers below the traces' stay as they are. -/
theorem rn_triggerTrace (n : Nat) (h : regKey i j < regKey 0xF400 0) : (triggerTrace s n).rn i j = s.rn i j := by
  have hkey : regKey i j ≠ regKey (0xF400 + n) 0x0A := by
    simp only [regKey] at h ⊢
    omega
  simp only [triggerTrace]
  split
  · rw [State.rn_setNum_ne _ _ _ _ _ _ hkey]
    rfl
  · rfl

/-- The state in which the traces that trigger on the Rein bits have been triggered. -/
def reinTriggered : State := forNums 8 s fun s t => if s.rn (0xF400 + t) 2 = 4 then triggerTrace s t else s

theorem reinTriggered_frame : ∃ x r, reinTriggered s = { s with traces := x, regs := r } := by
  refine forNums_keeps (P := fun t => ∃ x r, t = { s with traces := x, regs := r }) 8 ⟨_, _, rfl⟩ ?_
  rintro _ k ⟨x, r, rfl⟩
  split
  · obtain ⟨x', r', h⟩ := triggerTrace_frame { s with traces := x, regs := r } k
    exact ⟨x', r', h⟩
  · exact ⟨x, r, rfl⟩

theorem reinChanged_eq (set : Bool) : reinChanged s set = { reinTriggered s with
    rein := { (reinTriggered s).rein with changed := true },
    coast := { (reinTriggered s).coast with
      stopAll := (reinTriggered s).coast.stopAll || (set && (reinTriggered s).coast.active) } } := by
  simp only [reinChanged, reinTriggered]

/-- The change is noted; besides, it writes coast, the traces and their registers. -/
theorem reinChanged_frame (set : Bool) : ∃ c x r, reinChanged s set =
    { s with rein := { s.rein with changed := true }, coast := c, traces := x, regs := r } := by
  obtain ⟨x, r, h⟩ := reinTriggered_frame s
  rw [reinChanged_eq, h]
  exact ⟨_, x, r, rfl⟩

theorem rn_reinChanged (set : Bool) (h : regKey i j < regKey 0xF400 0) : (reinChanged s set).rn i j = s.rn i j := by
  have hregs : (reinChanged s set).regs = (reinTriggered s).regs := by rw [reinChanged_eq]
  rw [rn_congr hregs, reinTriggered]
  refine rn_forNums 8 fun t k => ?_
  split
  · exact rn_triggerTrace t k h
  · rfl

/-! Stop pins (R145, R420). -/

/-- The state with a pin's level in both counts of the pins. -/
def withPin (pin : Nat) (demand : Bool) : State :=
  { s with rein := { s.rein with pins := setBit s.rein.pins pin demand, pinsAx := setBit s.rein.pinsAx pin demand } }

theorem pinChange_eq (pin : Nat) (demand : Bool) : pinChange s pin demand =
    if setBit s.rein.pins pin demand = s.rein.pins then withPin s pin demand else reinChanged (withPin s pin demand) demand := rfl

/-- A pin's level writes the Rein bits and, where it is a change, coast, the traces and their registers. -/
theorem pinChange_frame (pin : Nat) (demand : Bool) : ∃ n c x r, pinChange s pin demand =
    { s with rein := { (withPin s pin demand).rein with changed := n }, coast := c, traces := x, regs := r } := by
  rw [pinChange_eq]
  split
  · exact ⟨_, _, _, _, rfl⟩
  · obtain ⟨c, x, r, h⟩ := reinChanged_frame (withPin s pin demand) demand
    exact ⟨_, c, x, r, h⟩

theorem pinChange_pins (pin : Nat) (demand : Bool) : (pinChange s pin demand).rein.pins = setBit s.rein.pins pin demand := by
  obtain ⟨n, c, x, r, h⟩ := pinChange_frame s pin demand
  rw [h, withPin]

/-- A level that is not the one counted is a change. -/
theorem pinChange_changed {pin : Nat} {demand : Bool} (h : bit s.rein.pins pin ≠ demand) :
    (pinChange s pin demand).rein.changed = true := by
  have hpins : setBit s.rein.pins pin demand ≠ s.rein.pins := fun heq => h (heq ▸ bit_setBit ..)
  obtain ⟨c, x, r, h⟩ := reinChanged_frame (withPin s pin demand) demand
  rw [pinChange_eq, if_neg hpins, h]

/-- The pins' safe codes write the outputs only. -/
theorem aoutPins_frame : ∃ a, aoutPins s = { s with aouts := a } := by
  refine forNums_keeps (P := fun t => ∃ a, t = { s with aouts := a }) 16 ⟨_, rfl⟩ ?_
  rintro _ k ⟨a, rfl⟩
  split
  · exact ⟨_, rfl⟩
  · exact ⟨_, rfl⟩

@[simp] theorem aoutPins_rein : (aoutPins s).rein = s.rein := by
  obtain ⟨a, h⟩ := aoutPins_frame s
  rw [h]

/-! Stop objects (R146). -/

/-- A STOP of Henvy writes no register. -/
@[simp] theorem rn_henvyStopSend : (henvyStopSend s).rn i j = s.rn i j := by
  unfold henvyStopSend
  split
  · rfl
  · exact rn_forNums 2 fun _ _ => rfl

/-- A register named for each number that a test picks holds the value put there; those of the others keep their own. -/
theorem rn_forNums_setNum (p : Nat → Bool) (v n : Nat) :
    (forNums n s fun t k => if p k then t.setNum (objIdx k) 2 v else t).rn (objIdx o) 2 =
      if o < n ∧ p o = true then v else s.rn (objIdx o) 2 := by
  induction n with
  | zero => simp [forNums]
  | succ n ih =>
    rw [forNums_succ]
    by_cases hown : o = n
    · subst hown
      cases hp : p o <;> simp [ih, hp]
    · have hkey : regKey (objIdx o) 2 ≠ regKey (objIdx n) 2 := by
        simp only [regKey, objIdx]
        omega
      have hwithin : o < n + 1 ↔ o < n := by omega
      simp only [hwithin, ← ih]
      split
      · exact State.rn_setNum_ne _ _ _ _ _ _ hkey
      · rfl

/-- Whether a mask sets an object that is not set. -/
def newlySet (mask o : Nat) : Bool := bit mask o && !bit (s.rn 0x3018 2) o

/-- The state in which the newly set objects have their cause. -/
def causesNamed (mask cause : Nat) : State :=
  forNums 64 s fun t o => if newlySet s mask o then t.setNum (objIdx o) 2 cause else t

theorem setObjects_eq (mask cause : Nat) : setObjects s mask cause =
    if s.rn 0x3018 2 ||| mask % 2 ^ 64 = s.rn 0x3018 2 then s
    else henvyStopSend (reinChanged ((causesNamed s mask cause).setNum 0x3018 2 (s.rn 0x3018 2 ||| mask % 2 ^ 64)) true) := rfl

/-- A mask that changes nothing sets no object anew. -/
theorem newlySet_of_or_eq {s : State} {mask : Nat} (h : s.rn 0x3018 2 ||| mask % 2 ^ 64 = s.rn 0x3018 2) (ho : o < 64) :
    newlySet s mask o = false := by
  have hbit := congrArg (Nat.testBit · o) h
  simp only [Nat.testBit_or, Nat.testBit_mod_two_pow, ho, decide_true, Bool.true_and] at hbit
  rw [newlySet, bit_eq_testBit, bit_eq_testBit, ← hbit]
  cases mask.testBit o <;> simp

theorem rn_setObjects (mask cause : Nat) : (setObjects s mask cause).rn 0x3018 2 = s.rn 0x3018 2 ||| mask % 2 ^ 64 := by
  rw [setObjects_eq]
  split
  next hsame => exact hsame.symm
  next => rw [rn_henvyStopSend, rn_reinChanged _ _ (by decide), State.rn_setNum]

/-- The cause of each object after a mask is set. -/
theorem rn_setObjects_cause (mask cause : Nat) (ho : o < 64) : (setObjects s mask cause).rn (objIdx o) 2 =
    if newlySet s mask o then cause else s.rn (objIdx o) 2 := by
  rw [setObjects_eq]
  split
  next hsame => simp [newlySet_of_or_eq hsame ho]
  next =>
    have hbelow : regKey (objIdx o) 2 < regKey 0xF400 0 := by
      simp only [regKey, objIdx]
      omega
    have hset : regKey (objIdx o) 2 ≠ regKey 0x3018 2 := by
      simp only [regKey, objIdx]
      omega
    rw [rn_henvyStopSend, rn_reinChanged _ _ hbelow, State.rn_setNum_ne _ _ _ _ _ _ hset, causesNamed, rn_forNums_setNum]
    simp [ho]

/-- Whether an object stays set where a mask is cleared. -/
def staysSet (mask o : Nat) : Bool := bit (s.rn 0x3018 2) o && (!bit mask o || objectSource s o)

theorem resetObjects_eq (mask : Nat) : resetObjects s mask =
    if maskOf (staysSet s mask) 64 = s.rn 0x3018 2 then s
    else henvyStopSend (reinChanged (s.setNum 0x3018 2 (maskOf (staysSet s mask) 64)) false) := rfl

theorem rn_resetObjects (mask : Nat) : (resetObjects s mask).rn 0x3018 2 = maskOf (staysSet s mask) 64 := by
  rw [resetObjects_eq]
  split
  next hsame => exact hsame.symm
  next => rw [rn_henvyStopSend, rn_reinChanged _ _ (by decide), State.rn_setNum]

/-! A frame that comes in (R131, R151). -/

variable {s} {e : Engine} {k : Nat} {f : FrameIn}

theorem frameCheck_long (hact : engActive s e = true) (hsize : 1518 < f.size) : frameCheck s e k f = s.bump (0x3010 + k) 0x0C := by
  simp [frameCheck, hact, hsize, ringIdx]

theorem frameCheck_foreign (hact : engActive s e = true) (hsize : f.size ≤ 1518) (hptp : f.etherType ≠ 0x88F7)
    (htype : f.etherType.toNat ≠ s.rn 0x3000 1) : frameCheck s e k f = s.bump 0x3000 6 := by
  have hnotPtp : f.etherType.toNat ≠ 0x88F7 := fun h => hptp (BitVec.eq_of_toNat_eq h)
  simp [frameCheck, hact, Nat.not_lt.mpr hsize, htype, hnotPtp]

/-- A frame of the bus on a ring that is not IDLE is checked as one. -/
theorem frameCheck_bus (hact : engActive s e = true) (hsize : f.size ≤ 1518) (htype : f.etherType.toNat = s.rn 0x3000 1)
    (hring : (s.ring k).st ≠ 0) : frameCheck s e k f = busFrame s e k f := by
  simp [frameCheck, hact, Nat.not_lt.mpr hsize, htype, hring, rgIdle]

/-- A frame whose FCS fails is counted; on a running ring the engine has heard a bad one. -/
theorem busFrame_fcsBad (hfcs : f.fcsGood = false) : busFrame s e k f =
    (if (s.ring k).st = 3 then s.setEng e { s.eng e with fcsBad := true } else s).bump (0x3010 + k) 0x0A := by
  simp [busFrame, hfcs, rgRunning, ringIdx, ite_not]

/-! Inputs, discovery, configuration and delays (R135, R152, R156, R158, R160). -/

/-- The inputs of a train on a running ring are taken from each station in the order of the layout. -/
theorem trainInputs_of_running {first second : List SlotAnswer} {late : Bool} (hring : (s.ring k).st = 3)
    (htrain : (if late then 2 else 1) ≤ s.rn 0x2000 5) : trainInputs s k first second late =
      (s.ring k).layout.foldl (fun s p => takeInputs s k (trainNo s late) first second late p.1) s := by
  simp [trainInputs, hring, rgRunning, Nat.not_lt.mpr htrain]

/-- An engine that is ACTIVE counts the statuses of its ring's stations. -/
theorem configured_of_active {statuses : List (Fin 2048 × Byte)} (hact : engActive s e = true) : configured s e k statuses =
    configureReturn s ((statuses.filter fun p => p.1.val / 512 = k).map fun p => (p.1.val, p.2.toNat)) := if_pos hact

/-! Commands: events that need the module to run, and the writes of a station's entries of one byte. -/

/-- An event that needs the module to run leaves behind what its own function leaves. -/
theorem touches_of_whenOn {c : Instr} {cond : State → Prop} {f : State → State} {r : State → State → Prop}
    (hexec : ∀ s, exec c s = run (whenOn f) s) (hon : ∀ s, cond s → s.on = true)
    (hr : ∀ s, cond s → r s (f s)) : Touches c cond r :=
  fun s hs => ⟨f s, does_of_whenOn hexec hon s hs, hr s hs⟩

/-- An event that needs the module to run has the effect with which its function agrees. -/
theorem does_of_onRuns {c : Instr} {cond : State → Prop} {f effect : State → State} (hexec : ∀ s, exec c s = run (whenOn f) s)
    (hon : ∀ s, cond s → s.on = true) (hf : ∀ s, cond s → f s = effect s) : Does c cond effect :=
  does_of_run hexec fun s hs => (whenOn_on s f (hon s hs)).trans (hf s hs)

/-- Of a station's masks and timeouts (OD 3800+a:0A to 0D) only the last is 8 bytes long; the others take one (R158, R175). -/
theorem exec_stationConfigWrite_byte (s : State) (w : WriteCtx) (a : Fin 2048) {k : Fin 4} (v : BitVec 64) (hk : k ≠ 3) :
    exec (.stationConfigWrite w a k v) s = run (put w (0x3800 + a.val) (0x0A + k.val) 1 v.toNat) s := by
  have hsize : k.val ≠ 3 := fun h => hk (Fin.ext h)
  change run (put w (stIdx a.val) (0x0A + k.val) (if k.val = 3 then 8 else 1) v.toNat) s = _
  rw [if_neg hsize, stIdx]

end Sys2Proof.Machine

open Sys2Proof Sys2Proof.Machine

/-- Settles O15: the set after either write, bit by bit, and the cause of each object by whether the mask sets it anew. -/
theorem stopObjectsSetAndCleared : Obligations.StopObjectsSetAndCleared := by
  unfold Obligations.StopObjectsSetAndCleared
  intro s mask cause _
  refine ⟨rn_setObjects s mask cause, ?newly, ?others, ?cleared⟩
  case newly =>
    intro o ho hmask hclear
    refine (rn_setObjects_cause s mask cause ho).trans (if_pos ?_)
    simp [newlySet, hmask, hclear]
  case others =>
    intro o ho hkept
    refine (rn_setObjects_cause s mask cause ho).trans (if_neg ?_)
    obtain hmask | hset := hkept
    · simp [newlySet, hmask]
    · simp [newlySet, hset]
  case cleared =>
    intro o ho
    rw [rn_resetObjects, bit_maskOf _ ho, staysSet]

/-- Settles O16: the level is the pin's bit of the count, and the safe codes that follow leave the Rein field. -/
theorem stopPinIsCounted : Obligations.StopPinIsCounted := by
  unfold Obligations.StopPinIsCounted
  intro pin demand
  refine touches_of_whenOn (fun _ => rfl) (fun _ hs => hs.1) fun s ⟨_, hpins⟩ => ?_
  have hother : 1 - pin.val ≠ pin.val := by omega
  rw [aoutPins_rein, pinChange_pins]
  refine ⟨setBit_lt (k := 2) demand hpins pin.isLt, bit_setBit .., bit_setBit_ne _ demand hother, pinChange_changed s, ?_⟩
  obtain ⟨n, c, x, r, hpin⟩ := pinChange_frame s pin.val demand
  obtain ⟨a, hout⟩ := aoutPins_frame (pinChange s pin.val demand)
  rw [hout, hpin]

/-- Settles O53: each command puts a number of the entry's size (R74), so that an accepted write takes exactly its bytes. -/
theorem busWritesAct : Obligations.BusWritesAct := by
  unfold Obligations.BusWritesAct
  intro w
  refine ⟨?objectSet, ?objectReset, ?oneByte, ?objectMask, ?rejoin, ?henvy⟩
  case objectSet => exact fun v => writes_of_put (fun _ => rfl) v.isLt
  case objectReset => exact fun v => writes_of_put (fun _ => rfl) v.isLt
  case oneByte =>
    rintro a k v ⟨hk, hv⟩
    exact writes_of_put (fun s => exec_stationConfigWrite_byte s w a v hk) hv
  case objectMask => exact fun a v => writes_of_put (fun _ => rfl) v.isLt
  case rejoin => exact fun v => writes_of_put_byte fun _ => rfl
  case henvy => exact writes_of_put_byte (v := 1) fun _ => rfl

/-- Settles O38: each event's own tests are met by what its condition names. -/
theorem busEventsAct : Obligations.BusEventsAct := by
  unfold Obligations.BusEventsAct
  refine ⟨?pin, ?rein, ?long, ?foreign, ?fcsBad, ?fcsGood, ?inputs, ?lateInputs, ?lost, ?discover, ?configure, ?delay⟩
  case pin => exact fun pin demand => does_of_whenOn (fun _ => rfl) fun _ hon => hon
  case rein => exact does_of_whenOn (fun _ => rfl) fun _ hs => hs.1
  case long =>
    exact fun e k f hsize => does_of_onRuns (fun _ => rfl) (fun _ hs => hs.1) fun s ⟨_, hact⟩ => frameCheck_long hact hsize
  case foreign =>
    exact fun e k f hsize hptp => does_of_onRuns (fun _ => rfl) (fun _ hs => hs.1) fun s ⟨_, hact, htype⟩ =>
      frameCheck_foreign hact hsize hptp htype
  case fcsBad =>
    exact fun e k f hsize hfcs => does_of_onRuns (fun _ => rfl) (fun _ hs => hs.1) fun s ⟨_, hact, htype, hring⟩ =>
      (frameCheck_bus hact hsize htype hring).trans (busFrame_fcsBad hfcs)
  case fcsGood =>
    exact fun e k f hsize _ => does_of_onRuns (fun _ => rfl) (fun _ hs => hs.1) fun s ⟨_, hact, htype, hring⟩ =>
      frameCheck_bus hact hsize htype hring
  case inputs =>
    exact fun k first second => does_of_onRuns (fun _ => rfl) (fun _ hs => hs.1) fun s ⟨_, hring, htrain⟩ =>
      congrArg (serveMails · k.val) (trainInputs_of_running hring htrain)
  case lateInputs =>
    exact fun k first second => does_of_onRuns (fun _ => rfl) (fun _ hs => hs.1) fun s ⟨_, hring, htrain⟩ =>
      congrArg (serveMails · k.val) (trainInputs_of_running hring htrain)
  case lost => exact fun a => does_of_whenOn (fun _ => rfl) fun _ hs => hs.1
  case discover => exact fun e k base records counted => does_of_whenOn (fun _ => rfl) fun _ hs => hs.1
  case configure =>
    exact fun e k statuses => does_of_onRuns (fun _ => rfl) (fun _ hs => hs.1) fun s ⟨_, hact⟩ => configured_of_active hact
  case delay => exact fun k tab records => does_of_whenOn (fun _ => rfl) fun _ hs => hs.1

end

section
/-! SUPPORT. The family of spec section 05, path engines, the Hobble line, coast, Henvy and the uplinks. First what the Hobble hardware
keeps of the engines' bounds after every command, then what each event does where its own tests are met; then the statements. -/

namespace Sys2Proof.Machine

/-! The Hobble line (R178, R179). -/

/-- The positions an engine holds on each ring, cut to the room it has there. -/
def cutHeld (room : Nat → Nat) (m : Map Nat) : Map Nat :=
  (List.range 4).foldl (fun m k => setAt m k (min (getAt 0 m k) (room k))) m

/-- Cutting the first n rings one after the other reaches each of them once. -/
theorem getAt_foldl_cut (room : Nat → Nat) (m : Map Nat) (n k : Nat) :
    getAt 0 ((List.range n).foldl (fun m k => setAt m k (min (getAt 0 m k) (room k))) m) k =
      if k < n then min (getAt 0 m k) (room k) else getAt 0 m k := by
  induction n with
  | zero => rfl
  | succ n ih =>
    rw [List.range_succ, List.foldl_append, List.foldl_cons, List.foldl_nil]
    obtain rfl | hne := eq_or_ne k n
    · simp [ih]
    · have hlt : k < n + 1 ↔ k < n := by omega
      simp only [getAt_setAt_ne _ _ _ _ _ hne, ih, hlt]

theorem getAt_cutHeld {k : Nat} (room : Nat → Nat) (m : Map Nat) (hk : k < 4) :
    getAt 0 (cutHeld room m) k = min (getAt 0 m k) (room k) :=
  (getAt_foldl_cut room m 4 k).trans (if_pos hk)

variable (s : State)

/-- Driving rails writes the rails of the engines only. -/
theorem driveRail_frame (e : Engine) (k : Nat) : ∃ a b, driveRail s e k =
    { s with na := { s.na with rails := a }, nb := { s.nb with rails := b } } := by
  cases e with
  | na => exact ⟨_, _, rfl⟩
  | nb => exact ⟨_, _, rfl⟩

theorem driveRails_frame (e : Engine) : ∃ a b, driveRails s e =
    { s with na := { s.na with rails := a }, nb := { s.nb with rails := b } } := by
  refine forNums_keeps (P := fun t => ∃ a b, t = { s with na := { s.na with rails := a }, nb := { s.nb with rails := b } }) 4
    ⟨_, _, rfl⟩ ?_
  rintro _ k ⟨a, b, rfl⟩
  exact driveRail_frame _ e k

/-- Whether the bounds are apart does not depend on the rails that carry them. -/
theorem boundsApart_driveRails (e : Engine) : boundsApart (driveRails s e) ↔ boundsApart s := by
  obtain ⟨a, b, h⟩ := driveRails_frame s e
  rw [h]
  exact Iff.rfl

/-- The hardware cuts NA's grant to the ring's length and NB's to what NA leaves of it (R178). -/
theorem keepBounds_eq : keepBounds s =
    (let na := cutHeld (ringN s) s.na.held
     let nb := cutHeld (fun k => ringN s k - getAt 0 na k) s.nb.held
     driveRails (driveRails { s with na := { s.na with held := na }, nb := { s.nb with held := nb } } .na) .nb) := rfl

theorem boundsApart_keepBounds : boundsApart (keepBounds s) := by
  rw [keepBounds_eq, boundsApart_driveRails, boundsApart_driveRails]
  intro k hk
  have hna := getAt_cutHeld (ringN s) s.na.held hk
  have hnb := getAt_cutHeld (fun k => ringN s k - getAt 0 (cutHeld (ringN s) s.na.held) k) s.nb.held hk
  calc getAt 0 (cutHeld (ringN s) s.na.held) k + getAt 0 (cutHeld _ s.nb.held) k
      ≤ getAt 0 (cutHeld (ringN s) s.na.held) k + (ringN s k - getAt 0 (cutHeld (ringN s) s.na.held) k) :=
        Nat.add_le_add_left (hnb.trans_le (Nat.min_le_right _ _)) _
    _ = ringN s k := Nat.add_sub_cancel' (hna.trans_le (Nat.min_le_right _ _))

/-- A command takes the bounds, and the lengths of the rings, from the state that the reactions end with. -/
theorem boundsApart_adopt (r : State) (q : List Instr) : boundsApart (s.adopt r q) ↔ boundsApart r := Iff.rfl

/-- What follows from a command ends with the hardware's cut, so that the bounds of a settled state are apart. -/
theorem boundsApart_settle (old : State) : boundsApart (settle old s) := by
  rw [settle, boundsApart_adopt, reactions]
  exact boundsApart_keepBounds _

/-- Whatever the command, its arm of the dispatch runs an effect and settles the state after it. -/
theorem exec_settles (c : Instr) : ∃ t, exec c s = .next (settle s t) := by
  cases c <;> exact ⟨_, rfl⟩

/-- A step leaves the block as it is or settles it. -/
theorem step_stays_or_settles {t : State} (h : step s = .next t) : t = s ∨ ∃ old u, t = settle old u := by
  cases hqueue : s.pending with
  | nil =>
    rw [step_nil s hqueue] at h
    exact .inl (Host.Outcome.next.inj h).symm
  | cons c rest =>
    obtain ⟨u, hexec⟩ := exec_settles { s with pending := rest } c
    rw [step_cons s c rest hqueue, hexec] at h
    exact .inr ⟨_, u, (Host.Outcome.next.inj h).symm⟩

/-! Breaks, heals, demotions and coast (R184 to R198). -/

variable {s} {e : Engine} {k : Nat}

/-- A correctable memory error is counted only (R184). -/
theorem selfDemote_correctable (hact : engActive s e = true) : selfDemote s e (.memories true) = s.bump 0x3060 6 := by
  simp [selfDemote, hact]

/-- A check that fails makes the engine end its frames, fall silent and notify the other one (R184). -/
theorem selfDemote_of_fails {c : SelfCheck} (hact : engActive s e = true) (hc : c ≠ .memories true)
    (hfails : (checkFails s e c).1 = true) : selfDemote s e c =
      (((silence (cutFrames s e) e).setNum 0x3060 4 ((if e = .na then 1 else 2) * 256 + (checkFails s e c).2)).bump 0x3060 5).emit
        (.cross e 0 0 true) := by
  simp [selfDemote, hact, hc, hfails]

/-- Both end stations of a split ring report their ports up: the heal is set 2 line cycles ahead (R190). -/
theorem ringHeal_of_ready (hring : (s.ring k).st = 3) (hsplit : (s.ring k).split = true ∨ (s.ring k).joining = true)
    (hcross : crossUp s = true) (hnone : (s.ring k).healAt = none) (hseg : (s.ring k).badSeg = [])
    (hfrom : (s.ring k).healFrom ≤ s.clock.timClk) : ringHeal s k = s.setRing k { s.ring k with
      healAt := some (s.rn 0x2000 5 + 2), healBounds := (getAt 0 s.na.held k, getAt 0 s.nb.held k),
      healJoin := (s.ring k).joining, cmd := if (s.ring k).joining then (s.ring k).cmd else .na } := by
  have hopen : ((s.ring k).split || (s.ring k).joining) = true := Bool.or_eq_true_iff.mpr hsplit
  simp [ringHeal, rgRunning, hring, hopen, hcross, hnone, hseg, Nat.not_lt.mpr hfrom]

/-- The coast limit, once reached, stops every record and is counted (R197). -/
theorem coastLimit_of_reached (hactive : s.coast.active = true) (hhit : s.coast.limitHit = false) (hlimit : limitReached s = true) :
    coastLimit s = ({ s with coast := { s.coast with limitHit := true, stopAll := true } }).bump 0x3070 6 := by
  simp [coastLimit, hactive, hhit, hlimit]

theorem leaveCoast_of_due (hdue : coastExitDue s = true) : leaveCoast s = restartEnd (coastExit s) := if_pos hdue

/-- A coast record that differs is committed once the engines acknowledge it (R193). -/
theorem commitCoastRec_of_changed {n : Nat} (hlocal : axisLocal s n = false) (hack : enginesAck s = true)
    (hchanged : { coastRecordOf s n with tag := (s.coastRec n).tag } ≠ s.coastRec n) :
    commitCoastRec s n = s.setCoastRec n (coastRecordOf s n) := by
  simp [commitCoastRec, hlocal, hack, hchanged]

/-! Henvy and the uplinks (R200 to R205). -/

variable {a : Arrival} {n : Nat}

@[simp] theorem firstCopy_regs : (firstCopy s a).2.regs = s.regs := by
  dsimp only [firstCopy]
  split <;> rfl

/-- Looking for a first copy and stamping the message leave the state of the Henvy. -/
theorem henvyState_firstCopy : henvyState (softStamp (firstCopy s a).2 .henvyControl) = henvyState s :=
  rn_congr (firstCopy_regs (s := s) (a := a))

/-- With Henvy on, the first copy of a message is stamped and taken, and another one is dropped (R99, R202). -/
theorem henvyArrives_first {f : State → State} (hon : henvyState s ≠ 0) (hfirst : (firstCopy s a).1 = true) :
    henvyArrives s a f = f (softStamp (firstCopy s a).2 .henvyControl) := by
  simp [henvyArrives, hvOff, hon, hfirst]

theorem henvyArrives_copy {f : State → State} (hon : henvyState s ≠ 0) (hcopy : (firstCopy s a).1 = false) :
    henvyArrives s a f = (firstCopy s a).2 := by
  simp [henvyArrives, hvOff, hon, hcopy]

/-- A joined module notes when a joined member was last heard (R205). -/
theorem henvyMember_of_joined {m : MemberMsg} (hjoined : henvyState s = 2) (hrefused : m.refused = false)
    (hcandidate : m.candidate = false) : henvyMember s m =
      { s with henvy := { s.henvy with members := setAt s.henvy.members m.number.val (some s.clock.timClk) } } := by
  simp [henvyMember, hvOff, hvCandidate, hvRefusedNumber, hvRefusedDomain, hjoined, hrefused, hcandidate]

/-- A joined module sets the objects that a STOP demands (R204). -/
theorem henvyStop_of_joined {objects : Nat} (hjoined : henvyState s = 2) : henvyStop s n objects =
    setObjects { s with henvy := { s.henvy with stopSeen := setAt s.henvy.stopSeen n (some s.clock.timClk) } } objects 4 :=
  if_neg (not_not.mpr hjoined)

theorem henvyStopSend_of_joined (hjoined : henvyState s = 2) : henvyStopSend s =
    (let t := { s with henvy := { s.henvy with stopSeq := s.henvy.stopSeq + 1 } }
     upSend t 7 (henvyHead t 7 3) (.stop (s.rn 0x3018 2) (s.henvy.stopSeq + 1))) :=
  if_neg (not_not.mpr hjoined)

/-- A known module that has been silent for 10 ms is forgotten and its objects are set (R204). -/
theorem henvySilence_of_silent {t : Nat} (hjoined : henvyState s = 2) (hsince : silentSince s n = some t)
    (hlate : s.elapsed t (wallSec 1 / 100) = true) : henvySilence s n =
      setObjects { s with henvy := { s.henvy with stopSeen := setAt s.henvy.stopSeen n none,
                                                  members := setAt s.henvy.members n none } } (s.rn 0x3080 7) 4 := by
  have hsilent : (silentSince s n).any (fun t => s.elapsed t (wallSec 1 / 100)) = true := by rw [hsince, Option.any_some, hlate]
  rw [henvySilence, hsilent, if_neg]
  simp [hvJoined, hjoined]

theorem candidateEnd_of_candidate (hcandidate : henvyState s = 1) (hlate : s.henvy.since + wallSec 3 ≤ s.clock.timClk) :
    candidateEnd s = s.setNum 0x3080 8 2 :=
  if_pos (Bool.and_eq_true_iff.mpr ⟨decide_eq_true hcandidate, decide_eq_true hlate⟩)

theorem prpSupervision_of_on (hprp : s.rn 0x3080 1 ≠ 0) (hcx : s.cxUp = true) : prpSupervision s =
    upSend s 0 (fun u => beBytes 6 (Config.portAddress (8 + u)).toNat) .supervision := by
  simp [prpSupervision, hprp, hcx]

/-- A path without a frame for 3 supervision intervals is down (R202). -/
theorem prpPath_down (hprp : s.rn 0x3080 1 ≠ 0) (hlate : s.elapsed (s.uplink n).lastRx (wallSec 6) = true) :
    prpPath s n false = s.setNum 0x3080 5 (setBit (s.rn 0x3080 5) n false) := by
  simp [prpPath, hprp, hlate]

theorem prpPath_up (hprp : s.rn 0x3080 1 ≠ 0) : prpPath s n true =
    (s.setUplink n { s.uplink n with lastRx := s.clock.timClk }).setNum 0x3080 5 (setBit (s.rn 0x3080 5) n true) :=
  if_neg hprp

end Sys2Proof.Machine

open Sys2Proof Sys2Proof.Machine

/-- Settles O5: a step either leaves the block as it is or ends with the hardware's cut, whatever the command did to the bounds. -/
theorem hobbleBoundsKept : Obligations.HobbleBoundsKept := by
  unfold Obligations.HobbleBoundsKept
  intro s t hs hstep
  obtain rfl | ⟨old, u, rfl⟩ := step_stays_or_settles s hstep
  · exact hs
  · exact boundsApart_settle u old

/-- Settles O6: at reset neither engine holds a position. -/
theorem resetKeepsBounds : Obligations.ResetKeepsBounds := by
  unfold Obligations.ResetKeepsBounds
  exact fun k _ => Nat.zero_le (ringN State.reset k)

/-- Settles O39: each event's own tests are met by what its condition names. -/
theorem pathAndCoastEventsAct : Obligations.PathAndCoastEventsAct := by
  unfold Obligations.PathAndCoastEventsAct
  refine ⟨?release, ?correctable, ?demote, ?ringBreak, ?heal, ?timeout, ?announced, ?bothLinks, ?oneThenOther, ?lone, ?limit, ?exit,
    ?commit⟩
  case release => exact fun e b => does_of_whenOn (fun _ => rfl) fun _ hs => hs.1
  case correctable =>
    exact fun e => does_of_onRuns (fun _ => rfl) (fun _ hs => hs.1) fun s ⟨_, hact⟩ => selfDemote_correctable hact
  case demote =>
    exact fun e c hc => does_of_onRuns (fun _ => rfl) (fun _ hs => hs.1) fun s ⟨_, hact, hfails⟩ => selfDemote_of_fails hact hc hfails
  case ringBreak => exact fun e k reach => does_of_whenOn (fun _ => rfl) fun _ hs => hs.1
  case heal =>
    exact fun k => does_of_onRuns (fun _ => rfl) (fun _ hs => hs.1) fun s ⟨_, hring, hsplit, hcross, hnone, hseg, hfrom⟩ =>
      ringHeal_of_ready hring hsplit hcross hnone hseg hfrom
  case timeout => exact fun k h => does_of_whenOn (fun _ => rfl) fun _ hs => hs.1
  case announced => exact fun t => does_of_whenOn (fun _ => rfl) fun _ hs => hs.1
  case bothLinks => exact does_of_whenOn (fun _ => rfl) fun _ hs => hs.1
  case oneThenOther => exact does_of_whenOn (fun _ => rfl) fun _ hs => hs.1
  case lone => exact fun e => does_of_whenOn (fun _ => rfl) fun _ hs => hs.1
  case limit =>
    exact does_of_onRuns (fun _ => rfl) (fun _ hs => hs.1) fun s ⟨_, hactive, hhit, hlimit⟩ => coastLimit_of_reached hactive hhit hlimit
  case exit => exact does_of_whenCx (fun _ => rfl) (fun _ hs => hs.1) fun s ⟨_, _, hdue⟩ => leaveCoast_of_due hdue
  case commit =>
    exact fun n => does_of_whenCx (fun _ => rfl) (fun _ hs => hs.1) fun s ⟨_, hlocal, hack, hchanged⟩ =>
      commitCoastRec_of_changed hlocal hack hchanged

/-- Settles O40: each event's own tests are met by what its condition names; of Henvy, the state outlives the arrival. -/
theorem henvyAndUplinkEventsAct : Obligations.HenvyAndUplinkEventsAct := by
  unfold Obligations.HenvyAndUplinkEventsAct
  refine ⟨?member, ?copy, ?memberSend, ?stop, ?stopSend, ?silence, ?candidate, ?preemption, ?supervision, ?pathDown, ?pathUp⟩
  case member =>
    exact fun m hrefused hcandidate => does_of_whenCx (fun _ => rfl) (fun _ hs => hs.1) fun s ⟨_, hjoined, hfirst⟩ =>
      (henvyArrives_first (by simp [hjoined]) hfirst).trans
        (henvyMember_of_joined (henvyState_firstCopy.trans hjoined) hrefused hcandidate)
  case copy =>
    exact fun m => does_of_whenCx (fun _ => rfl) (fun _ hs => hs.1) fun s ⟨_, hjoined, hcopy⟩ =>
      henvyArrives_copy (by simp [hjoined]) hcopy
  case memberSend => exact does_of_whenCx (fun _ => rfl) (fun _ hs => hs.1) fun _ _ => rfl
  case stop =>
    exact fun m objects => does_of_whenCx (fun _ => rfl) (fun _ hs => hs.1) fun s ⟨_, hjoined, hfirst⟩ =>
      (henvyArrives_first (by simp [hjoined]) hfirst).trans (henvyStop_of_joined (henvyState_firstCopy.trans hjoined))
  case stopSend => exact does_of_whenCx (fun _ => rfl) (fun _ hs => hs.1) fun s ⟨_, hjoined⟩ => henvyStopSend_of_joined hjoined
  case silence =>
    exact fun n t => does_of_whenCx (fun _ => rfl) (fun _ hs => hs.1) fun s ⟨_, hjoined, hsince, hlate⟩ =>
      henvySilence_of_silent hjoined hsince hlate
  case candidate =>
    exact does_of_whenCx (fun _ => rfl) (fun _ hs => hs.1) fun s ⟨_, hcandidate, hlate⟩ => candidateEnd_of_candidate hcandidate hlate
  case preemption => exact fun u b => does_of_whenCx (fun _ => rfl) (fun _ hs => hs) fun _ _ => rfl
  case supervision =>
    exact does_of_whenCx (fun _ => rfl) (fun _ hs => hs.1) fun s ⟨⟨_, hcx⟩, hprp⟩ => prpSupervision_of_on hprp hcx
  case pathDown =>
    exact fun p => does_of_whenCx (fun _ => rfl) (fun _ hs => hs.1) fun s ⟨_, hprp, hlate⟩ => prpPath_down hprp hlate
  case pathUp => exact fun p => does_of_whenCx (fun _ => rfl) (fun _ hs => hs.1) fun s ⟨_, hprp⟩ => prpPath_up hprp

end

section
/-! SUPPORT. The family of spec section 06, the control engine: one step of the stop ramp, the limiter of a sample, and what follows from
the sample of a channel; then the statements. -/

namespace Sys2Proof.Machine

/-! The ramp (R231). -/

section
variable {y off rate : Bfp} {sum e : Int}

/-- An output at the off value stays there, and the ramp is complete. -/
theorem rampStep_at_off (h : bfpCmp off y = 0) : rampStep y off rate = (off, true, false) := if_pos h

/-- A step up adds the rate, and ends at the off value where the sum reaches or passes it. -/
theorem rampStep_up (hdir : 0 < bfpCmp off y) (hsum : bfpAccumulate [bfpData y, bfpData rate] = (sum, e)) :
    rampStep y off rate =
      if 0 ≤ bfpCmp (bfpNorm sum e).1 off then (off, true, (bfpNorm sum e).2) else ((bfpNorm sum e).1, false, (bfpNorm sum e).2) := by
  have hnot : ¬ bfpCmp off y < 0 := by omega
  simp only [rampStep, hdir.ne', hdir, hnot, hsum, if_true, if_false, decide_true, decide_false, Bool.true_and, Bool.false_and,
    Bool.or_false, decide_eq_true_eq]
  split <;> simp [*]

/-- A step down takes the rate away, and ends at the off value where the difference reaches or passes it. -/
theorem rampStep_down (hdir : bfpCmp off y < 0) (hsum : bfpAccumulate [bfpData y, bfpData ⟨-rate.m, rate.e⟩] = (sum, e)) :
    rampStep y off rate =
      if bfpCmp (bfpNorm sum e).1 off ≤ 0 then (off, true, (bfpNorm sum e).2) else ((bfpNorm sum e).1, false, (bfpNorm sum e).2) := by
  have hnot : ¬ 0 < bfpCmp off y := by omega
  simp only [rampStep, hdir.ne, hdir, hnot, hsum, if_false, decide_true, decide_false, Bool.true_and, Bool.false_and,
    Bool.false_or, decide_eq_true_eq]
  split <;> simp [*]

end

/-- A datum is stored with its mantissa shifted left (R216). -/
theorem bfpStore_mantissa {d w : Bfp} (h : bfpStore d = some w) : ∃ k : Nat, w.m = d.m * 2 ^ k := by
  simp only [bfpStore] at h
  split at h
  next hzero => exact ⟨0, by simp [← Option.some.inj h, hzero, Bfp.zero]⟩
  next =>
    obtain ⟨-, hw⟩ := Option.ite_none_left_eq_some.mp h
    exact ⟨_, by rw [← Option.some.inj hw]⟩

/-- So its mantissa keeps its sign, and one that is not stored counts as 0. -/
theorem bfpStore_mantissa_nonpos {d : Bfp} (h : d.m ≤ 0) : ((bfpStore d).getD Bfp.zero).m ≤ 0 := by
  cases hw : bfpStore d with
  | none => exact le_refl 0
  | some w =>
    obtain ⟨k, hk⟩ := bfpStore_mantissa hw
    rw [Option.getD_some, hk]
    exact mul_nonpos_of_nonpos_of_nonneg h (by positivity)

/-- A cause stands among the causes where its test holds. -/
theorem mem_codeIf {b : Bool} (code : Nat) (h : b = true) : code ∈ codeIf b code := by simp [codeIf, h]

/-- A ramp rate is refused where its stored mantissa is 0 or less (R231). -/
theorem check4_rampRate (s : State) (index v : Nat) :
    check4 s index 0x14 v = codeIf (((bfpStore (Bfp.ofBits v)).getD Bfp.zero).m ≤ 0) abRangeLow := rfl

/-! The limiter (R223). -/

@[simp] theorem bump_chans (s : State) (i j : Nat) : (s.bump i j).chans = s.chans := by rw [bump_frame]

/-- A UINT64 counter writes its register, and a free value where it passes its last. -/
theorem bump64_frame (s : State) (i j : Nat) :
    s.bump64 i j = { s with regs := (s.bump64 i j).regs, freeCtr := (s.bump64 i j).freeCtr } := by
  simp only [State.bump64, State.countBy]
  split <;> rfl

@[simp] theorem bump64_chans (s : State) (i j : Nat) : (s.bump64 i j).chans = s.chans := by rw [bump64_frame]

/-- Reads of channels rest on their store. -/
theorem chan_congr {s t : State} {n : Nat} (h : t.chans = s.chans) : t.chan n = s.chan n := by simp only [State.chan, h]

/-- What a sample counts changes no channel. -/
theorem counted_chans (s : State) (index : Nat) (sat : Bool) :
    (if sat = true then (s.bump64 index 0x1D).bump index 0x1F else s.bump64 index 0x1D).chans = s.chans := by
  cases sat <;> simp

/-- A sample puts out u or the bound that its flag names, in a channel that holds u and the flags. -/
theorem evaluate_puts_limited (s : State) (n : Nat) (c : Chan) (i : XIn) (x : Bfp) :
    ∃ (d : Chan) (y : Bfp),
      (evaluate s n c i x).chans = (putOutput s n y d).chans ∧
      d.limHi = decide (bfpCmp d.u (s.tkBfp (chIdx n) 0x10) > 0) ∧ d.limLo = decide (bfpCmp d.u (s.tkBfp (chIdx n) 0x11) < 0) ∧
      y = if d.limHi then s.tkBfp (chIdx n) 0x10 else if d.limLo then s.tkBfp (chIdx n) 0x11 else d.u := by
  refine ⟨?d, ?y, ?chans, ?upper, ?lower, ?output⟩
  case chans => exact counted_chans ..
  case upper => rfl
  case lower => rfl
  case output => rfl

/-- The limiter of a sample, as the channel holds it afterwards. -/
theorem evaluate_limiter (s : State) (n : Nat) (c : Chan) (i : XIn) (x : Bfp) :
    let r := (evaluate s n c i x).chan n
    let hi := s.tkBfp (chIdx n) 0x10
    let lo := s.tkBfp (chIdx n) 0x11
    (r.limHi = true ↔ 0 < bfpCmp r.u hi) ∧ (r.limLo = true ↔ bfpCmp r.u lo < 0) ∧
      r.y = if r.limHi then hi else if r.limLo then lo else r.u := by
  obtain ⟨d, y, hchans, hhi, hlo, hy⟩ := evaluate_puts_limited s n c i x
  simp only [chan_congr hchans, putOutput, State.chan_setChan]
  exact ⟨by rw [hhi, decide_eq_true_iff, gt_iff_lt], by rw [hlo, decide_eq_true_iff], hy⟩

/-- An upper bound is refused below the lower one, and while a commit holds it (R223, R240). -/
theorem check4_upperBound (s : State) (index v : Nat) : check4 s index 0x10 v =
    codeIf (heldByCommit s (index - 0x4000) 0x10) abCommitPending ++
      codeIf (bfpAbove (s.rBfp index 0x11) ((bfpStore (Bfp.ofBits v)).getD Bfp.zero)) abDependency := rfl

/-- A lower bound is refused above the upper one, and while a commit holds it (R223, R240). -/
theorem check4_lowerBound (s : State) (index v : Nat) : check4 s index 0x11 v =
    codeIf (heldByCommit s (index - 0x4000) 0x11) abCommitPending ++
      codeIf (bfpAbove ((bfpStore (Bfp.ofBits v)).getD Bfp.zero) (s.rBfp index 0x10)) abDependency := rfl

/-! A sample of a channel, and the registers that what follows from it leaves alone. -/

/-- Functions that leave the registers leave them one after the other. -/
theorem foldl_regs {α : Type} {f : State → α → State} (h : ∀ s a, (f s a).regs = s.regs) (l : List α) (s : State) :
    (l.foldl f s).regs = s.regs := by
  induction l generalizing s with
  | nil => rfl
  | cons a l ih => exact (ih (f s a)).trans (h s a)

section
variable (old s : State)

@[simp] theorem event_regs (code inst : Nat) (payload : List Byte) : (s.event code inst payload).regs = s.regs := by
  simp only [State.event, State.record]
  split <;> rfl

@[simp] theorem recordChanEvent_regs (n : Nat) : (recordChanEvent old s n).regs = s.regs := by
  simp only [recordChanEvent]
  split <;> simp

@[simp] theorem recordAxisEvent_regs (n : Nat) : (recordAxisEvent old s n).regs = s.regs := by
  simp only [recordAxisEvent]
  split <;> simp

@[simp] theorem recordStationEvent_regs (n : Nat) : (recordStationEvent old s n).regs = s.regs := by
  simp only [recordStationEvent]
  split <;> simp

/-- Recording events writes no register. -/
theorem recordEvents_regs : (recordEvents old s).regs = s.regs := by
  have hchans (t : State) (l : Map Chan) : (l.foldl (fun s p => recordChanEvent old s p.1) t).regs = t.regs :=
    foldl_regs (fun s p => recordChanEvent_regs old s p.1) l t
  have haxes (t : State) (l : Map Axis) : (l.foldl (fun s p => recordAxisEvent old s p.1) t).regs = t.regs :=
    foldl_regs (fun s p => recordAxisEvent_regs old s p.1) l t
  have hstations (t : State) (l : Map Station) : (l.foldl (fun s p => recordStationEvent old s p.1) t).regs = t.regs :=
    foldl_regs (fun s p => recordStationEvent_regs old s p.1) l t
  have hrein (t : State) : (eventRein t).2.regs = t.regs := rfl
  simp only [recordEvents]
  split <;> split <;> simp only [event_regs, hrein, hstations, haxes, hchans]

/-- Nor does marking a changed configuration. -/
theorem noteConfig_regs : (noteConfig old s).regs = s.regs := by
  simp only [noteConfig]
  split <;> rfl

/-- Nor does what sequencers learn of Rein bits. -/
theorem noteSeqReins_regs : (noteSeqReins s).regs = s.regs := by
  simp only [noteSeqReins]
  split
  · rfl
  · refine foldl_regs (fun s p => ?_) _ s
    split
    · rfl
    · split <;> rfl

/-- Nor does the end of watches. -/
theorem endedWatches_regs : (endedWatches s).regs = s.regs := by
  have hnotify (t : State) (w : Watch) (abort : Nat) : (notify t w abort []).regs = t.regs := by
    simp only [notify]
    split <;> rfl
  simp only [endedWatches]
  split
  · rfl
  · exact foldl_regs (fun t w => hnotify t w _) _ s

@[simp] theorem driveRails_regs (e : Engine) : (driveRails s e).regs = s.regs := by
  obtain ⟨a, b, h⟩ := driveRails_frame s e
  rw [h]

/-- The hardware's cut of the bounds writes no register. -/
theorem keepBounds_regs : (keepBounds s).regs = s.regs := by
  rw [keepBounds_eq, driveRails_regs, driveRails_regs]

/-- A command takes the registers from the state that the reactions end with. -/
theorem adopt_regs (r : State) (q : List Instr) : (s.adopt r q).regs = r.regs := rfl

/-- Where items are placed rests on channels, axes and tasks. -/
theorem placements_congr {s t : State} (hchans : t.chans = s.chans) (haxes : t.axes = s.axes) (htasks : t.tasks = s.tasks) :
    placements t = placements s := by
  simp only [placements, hchans, haxes, htasks]

/-- Cores whose units stay as they are keep their items. -/
theorem coreItems_of_same_units (h : s.ost = old.ost) : coreItems old s = s := by
  refine List.foldl_fixed' (fun c => ?_) _
  simp only [State.unit, h, if_true]

/-- Where there are no tasks and no stations, and no item is placed or moved, what follows from a command writes no register. -/
theorem settle_regs (hplaced : placements s = placements old) (host : s.ost = old.ost) (htasks : s.tasks = []) (hold : old.tasks = [])
    (hstations : s.stations = []) : (settle old s).regs = s.regs := by
  have hostler : ostlerSettle old s = s := if_pos (by rw [hplaced, host]; simp)
  have hcores : coreReactions (coreItems old (retiredCores old (ostlerSettle old s))) = s := by
    rw [hostler, retiredCores, hold, List.foldl_nil, coreItems_of_same_units old s host, coreReactions, htasks, List.foldl_nil]
  have hlost : lostStations old s = s := by rw [lostStations, hstations, List.foldl_nil]
  rw [settle, adopt_regs, reactions, hcores, keepBounds_regs, recordEvents_regs, noteSeqReins_regs, noteConfig_regs, endedWatches_regs,
    hlost]

end

/-- A sample runs where the channels' function serves. -/
theorem exec_channelSample {s : State} (n : Fin 4096) (h : servesFn 3 s) :
    exec (.channelSample n) s = .next (settle s (sampleChannel s n.val)) := by
  obtain ⟨hon, hcx, hserves⟩ := h
  have hrun : whenServes 3 (sampleChannel · n.val) s = sampleChannel s n.val := whenServes_on s 3 _ hon hcx hserves
  rw [← hrun]
  rfl

/-- Channel 0, placed, with an armed commit whose target 0x101 is beyond the 0x10 that a commit word may name (R238). Sections are
stored by number, so that the commit's section 0x100 of channel 0 is section 0 of channel 1, where a register is set. -/
def strayCommit : State :=
  { State.reset with
    regs := [(regKey 0x4001 0x30, .num 1)]
    health := { State.reset.health with running := true }
    dict := { State.reset.dict with ready := [(3, ⟨2, 0, 0⟩)] }
    chans := [(0, { Chan.init with placed := true, commits := [⟨0x101, false, 0, .program, 0⟩] })] }

/-- That state's sample places and moves no item, so that what follows writes no register. -/
theorem settle_strayCommit_regs {t : State} (hchans : t.chans = (sampleChannel strayCommit 0).chans)
    (hframe : t = { strayCommit with
      chans := t.chans, regs := t.regs, traces := t.traces, taken := t.taken, freeCtr := t.freeCtr }) :
    (settle strayCommit t).regs = t.regs := by
  have haxes : t.axes = strayCommit.axes := by rw [hframe]
  have htasks : t.tasks = strayCommit.tasks := by rw [hframe]
  have hstations : t.stations = strayCommit.stations := by rw [hframe]
  have host : t.ost = strayCommit.ost := by rw [hframe]
  have hplaced : placements t = placements strayCommit :=
    (placements_congr hchans haxes htasks).trans (by decide : placements (sampleChannel strayCommit 0) = placements strayCommit)
  exact settle_regs strayCommit t hplaced host htasks rfl hstations

end Sys2Proof.Machine

open Sys2Proof Sys2Proof.Machine

/-- Settles O18: the sign of off value less output gives the direction, and a stored rate keeps the sign of the one written. -/
theorem rampStepTowardsOffValue : Obligations.RampStepTowardsOffValue := by
  unfold Obligations.RampStepTowardsOffValue
  intro y off rate
  refine ⟨rampStep_at_off, ?up, ?down, ?refused⟩
  case up =>
    intro sum e hdir hsum
    rw [rampStep_up hdir hsum]
    exact ⟨fun h => if_pos h, fun h => if_neg h.not_ge⟩
  case down =>
    intro sum e hdir hsum
    rw [rampStep_down hdir hsum]
    exact ⟨fun h => if_pos h, fun h => if_neg h.not_ge⟩
  case refused =>
    intro s n v hv
    rw [check4_rampRate]
    exact mem_codeIf _ (decide_eq_true (bfpStore_mantissa_nonpos hv))

/-- Settles O19: the sample puts out what its flags name, and a bound is compared with the other as it is stored. -/
theorem limiterHoldsTheOutput : Obligations.LimiterHoldsTheOutput := by
  unfold Obligations.LimiterHoldsTheOutput
  intro s n c i x
  obtain ⟨hhi, hlo, hy⟩ := evaluate_limiter s n c i x
  refine ⟨hhi, hlo, ?upper, ?lower, ?between, ?crossing⟩
  case upper => exact fun hu => hy.trans (if_pos hu)
  case lower => exact fun hu hl => hy.trans ((if_neg (Bool.eq_false_iff.mp hu)).trans (if_pos hl))
  case between => exact fun hu hl => hy.trans ((if_neg (Bool.eq_false_iff.mp hu)).trans (if_neg (Bool.eq_false_iff.mp hl)))
  case crossing =>
    intro k v w hw
    rw [check4_upperBound, check4_lowerBound, hw]
    exact ⟨fun h => List.mem_append_right _ (mem_codeIf _ (decide_eq_true h)),
      fun h => List.mem_append_right _ (mem_codeIf _ (decide_eq_true h))⟩

/-- Refutes O20: nothing in the statement bounds the target of an armed commit. With the target 0x101, which no commit
word can name (R238), the sample of channel 0 swaps the banks of section 0 of channel 1. -/
theorem not_channelSampleChangesOneChannel : ¬ Obligations.ChannelSampleChangesOneChannel := by
  unfold Obligations.ChannelSampleChangesOneChannel
  intro h
  have hserves : servesFn 3 strayCommit := by decide
  obtain ⟨t, hexec, hframe, -, hregs⟩ := h 0 strayCommit ⟨hserves, by decide, by decide⟩
  have hsettled : settle strayCommit t = settle strayCommit (sampleChannel strayCommit 0) :=
    Host.Outcome.next.inj (hexec.symm.trans (exec_channelSample 0 hserves))
  have hchans : t.chans = (sampleChannel strayCommit 0).chans := by
    simpa only [settle_chans] using congrArg State.chans hsettled
  have hsame : t.regs = (sampleChannel strayCommit 0).regs := by
    rw [← settle_strayCommit_regs hchans hframe, hsettled, settle_strayCommit_regs rfl rfl]
  have hkept : (sampleChannel strayCommit 0).rn 0x4001 0x30 = strayCommit.rn 0x4001 0x30 :=
    (rn_congr hsame).symm.trans (hregs 0x4001 0x30 (by decide) (by decide) (.inl (by decide)))
  exact absurd hkept (by decide)

/-- Settles O54: each command puts a number of the entry's size (R74), so that an accepted write takes exactly its bytes. -/
theorem channelWritesAct : Obligations.ChannelWritesAct := by
  unfold Obligations.ChannelWritesAct
  intro w
  refine ⟨?enable, ?disable, ?commit, ?disarm, ?arm, ?trigger⟩
  case enable => exact fun n => writes_of_put_byte (v := 1) fun _ => rfl
  case disable => exact fun n => writes_of_put_byte (v := 0) fun _ => rfl
  case commit => exact fun n v => writes_of_put (fun _ => rfl) v.isLt
  case disarm => exact fun t => writes_of_put_byte (v := 0) fun _ => rfl
  case arm => exact fun t => writes_of_put_byte (v := 1) fun _ => rfl
  case trigger => exact fun t => writes_of_put_byte (v := 2) fun _ => rfl

end

section
/-! SUPPORT. The family of spec section 07, axes and groups. First the two command records, as the model writes them and as the
statements name them, and what `Writes` needs of a command that writes one; then the statement. -/

namespace Sys2Proof.Machine

variable {c : Instr} {w : WriteCtx}

/-- The record that an axis command writes is the one that the layout of R257 names. -/
theorem axisRecord_eq_commandRecord (op : Nat) (r : AxisCmd) : axisRecord op r = commandRecord op r := rfl

/-- The record that a group command writes is the one that the layout of R284 names. -/
theorem groupBytes_eq_groupRecordBytes (op : Nat) (l : List (BitVec 64)) : groupBytes op l = groupRecordBytes op l := rfl

/-- A command that serves a WRITE of some bytes to an entry writes those bytes there. -/
theorem writes_of_serveWrite {index sub : Nat} {data : List Byte}
    (hexec : ∀ s, exec c s = run (fun s => serveWrite s w index sub data) s) : Writes c w index sub data := by
  intro s hserved haccepted
  rw [hexec s, run_eq, serveWrite_accepted s w index sub data hserved haccepted, afterWrite]

/-- An axis command writes its record to OD 5000+n:1C (R257). -/
theorem writes_of_axisCommand {n : Fin 2048} {op : Nat} {r : AxisCmd} (hexec : ∀ s, exec c s = run (axisCommand w n op r) s) :
    Writes c w (0x5000 + n.val) 0x1C (commandRecord op r) := by
  rw [← axisRecord_eq_commandRecord]
  exact writes_of_serveWrite hexec

/-- A group command writes its record to OD 5800+g:04 (R284). -/
theorem writes_of_groupCommand {g : Fin 256} {op : Nat} {l : List (BitVec 64)}
    (hexec : ∀ s, exec c s = run (fun s => serveWrite s w (grpIdx g.val) 4 (groupBytes op l)) s) :
    Writes c w (0x5800 + g.val) 4 (groupRecordBytes op l) := by
  rw [← groupBytes_eq_groupRecordBytes]
  exact writes_of_serveWrite hexec

end Sys2Proof.Machine

open Sys2Proof Sys2Proof.Machine

/-- Settles O55: an enable puts one byte, and every other command here serves a WRITE of its record. The bound of 16 targets
is not needed: a longer list makes a longer record, which is written in the same way. -/
theorem axisWritesAct : Obligations.AxisWritesAct := by
  unfold Obligations.AxisWritesAct
  intro w
  refine ⟨?enable, ?disable, ?moveAbs, ?moveRel, ?moveVel, ?stop, ?gearIn, ?ratio, ?gearOut, ?reset, ?groupAbs, ?groupRel, ?groupStop⟩
  case enable => exact fun n => writes_of_put_byte (v := 1) fun _ => rfl
  case disable => exact fun n => writes_of_put_byte (v := 0) fun _ => rfl
  case moveAbs => exact fun n r => writes_of_axisCommand fun _ => rfl
  case moveRel => exact fun n r => writes_of_axisCommand fun _ => rfl
  case moveVel => exact fun n r => writes_of_axisCommand fun _ => rfl
  case stop => exact fun n r => writes_of_axisCommand fun _ => rfl
  case gearIn => exact fun n r => writes_of_axisCommand fun _ => rfl
  case ratio => exact fun n r => writes_of_axisCommand fun _ => rfl
  case gearOut => exact fun n r => writes_of_axisCommand fun _ => rfl
  case reset => exact fun n r => writes_of_axisCommand fun _ => rfl
  case groupAbs => exact fun g l _ => writes_of_groupCommand fun _ => rfl
  case groupRel => exact fun g l _ => writes_of_groupCommand fun _ => rfl
  case groupStop => exact fun g => writes_of_groupCommand fun _ => rfl

end

section
/-! SUPPORT. The family of spec section 08, local axes: quadrature encoders, index events and SSI. First what an event of one encoder
leaves alone, then what each event does, and the code of a GRAY word; then the statements. -/

namespace Sys2Proof.Machine

/-! What an event of one encoder leaves alone. -/

/-- From s to t nothing changes but encoder e, the registers of its own with a subindex of a list, local axes and the counter of free
values. -/
structure EncoderFrame (e : Nat) (subs : List Nat) (s t : State) : Prop where
  rest : t = { s with encs := t.encs, regs := t.regs, locals := t.locals, freeCtr := t.freeCtr }
  others : ∀ k, k ≠ e → t.enc k = s.enc k
  registers : ∀ i j, j < 256 → (i ≠ 0x7500 + e ∨ j ∉ subs) → t.rn i j = s.rn i j

namespace EncoderFrame

variable {e : Nat} {subs : List Nat} {s t : State}

theorem refl (e : Nat) (subs : List Nat) (s : State) : EncoderFrame e subs s s := ⟨rfl, fun _ _ => rfl, fun _ _ _ _ => rfl⟩

theorem trans {u : State} (hst : EncoderFrame e subs s t) (htu : EncoderFrame e subs t u) : EncoderFrame e subs s u where
  rest := by rw [htu.rest, hst.rest]
  others k hk := (htu.others k hk).trans (hst.others k hk)
  registers i j hj hother := (htu.registers i j hj hother).trans (hst.registers i j hj hother)

theorem setEnc (s : State) (x : Enc) : EncoderFrame e subs s (s.setEnc e x) :=
  ⟨rfl, fun k hk => State.enc_setEnc_ne s e k x hk, fun _ _ _ _ => rfl⟩

theorem withLocals (s : State) (l : Map LocalAxis) : EncoderFrame e subs s { s with locals := l } :=
  ⟨rfl, fun _ _ => rfl, fun _ _ _ _ => rfl⟩

/-- The key of a register outside the list differs from that of one in it. -/
theorem regKey_ne {i j k : Nat} (hj : j < 256) (hk : k < 256) (hmem : k ∈ subs) (hother : i ≠ 0x7500 + e ∨ j ∉ subs) :
    regKey i j ≠ regKey (encIdx e) k := by
  have hsub : i ≠ 0x7500 + e ∨ j ≠ k := hother.imp_right fun hj hjk => hj (hjk ▸ hmem)
  simp only [regKey, encIdx]
  omega

theorem bump (s : State) {k : Nat} (hk : k < 256) (hmem : k ∈ subs) : EncoderFrame e subs s (s.bump (encIdx e) k) where
  rest := by rw [bump_frame]
  others m _ := by rw [bump_frame]; rfl
  registers _ _ hj hother := rn_bump_ne (regKey_ne hj hk hmem hother)

theorem setNum (s : State) {k : Nat} (v : Nat) (hk : k < 256) (hmem : k ∈ subs) :
    EncoderFrame e subs s (s.setNum (encIdx e) k v) where
  rest := rfl
  others _ _ := rfl
  registers _ _ hj hother := State.rn_setNum_ne _ _ _ _ _ _ (regKey_ne hj hk hmem hother)

end EncoderFrame

/-- A loop over local axes that writes local axes only. -/
theorem forNums_locals {f : State → Nat → State} (n : Nat) (s : State) (h : ∀ t k, ∃ l, f t k = { t with locals := l }) :
    ∃ l, forNums n s f = { s with locals := l } := by
  refine forNums_keeps (P := fun t => ∃ l, t = { s with locals := l }) n ⟨_, rfl⟩ ?_
  rintro _ k ⟨l, rfl⟩
  obtain ⟨l', hl'⟩ := h { s with locals := l } k
  exact ⟨l', hl'⟩

variable (s : State) (e : Nat)

/-- The loss of HOMED writes local axes only. -/
theorem clearHomed_frame : ∃ l, clearHomed s e = { s with locals := l } := by
  refine forNums_locals 32 s fun t a => ?_
  dsimp only
  split
  · exact ⟨_, rfl⟩
  · exact ⟨_, rfl⟩

@[simp] theorem clearHomed_enc (k : Nat) : (clearHomed s e).enc k = s.enc k := by
  obtain ⟨l, h⟩ := clearHomed_frame s e
  rw [h]
  rfl

@[simp] theorem clearHomed_regs : (clearHomed s e).regs = s.regs := by
  obtain ⟨l, h⟩ := clearHomed_frame s e
  rw [h]

/-- Of two states' local axes nothing differs but HOMED. -/
def homedApart (s t : State) : Prop := ∀ k, t.loc k = { s.loc k with homed := (t.loc k).homed }

/-- Of a local axis only HOMED is lost (R302). -/
theorem clearHomed_homedApart : homedApart s (clearHomed s e) := by
  refine forNums_keeps (P := homedApart s) 32 (fun _ => rfl) fun t a ht => ?_
  dsimp only
  split
  · intro k
    obtain rfl | hk := eq_or_ne k a
    · rw [State.loc_setLoc, ht k]
    · rw [State.loc_setLoc_ne _ _ _ _ hk, ← ht k]
  · exact ht

theorem clearHomed_encoderFrame {subs : List Nat} : EncoderFrame e subs s (clearHomed s e) := by
  obtain ⟨l, h⟩ := clearHomed_frame s e
  rw [h]
  exact .withLocals s l

@[simp] theorem bump_enc (i j k : Nat) : (s.bump i j).enc k = s.enc k := by
  rw [bump_frame]
  rfl

@[simp] theorem bump_locals (i j : Nat) : (s.bump i j).locals = s.locals := by rw [bump_frame]

/-- Nothing but HOMED differs either from a state with the same local axes. -/
theorem homedApart_of_locals {s t u : State} (hst : t.locals = s.locals) (htu : homedApart t u) : homedApart s u := by
  intro k
  have hloc : t.loc k = s.loc k := by simp only [State.loc, hst]
  rw [← hloc]
  exact htu k

/-! An accepted edge of a quadrature pair (R301, R302). -/

/-- The steps in the cycle 00, 10, 11, 01 from one pair of levels to another. -/
def edgeStep (p q : Bool × Bool) : Nat := (quadPhase q.1 q.2 + 4 - quadPhase p.1 p.2) % 4

theorem edgeStep_same : ∀ p q : Bool × Bool, p = q → edgeStep p q = 0 := by decide

theorem edgeStep_forward : ∀ p q : Bool × Bool, (p, q) ∈ [((false, false), (true, false)), ((true, false), (true, true)),
    ((true, true), (false, true)), ((false, true), (false, false))] → edgeStep p q = 1 := by decide

theorem edgeStep_back : ∀ p q : Bool × Bool, (p, q) ∈ [((false, false), (false, true)), ((false, true), (true, true)),
    ((true, true), (true, false)), ((true, false), (false, false))] → edgeStep p q = 3 := by decide

theorem edgeStep_both : ∀ p q : Bool × Bool, p.1 ≠ q.1 → p.2 ≠ q.2 → edgeStep p q = 2 := by decide

/-- What an edge counts that is one step forward or three: the direction entry reverses it. -/
def edgeCount (step : Nat) : Int := if (step = 1) != (s.rn (encIdx e) 3 = 1) then 1 else -1

/-- What a step forward counts, as the statement names it. -/
theorem edgeCount_forward : edgeCount s e 1 = if s.rn (0x7500 + e) 3 = 1 then -1 else 1 := by
  rw [edgeCount, encIdx]
  by_cases hdir : s.rn (0x7500 + e) 3 = 1
  · simp [hdir]
  · simp [hdir]

/-- A step back counts the opposite of one forward. -/
theorem edgeCount_back : edgeCount s e 3 = -edgeCount s e 1 := by
  by_cases hdir : s.rn (encIdx e) 3 = 1
  · simp [edgeCount, hdir]
  · simp [edgeCount, hdir]

section
variable (a b : Bool) (offset : Nat)

/-- The state with the levels of an edge and nothing counted. -/
def edgeLevels : State := s.setEnc e { s.enc e with a := a, b := b }

/-- The state with an edge that brings the count to a number, which wraps in 64 bits, and with the edge's stamp. -/
def edgeCounted (count : Int) : State :=
  s.setEnc e { s.enc e with
    a := a, b := b, count := toSigned 64 (ofSigned 64 count), lastEdge := pwmClock s offset }

/-- The state with a change of both levels latched and counted as a fault, before HOMED is lost. -/
def edgeMissed : State :=
  (s.setEnc e { s.enc e with a := a, b := b, quadErr := true, faultTick := true }).bump (encIdx e) 0x11

/-- A fault that can still be counted is. -/
theorem rn_edgeMissed (h : s.rn (encIdx e) 0x11 + 1 < 2 ^ 32) :
    (edgeMissed s e a b).rn (encIdx e) 0x11 = s.rn (encIdx e) 0x11 + 1 := rn_bump (s := s.setEnc e _) h

/-- What an edge does, by the steps from the levels before it. -/
theorem encoderEdge_eq : encoderEdge s e a b offset =
    if s.rn (encIdx e) 1 ≠ 1 || (s.enc e).lineFault then edgeLevels s e a b
    else if edgeStep ((s.enc e).a, (s.enc e).b) (a, b) = 2 then clearHomed (edgeMissed s e a b) e
    else if edgeStep ((s.enc e).a, (s.enc e).b) (a, b) = 0 then edgeLevels s e a b
    else edgeCounted s e a b offset ((s.enc e).count + edgeCount s e (edgeStep ((s.enc e).a, (s.enc e).b) (a, b))) := rfl

/-- An edge leaves one of three states. -/
theorem encoderEdge_cases :
    encoderEdge s e a b offset = edgeLevels s e a b ∨
    (∃ count, encoderEdge s e a b offset = edgeCounted s e a b offset count) ∨
    encoderEdge s e a b offset = clearHomed (edgeMissed s e a b) e := by
  rw [encoderEdge_eq]
  split_ifs
  · exact .inl rfl
  · exact .inr (.inr rfl)
  · exact .inl rfl
  · exact .inr (.inl ⟨_, rfl⟩)

/-- An edge writes, of the registers, the encoder's count of faults. -/
theorem encoderEdge_encoderFrame : EncoderFrame e [0x11] s (encoderEdge s e a b offset) := by
  obtain h | ⟨count, h⟩ | h := encoderEdge_cases s e a b offset
  · rw [h]
    exact .setEnc s _
  · rw [h]
    exact .setEnc s _
  · rw [h]
    have hmissed : EncoderFrame e [0x11] s (edgeMissed s e a b) := (EncoderFrame.setEnc s _).trans (.bump _ (by decide) (by decide))
    exact hmissed.trans (clearHomed_encoderFrame _ e)

/-- The levels after an edge are those of the edge. -/
theorem encoderEdge_levels :
    ((encoderEdge s e a b offset).enc e).a = a ∧ ((encoderEdge s e a b offset).enc e).b = b := by
  obtain h | ⟨count, h⟩ | h := encoderEdge_cases s e a b offset
  · simp [h, edgeLevels]
  · simp [h, edgeCounted]
  · simp [h, edgeMissed]

/-- Of the local axes an edge can change HOMED. -/
theorem encoderEdge_homedApart : homedApart s (encoderEdge s e a b offset) := by
  obtain h | ⟨count, h⟩ | h := encoderEdge_cases s e a b offset
  · rw [h]
    exact fun _ => rfl
  · rw [h]
    exact fun _ => rfl
  · rw [h]
    have hlocals : (edgeMissed s e a b).locals = s.locals := by simp [edgeMissed]
    exact homedApart_of_locals hlocals (clearHomed_homedApart _ e)

end

/-! The same in QUADRATURE mode without LINE_FAULT, where every edge is accepted. -/

section
variable {s e} {a b : Bool} (offset : Nat) (hmode : s.rn (encIdx e) 1 = 1) (hline : (s.enc e).lineFault = false)
include hmode hline

theorem encoderEdge_accepts : ¬(decide (s.rn (encIdx e) 1 ≠ 1) || (s.enc e).lineFault) = true := by simp [hmode, hline]

theorem encoderEdge_same (hstep : edgeStep ((s.enc e).a, (s.enc e).b) (a, b) = 0) :
    encoderEdge s e a b offset = edgeLevels s e a b := by
  rw [encoderEdge_eq, if_neg (encoderEdge_accepts hmode hline), hstep]
  rfl

theorem encoderEdge_forward (hstep : edgeStep ((s.enc e).a, (s.enc e).b) (a, b) = 1) :
    encoderEdge s e a b offset = edgeCounted s e a b offset ((s.enc e).count + edgeCount s e 1) := by
  rw [encoderEdge_eq, if_neg (encoderEdge_accepts hmode hline), hstep]
  rfl

theorem encoderEdge_back (hstep : edgeStep ((s.enc e).a, (s.enc e).b) (a, b) = 3) :
    encoderEdge s e a b offset = edgeCounted s e a b offset ((s.enc e).count - edgeCount s e 1) := by
  rw [encoderEdge_eq, if_neg (encoderEdge_accepts hmode hline), hstep, Int.sub_eq_add_neg, ← edgeCount_back]
  rfl

theorem encoderEdge_both (hstep : edgeStep ((s.enc e).a, (s.enc e).b) (a, b) = 2) :
    encoderEdge s e a b offset = clearHomed (edgeMissed s e a b) e := by
  rw [encoderEdge_eq, if_neg (encoderEdge_accepts hmode hline), if_pos hstep]

end

/-! An index event (R303). -/

/-- A note to a homing writes local axes only. -/
theorem homingNote_frame (a : Nat) (f : Homing → Homing) : ∃ l, homingNote s a f = { s with locals := l } := by
  unfold homingNote
  dsimp only
  split
  · exact ⟨_, rfl⟩
  · exact ⟨_, rfl⟩

/-- The counts since the last index are not those of a revolution (R302). -/
def indexBad : Bool :=
  let cpr : Int := s.rn (encIdx e) 7
  cpr ≠ 0 && (s.enc e).lastIndex.any fun q => (((s.enc e).count - q).natAbs : Int) ≠ cpr

/-- An index event counts: in QUADRATURE mode, through the index gate (R303). -/
def indexOpen : Prop := s.rn (encIdx e) 1 = 1 ∧ (s.rn (encIdx e) 8 ≠ 1 ∨ ((s.enc e).a = true ∧ (s.enc e).b = true))

section
variable (offset : Nat)

/-- The encoder with the count and the stamp of an index event latched and INDEX_SEEN set. -/
def indexEnc : Enc :=
  { s.enc e with
    indexSeen := true, lastIndex := some (s.enc e).count, indexAt := pwmClock s offset,
    indexErr := (s.enc e).indexErr || indexBad s e }

/-- The state with that encoder and the entry of the latched count. -/
def indexLatched : State := (s.setEnc e (indexEnc s e offset)).setNum (encIdx e) 9 (ofSigned 64 (s.enc e).count)

/-- The same with the fault counted that a wrong number of counts is. -/
def indexChecked : State :=
  if indexBad s e then (indexLatched s e offset).bump (encIdx e) 0x11 else indexLatched s e offset

theorem indexChecked_enc : (indexChecked s e offset).enc e = indexEnc s e offset := by
  have hlatched : (indexLatched s e offset).enc e = indexEnc s e offset := State.enc_setEnc ..
  unfold indexChecked
  split
  · rw [bump_enc, hlatched]
  · exact hlatched

/-- The latched count is the one of the event. -/
theorem rn_indexChecked : (indexChecked s e offset).rn (encIdx e) 9 = ofSigned 64 (s.enc e).count := by
  have hkey : regKey (encIdx e) 9 ≠ regKey (encIdx e) 0x11 := by
    simp [regKey]
  have hlatched : (indexLatched s e offset).rn (encIdx e) 9 = ofSigned 64 (s.enc e).count := State.rn_setNum ..
  unfold indexChecked
  split
  · rw [rn_bump_ne hkey, hlatched]
  · exact hlatched

theorem indexChecked_encoderFrame : EncoderFrame e [9, 0x11] s (indexChecked s e offset) := by
  have hlatched : EncoderFrame e [9, 0x11] s (indexLatched s e offset) :=
    (EncoderFrame.setEnc s _).trans (.setNum _ _ (by decide) (by decide))
  unfold indexChecked
  split
  · exact hlatched.trans (.bump _ (by decide) (by decide))
  · exact hlatched

/-- An index event that does not count is none. -/
theorem encoderIndex_of_not_open (h : ¬indexOpen s e) : encoderIndex s e offset = s := by
  refine if_pos ?_
  by_cases hmode : s.rn (encIdx e) 1 = 1
  · simpa [indexOpen, hmode, imp_iff_not_or] using h
  · simp [hmode]

variable {s e} in
/-- One that counts is latched and checked, and may be the home edge of local axes (R312). -/
theorem encoderIndex_of_open (h : indexOpen s e) : ∃ l, encoderIndex s e offset = { indexChecked s e offset with locals := l } := by
  obtain ⟨hmode, hgate⟩ := h
  have hcounts : ¬(decide (s.rn (encIdx e) 1 ≠ 1) || decide (s.rn (encIdx e) 8 = 1) && !((s.enc e).a && (s.enc e).b)) = true := by
    obtain hgate | ⟨ha, hb⟩ := hgate
    · simp [hmode, hgate]
    · simp [hmode, ha, hb]
  rw [encoderIndex, if_neg hcounts]
  refine forNums_locals 32 (indexChecked s e offset) fun t a => ?_
  dsimp only
  split
  · exact ⟨_, rfl⟩
  · exact homingNote_frame ..

theorem encoderIndex_encoderFrame : EncoderFrame e [9, 0x11] s (encoderIndex s e offset) := by
  by_cases hopen : indexOpen s e
  · obtain ⟨l, h⟩ := encoderIndex_of_open offset hopen
    rw [h]
    exact (indexChecked_encoderFrame s e offset).trans (.withLocals _ l)
  · rw [encoderIndex_of_not_open s e offset hopen]
    exact .refl ..

end

/-! The other events of an encoder (R302, R304). -/

theorem encoderLineFault_encoderFrame : EncoderFrame e [] s (encoderLineFault s e) := by
  unfold encoderLineFault
  split
  · exact .refl ..
  · exact (EncoderFrame.setEnc s _).trans (clearHomed_encoderFrame _ e)

theorem encoderLineClear_encoderFrame : EncoderFrame e [] s (encoderLineClear s e) := .setEnc s _

/-- A transfer writes its encoder and, where one of its checks fails, the count of faults. -/
theorem ssiTransfer_encoderFrame (word : Nat) (idleHigh monoLow parity : Bool) :
    EncoderFrame e [0x11] s (ssiTransfer s e word idleHigh monoLow parity) := by
  unfold ssiTransfer
  dsimp only
  split
  · exact .refl ..
  · split
    · exact (EncoderFrame.setEnc s _).trans (.bump _ (by decide) (by decide))
    · exact .setEnc s _

/-- An event of AX that keeps an encoder's frame leaves the registers of every other one. -/
theorem touches_of_encoderFrame {c : Instr} {f : State → State} {e : Nat} {subs : List Nat} (hexec : ∀ s, exec c s = run (whenAx f) s)
    (hframe : ∀ s, EncoderFrame e subs s (f s)) :
    Touches c axRuns fun s t =>
      t = { s with encs := t.encs, regs := t.regs, locals := t.locals, freeCtr := t.freeCtr } ∧
      (∀ k, k ≠ e → t.enc k = s.enc k) ∧ (∀ i j, j < 256 → i ≠ 0x7500 + e → t.rn i j = s.rn i j) :=
  touches_of_axRuns hexec (fun _ hax => hax) fun s _ =>
    ⟨(hframe s).rest, (hframe s).others, fun i j hj hi => (hframe s).registers i j hj (.inl hi)⟩

/-! The code of a GRAY word (R304). -/

/-- A GRAY word has a bit 0 where the number's bits 0 and 1 differ; half of it is the word of half the number. -/
theorem grayDecode_xor_half {n w : Nat} (h : w < 2 ^ n) : grayDecode n (w ^^^ (w / 2)) = w := by
  induction n generalizing w with
  | zero =>
    rw [Nat.lt_one_iff.mp h]
    rfl
  | succ n ih =>
    have hhalf : (w ^^^ w / 2) / 2 = w / 2 ^^^ w / 2 / 2 := Nat.xor_div_two
    have hbit : (w ^^^ w / 2) % 2 = (w + w / 2) % 2 := Nat.xor_mod_two_eq
    have hlt : w / 2 < 2 ^ n := by omega
    have hdiffer : (decide (w / 2 % 2 = 1) != decide ((w + w / 2) % 2 = 1)) = decide (w % 2 = 1) := by
      rw [Bool.eq_iff_iff, bne_iff_ne, ne_eq, decide_eq_decide, decide_eq_true_iff]
      omega
    simp only [grayDecode, hhalf, ih hlt, hbit, hdiffer, decide_eq_true_iff]
    split
    · omega
    · omega

end Sys2Proof.Machine

open Sys2Proof Sys2Proof.Machine

/-- Settles O21: the steps from the old levels to the new ones say what an edge does, and whatever it does keeps the rest. -/
theorem encoderEdgeCounts : Obligations.EncoderEdgeCounts := by
  unfold Obligations.EncoderEdgeCounts
  intro e a b offset
  refine touches_of_axRuns (fun _ => rfl) (fun _ hs => hs.1) fun s ⟨_, hmode, hline⟩ => ?_
  have hframe := encoderEdge_encoderFrame s e.val a b offset
  obtain ⟨ha, hb⟩ := encoderEdge_levels s e.val a b offset
  refine ⟨ha, hb, ?same, ?forward, ?back, ?both, hframe.others, ?registers, encoderEdge_homedApart s e.val a b offset, hframe.rest⟩
  case same =>
    intro hlevels
    rw [encoderEdge_same offset hmode hline (edgeStep_same _ _ hlevels)]
    simp [edgeLevels]
  case forward =>
    intro hlevels
    rw [encoderEdge_forward offset hmode hline (edgeStep_forward _ _ hlevels), edgeCount_forward]
    simp [edgeCounted, pwmClock]
  case back =>
    intro hlevels
    rw [encoderEdge_back offset hmode hline (edgeStep_back _ _ hlevels), edgeCount_forward]
    simp [edgeCounted, pwmClock]
  case both =>
    intro hna hnb
    rw [encoderEdge_both offset hmode hline (edgeStep_both _ _ hna hnb), rn_congr (clearHomed_regs ..)]
    exact ⟨by simp [edgeMissed], by simp [edgeMissed], rn_edgeMissed s e.val a b⟩
  case registers => exact fun i j hj hother => hframe.registers i j hj (by simpa using hother)

/-- Settles O22: through the gate the event is latched, and what follows from it writes no encoder and no register but the
count of faults; against the gate nothing changes.
That a stamp counts PWM clocks from tick 0 is the model's choice (notes/assumptions/75.md). -/
theorem indexEventLatchesTheCount : Obligations.IndexEventLatchesTheCount := by
  unfold Obligations.IndexEventLatchesTheCount
  intro e offset
  refine ⟨?counts, ?gated⟩
  case counts =>
    refine touches_of_axRuns (fun _ => rfl) (fun _ hs => hs.1) fun s ⟨_, hopen⟩ => ?_
    obtain ⟨l, h⟩ := encoderIndex_of_open offset (s := s) (e := e.val) hopen
    have henc : (encoderIndex s e.val offset).enc e.val = indexEnc s e.val offset := by
      rw [h]
      exact indexChecked_enc s e.val offset
    have hcount : (encoderIndex s e.val offset).rn (encIdx e.val) 9 = ofSigned 64 (s.enc e.val).count := by
      rw [h]
      exact rn_indexChecked s e.val offset
    rw [henc]
    exact ⟨rfl, hcount, rfl, rfl, rfl⟩
  case gated =>
    refine touches_of_axRuns (fun _ => rfl) (fun _ hs => hs.1) fun s ⟨_, _, hgate, hlow⟩ => ?_
    refine encoderIndex_of_not_open s e.val offset ?_
    rintro ⟨_, hclosed | ⟨ha, hb⟩⟩
    · exact hclosed hgate
    · simp [ha, hb] at hlow

/-- Settles O23: each event keeps the frame of its encoder. -/
theorem encoderEventsChangeOneEncoder : Obligations.EncoderEventsChangeOneEncoder := by
  unfold Obligations.EncoderEventsChangeOneEncoder
  intro e c hc
  obtain ⟨a, b, offset, rfl⟩ | ⟨offset, rfl⟩ | rfl | rfl | ⟨word, i, m, p, rfl⟩ := hc
  · exact touches_of_encoderFrame (fun _ => rfl) fun s => encoderEdge_encoderFrame s e.val a b offset
  · exact touches_of_encoderFrame (fun _ => rfl) fun s => encoderIndex_encoderFrame s e.val offset
  · exact touches_of_encoderFrame (fun _ => rfl) fun s => encoderLineFault_encoderFrame s e.val
  · exact touches_of_encoderFrame (fun _ => rfl) fun s => encoderLineClear_encoderFrame s e.val
  · exact touches_of_encoderFrame (fun _ => rfl) fun s => ssiTransfer_encoderFrame s e.val word.toNat i m p

/-- Settles O24: by induction over the number of bits: half of the word codes half of the number. -/
theorem grayWordIsConverted : Obligations.GrayWordIsConverted := by
  unfold Obligations.GrayWordIsConverted
  exact fun n w => grayDecode_xor_half

/-- Settles O56: each command puts a number of the entry's size (R74), so that an accepted write takes exactly its bytes. -/
theorem localWritesAct : Obligations.LocalWritesAct := by
  unfold Obligations.LocalWritesAct
  intro w
  refine ⟨?pulse, ?clear, ?rereference, ?homing⟩
  case pulse => exact fun c => writes_of_put_byte (v := 1) fun _ => rfl
  case clear => exact fun e v => writes_of_put (fun _ => rfl) v.isLt
  case rereference => exact fun c v => writes_of_put (fun _ => rfl) v.isLt
  case homing => exact fun a => writes_of_put_byte (v := 1) fun _ => rfl

end

section
/-! SUPPORT. The family of spec section 09, the cyclic program, its tasks and its images. First what each event does where its own
tests hold, then a write that the owning chapter alone refuses; then the statements. -/

namespace Sys2Proof.Machine

variable {s : State} {i : Nat}

/-! Cycles, their overruns and their reactions (R326, R333, R334, R339 to R341). -/

/-- A cycle in progress completes, and its held effects follow in program order (R334). -/
theorem cycleDone_of_running (r : CycleResult) (h : (s.task i).running = true) :
    cycleDone s i r = r.effects.foldl (takeEffect i) (completeCycle s i r) := if_pos h

/-- A trap rolls the cycle in progress back, and its task reacts (R326). -/
theorem cycleTrap_of_running (h : (s.task i).running = true) : cycleTrap s i = taskReaction (rollback s i) i 6 := if_pos h

/-- A cycle that R342 does not exempt counts an overrun as its budget ends (R339). -/
theorem budgetOverrun_of_spent {d : TaskDecl} {r : Release} (hrun : (s.task i).running = true) (hdecl : (s.task i).decl = some d)
    (hrel : (s.task i).rel = some r) (hcounts : overrunExempt s i = false)
    (hspent : scaledBudget s d < (s.clock.tick + 1 - r.rtick) * 6250) : budgetOverrun s i = countOverrun s i := by
  simp [budgetOverrun, hrun, hdecl, hrel, hcounts, hspent]

/-- A cycle in progress at its deadline is noted once, and counts an overrun where R342 does not exempt it (R339). -/
theorem deadlineMiss_of_missed (hrun : (s.task i).running = true) (hfirst : (s.task i).missed = false)
    (hdeadline : deadlineNext s i = true) : deadlineMiss s i =
      (let t := s.setTask i { s.task i with missed := true }
      if overrunExempt t i then t else countOverrun t i) := by
  simp [deadlineMiss, hrun, hfirst, hdeadline]

/-- The reaction that is due is taken with its cause (R341). -/
theorem overrunReaction_of_due {cause : Nat} (h : (s.task i).react = some cause) : overrunReaction s i = taskReaction s i cause := by
  rw [overrunReaction, h]

/-! Debug (R346). -/

/-- A task's record holds nothing of the program's state. -/
@[simp] theorem progState_setTask (x : TaskRec) : progState (s.setTask i x) = progState s := rfl

/-- In RUN, with debug allowed, a cycle that reaches an enabled breakpoint of its task is suspended there and the program enters HOLD
(R346). That this HOLD has cause 0 is the model's choice (notes/assumptions/80.md). -/
theorem breakpointHit_of_run {b : Nat} (hdebug : s.rn 0x8000 8 = 1) (hst : s.rn 0x8000 1 = 2)
    (henabled : bit (s.rn 0x8030 (b + 1)) 63 = true)
    (htask : bits (s.rn 0x8030 (b + 1)) 55 48 = i ∨ bits (s.rn 0x8030 (b + 1)) 55 48 = 0xFF) (hrun : (s.task i).running = true)
    (hfirst : (s.task i).atBreak = false) :
    breakpointHit s b i = (progHold (s.setTask i { s.task i with atBreak := true }) 0).setNum 0x8030 0x11 b := by
  have hnow : progState s = psRun := hst
  simp [breakpointHit, hdebug, hnow, henabled, htask, hrun, hfirst]

/-- HOLD that has lasted for its timeout requests STOP with cause 4 (R346). -/
theorem holdTimeout_of_late (hst : s.rn 0x8000 1 = 3) (hlimit : s.rn 0x8000 7 ≠ 0)
    (hlate : s.prog.holdFrom + s.rn 0x8000 7 * secUnits < s.now + tickUnits) : holdTimeout s = requestStop s 4 := by
  have hhold : progState s = psHold := hst
  simp [holdTimeout, hhold, hlimit, hlate]

/-! Library jobs and stream words (R369, R460). -/

/-- A job that a task waits for leaves its result with the task (R369). -/
theorem jobComplete_of_waiting {job : Nat} (result : List Byte) (h : getAt none s.prog.jobs job = some i) :
    jobComplete s job i result = (s.setTask i { s.task i with results := (s.task i).results ++ [(job, result)] }).setProg
      { s.prog with jobs := setAt s.prog.jobs job none } := if_pos h

/-- A word of a FIFO's producer is written (R460). -/
theorem producerWord_of_producer {f : Nat} (word : Nat) (h : fifoProducer s f ≠ 0) :
    producerWord s f word = (streamWrite s f (wordPayload word)).1 := if_neg h

/-! A write that the owning chapter alone refuses. -/

variable {w : WriteCtx} {index sub code : Nat} {data : List Byte} {e : Entry}

/-- Where no general cause of R65 refuses an ENGINEER's write, the causes are those of the entry's own chapter. -/
theorem writeCauses_eq_ownCauses {direct : Bool} (haccess : accessCauses s index sub = []) (hentry : entryDef s index sub = some e)
    (hacc : e.acc ≠ .ro) (hheld : heldBySegments s index sub = false) (hvalue : valueAbort e data = none) :
    writeCauses s .engineer index sub data direct = ownCauses s index sub data direct := by
  simp [writeCauses, haccess, hentry, hacc, hheld, hvalue, mayWrite, codeIf]

/-- One element with a single cause is refused with it. -/
theorem firstCause_singleton {r : Role} {elem : Elem} {direct : Bool}
    (h : writeCauses s r elem.index elem.sub elem.val.octets direct = [code]) : firstCause s r [elem] direct = some (code, elem) := by
  simp [firstCause, h, firstBy]

/-- A WRITE without an apply block of one entry that is not fine-timed, which fits its message, is refused with the single cause of
its element. -/
theorem refusalOf_of_cause (hnow : w.apply = none) (hlength : data.length ≤ messageLimit w.client)
    (hfine : isFine ⟨index, sub, .oct data⟩ = false)
    (hcause : writeCauses (asked s w.client) (roleOf (asked s w.client) w.client) index sub data true = [code]) :
    refusalOf s w index sub data = some (code, ⟨index, sub, .oct data⟩) := by
  have hfirst : firstCause (asked s w.client) (roleOf (asked s w.client) w.client) [⟨index, sub, .oct data⟩] true =
      some (code, ⟨index, sub, .oct data⟩) := firstCause_singleton hcause
  simp [refusalOf, writeRefusal, writeLength, hnow, Nat.not_lt.mpr hlength, hfine, hfirst, codeIf, firstBy]

/-- A refusal with STATE_LOCKED leaves nothing behind (R125, R381). -/
theorem noteWriteRefusal_locked (elem : Elem) : noteWriteRefusal s abLocked elem = s := by
  simp [noteWriteRefusal, abLocked, abPastDue, abPlacementRefused, abNoProfiler]

/-- The action entry of the program bank, OD 8010:05, takes 1 to 4 (R354). -/
def bankActionEntry : Entry := { ent 5 .uint8 .wo with lo := some 1, hi := some 4, enum := [1, 2, 3, 4] }

theorem entryDef_bankAction : entryDef s 0x8010 5 = some bankActionEntry := rfl

/-- In RUN and in HOLD a DOWNLOAD is locked (R360). -/
theorem downloadAbort_of_active (h : s.rn 0x8000 1 = 2 ∨ s.rn 0x8000 1 = 3) : downloadAbort s = abLocked := by
  have hactive : progState s = psRun ∨ progState s = psHold := h
  simp [downloadAbort, hactive]

/-- The own cause of a DOWNLOAD in RUN or HOLD is STATE_LOCKED (R360). -/
theorem ownCauses_download {direct : Bool} (h : s.rn 0x8000 1 = 2 ∨ s.rn 0x8000 1 = 3) :
    ownCauses s 0x8010 5 [3] direct = [abLocked] := by
  have hcheck : ownCauses s 0x8010 5 [3] direct = codeOf_ (downloadAbort s) := rfl
  rw [hcheck, downloadAbort_of_active h]
  rfl

/-- Every message holds one byte of data. -/
theorem one_le_messageLimit (c : ClientId) : 1 ≤ messageLimit c := by
  cases c <;> simp [messageLimit]

end Sys2Proof.Machine

open Sys2Proof Sys2Proof.Machine

/-- Settles O32: no general cause refuses the write of the action entry, and its own chapter refuses a DOWNLOAD in RUN and in HOLD. -/
theorem downloadNeedsStop : Obligations.DownloadNeedsStop := by
  unfold Obligations.DownloadNeedsStop
  intro s w hserved hnow hactive haccess hrole hheld
  have hactiveAsked : (asked s w.client).rn 0x8000 1 = 2 ∨ (asked s w.client).rn 0x8000 1 = 3 := by
    rwa [rn_congr (asked_regs s w.client)]
  have hcause : writeCauses (asked s w.client) (roleOf (asked s w.client) w.client) 0x8010 5 [3] true = [abLocked] := by
    rw [hrole, writeCauses_eq_ownCauses haccess entryDef_bankAction (by decide) hheld (by decide), ownCauses_download hactiveAsked]
  have hrefused : refusalOf s w 0x8010 5 [3] = some (abLocked, ⟨0x8010, 5, .oct [3]⟩) :=
    refusalOf_of_cause hnow (one_le_messageLimit w.client) rfl hcause
  have hexec : exec (.programDownload w) s = .next (settle s (serveWrite s w 0x8010 5 [3])) := rfl
  rw [hexec, serveWrite_refused s w 0x8010 5 [3] _ hserved hrefused, noteWriteRefusal_locked]

/-- Settles O44: each event's own tests are met by what its condition names.
That the HOLD of a breakpoint has cause 0 is the model's choice (notes/assumptions/80.md). -/
theorem programEventsAct : Obligations.ProgramEventsAct := by
  unfold Obligations.ProgramEventsAct
  refine ⟨?release, ?complete, ?trap, ?budget, ?deadline, ?reaction, ?breakpoint, ?hold, ?commit, ?switch, ?pause, ?job, ?enter,
    ?itemDone, ?word⟩
  case release => exact fun i => does_of_whenCx (fun _ => rfl) (fun _ hs => hs.1) fun _ _ => rfl
  case complete =>
    exact fun i r => does_of_whenCx (fun _ => rfl) (fun _ hs => hs.1) fun s ⟨_, hrun⟩ => cycleDone_of_running r hrun
  case trap => exact fun i => does_of_whenCx (fun _ => rfl) (fun _ hs => hs.1) fun s ⟨_, hrun⟩ => cycleTrap_of_running hrun
  case budget =>
    exact fun i d r => does_of_whenCx (fun _ => rfl) (fun _ hs => hs.1) fun s ⟨_, hrun, hdecl, hrel, hcounts, hspent⟩ =>
      budgetOverrun_of_spent hrun hdecl hrel hcounts hspent
  case deadline =>
    exact fun i => does_of_whenCx (fun _ => rfl) (fun _ hs => hs.1) fun s ⟨_, hrun, hfirst, hdeadline⟩ =>
      deadlineMiss_of_missed hrun hfirst hdeadline
  case reaction =>
    exact fun i c => does_of_whenCx (fun _ => rfl) (fun _ hs => hs.1) fun s ⟨_, hreact⟩ => overrunReaction_of_due hreact
  case breakpoint =>
    exact fun b i => does_of_whenCx (fun _ => rfl) (fun _ hs => hs.1)
      fun s ⟨_, hdebug, hst, henabled, htask, hrun, hfirst⟩ => breakpointHit_of_run hdebug hst henabled htask hrun hfirst
  case hold =>
    exact does_of_whenCx (fun _ => rfl) (fun _ hs => hs.1) fun s ⟨_, hst, hlimit, hlate⟩ => holdTimeout_of_late hst hlimit hlate
  case commit => exact does_of_whenCx (fun _ => rfl) (fun _ hs => hs.1) fun _ _ => rfl
  case switch => exact does_of_whenCx (fun _ => rfl) (fun _ hs => hs.1) fun _ _ => rfl
  case pause => exact does_of_whenCx (fun _ => rfl) (fun _ hs => hs.1) fun _ _ => rfl
  case job =>
    exact fun job i result => does_of_whenCx (fun _ => rfl) (fun _ hs => hs.1) fun s ⟨_, hjob⟩ => jobComplete_of_waiting result hjob
  case enter => exact fun item => does_of_whenCx (fun _ => rfl) (fun _ hs => hs) fun _ _ => rfl
  case itemDone => exact fun core => does_of_whenCx (fun _ => rfl) (fun _ hs => hs.1) fun _ _ => rfl
  case word =>
    exact fun f word => does_of_whenCx (fun _ => rfl) (fun _ hs => hs.1) fun s ⟨_, hproducer⟩ =>
      producerWord_of_producer word.toNat hproducer

/-- Settles O58: each command puts a number of the entry's size (R74), so that an accepted write takes exactly its bytes; trigger
positions and exported variables are written as the bytes given. -/
theorem programWritesAct : Obligations.ProgramWritesAct := by
  unfold Obligations.ProgramWritesAct
  intro w
  refine ⟨?run, ?stop, ?hold, ?resume, ?step, ?verify, ?exchange, ?download, ?discard, ?retain, ?persistent, ?restart, ?statistics,
    ?positions, ?budget, ?exported⟩
  case run => exact writes_of_put_byte (v := 1) fun _ => rfl
  case stop => exact writes_of_put_byte (v := 2) fun _ => rfl
  case hold => exact writes_of_put_byte (v := 1) fun _ => rfl
  case resume => exact writes_of_put_byte (v := 2) fun _ => rfl
  case step => exact writes_of_put_byte (v := 3) fun _ => rfl
  case verify => exact writes_of_put_byte (v := 1) fun _ => rfl
  case exchange => exact writes_of_put_byte (v := 2) fun _ => rfl
  case download => exact writes_of_put_byte (v := 3) fun _ => rfl
  case discard => exact writes_of_put_byte (v := 4) fun _ => rfl
  case retain => exact writes_of_put_byte (v := 1) fun _ => rfl
  case persistent => exact writes_of_put_byte (v := 2) fun _ => rfl
  case restart => exact fun i => writes_of_put_byte (v := 1) fun _ => rfl
  case statistics => exact fun i => writes_of_put_byte (v := 1) fun _ => rfl
  case positions => exact fun i l => writes_of_serveWrite fun _ => rfl
  case budget => exact fun i v => writes_of_put (fun _ => rfl) v.isLt
  case exported => exact fun index sub data => writes_of_serveWrite fun _ => rfl

end

section
/-! SUPPORT. The family of spec section 10, the Ostler's migrations, rotation and self-tests, and the writes of the Ostler's and the SSDs'
entries. First what a copy and an equal comparison leave where their own tests hold, and the command record of OD A010:01; then the
statements. -/

namespace Sys2Proof.Machine

variable {s : State} {kind item : Nat} {m : Migr}

/-! Migrations (R386, R387). -/

/-- The first complete copy begins the comparisons at the item's next sample boundary at least 1 base tick later (R386). -/
theorem copyComplete_of_copying (hmig : migOf s kind item = some m) (hstage : m.stage = 0) :
    copyComplete s kind item = setMig s { m with stage := 1, k0 := nextSample s kind item (s.clock.tick + 1) } := by
  simp [copyComplete, hmig, hstage]

/-- From k0 on an equal comparison is counted (R387). -/
theorem compareMig_equal_of_comparing (hmig : migOf s kind item = some m) (hstage : m.stage = 1) (hdue : m.k0 ≤ s.clock.tick) :
    compareMig s kind item true = setMig s { m with equal := m.equal + 1 } := by
  simp [compareMig, hmig, hstage, hdue]

/-! The command record of OD A010:01 (R399). -/

variable {c : Instr} {w : WriteCtx}

/-- The record, byte by byte: operation, kind, item, unit or region, and three reserved bytes. -/
theorem ostlerBytes_toNat (op kind unit : Byte) (item : BitVec 16) :
    ostlerBytes op.toNat kind.toNat item.toNat unit.toNat = [op, kind] ++ leBytes 2 item.toNat ++ [unit, 0, 0, 0] := by
  simp only [ostlerBytes, leBytes_one_toNat, List.append_assoc, List.cons_append, List.nil_append]

/-- A command of the Ostler writes its record to OD A010:01. -/
theorem writes_of_ostlerCommand {op kind unit : Byte} {item : BitVec 16}
    (hexec : ∀ s, exec c s = run (fun s => serveWrite s w 0xA010 1 (ostlerBytes op.toNat kind.toNat item.toNat unit.toNat)) s) :
    Writes c w 0xA010 1 ([op, kind] ++ leBytes 2 item.toNat ++ [unit, 0, 0, 0]) := by
  rw [← ostlerBytes_toNat]
  exact writes_of_serveWrite hexec

end Sys2Proof.Machine

open Sys2Proof Sys2Proof.Machine

/-- Settles O45: each event needs CX alone, and the tests of a copy and of an equal comparison are met by what their conditions name.
The other effects are the Ostler's own, which test their conditions themselves.
That a command counts item kinds from 0 is the model's reading (notes/assumptions/118.md). -/
theorem ostlerEventsAct : Obligations.OstlerEventsAct := by
  unfold Obligations.OstlerEventsAct
  refine ⟨?start, ?copy, ?equal, ?differ, ?switch, ?rotation, ?selfTest⟩
  case start => exact fun kind item target => does_of_whenCx (fun _ => rfl) (fun _ hs => hs.1) fun _ _ => rfl
  case copy =>
    exact fun kind item m => does_of_whenCx (fun _ => rfl) (fun _ hs => hs.1)
      fun s ⟨_, hmig, hstage⟩ => copyComplete_of_copying hmig hstage
  case equal =>
    exact fun kind item m => does_of_whenCx (fun _ => rfl) (fun _ hs => hs.1)
      fun s ⟨_, hmig, hstage, hdue⟩ => compareMig_equal_of_comparing hmig hstage hdue
  case differ => exact fun kind item m => does_of_whenCx (fun _ => rfl) (fun _ hs => hs.1) fun _ _ => rfl
  case switch => exact fun kind item m => does_of_whenCx (fun _ => rfl) (fun _ hs => hs.1) fun _ _ => rfl
  case rotation => exact does_of_whenCx (fun _ => rfl) (fun _ hs => hs.1) fun _ _ => rfl
  case selfTest => exact fun u passed => does_of_whenCx (fun _ => rfl) (fun _ hs => hs.1) fun _ _ => rfl

/-- Settles O59: the declare record is written as the bytes given, each command of the Ostler writes its record of R399, and the others
put one byte. -/
theorem ostlerAndRecorderWritesAct : Obligations.OstlerAndRecorderWritesAct := by
  unfold Obligations.OstlerAndRecorderWritesAct
  intro w
  refine ⟨?declare, ?migrate, ?retest, ?evacuate, ?rebalance, ?spares, ?prepareRemove, ?format, ?resume⟩
  case declare => exact fun data => writes_of_serveWrite fun _ => rfl
  case migrate => exact fun kind unit item => writes_of_ostlerCommand (op := 1) fun _ => rfl
  case retest => exact fun unit => writes_of_ostlerCommand (op := 2) (kind := 0) (item := 0) fun _ => rfl
  case evacuate => exact fun region => writes_of_ostlerCommand (op := 3) (kind := 0) (item := 0) fun _ => rfl
  case rebalance => exact fun kind => writes_of_ostlerCommand (op := 4) (item := 0) (unit := 0) fun _ => rfl
  case spares => exact fun c v => writes_of_put_byte fun _ => rfl
  case prepareRemove => exact fun d => writes_of_put_byte (v := 1) fun _ => rfl
  case format => exact fun d => writes_of_put_byte (v := 2) fun _ => rfl
  case resume => exact fun d => writes_of_put_byte (v := 3) fun _ => rfl

end

section
/-! SUPPORT. The family of spec section 11, triggers, analogue inputs and analogue outputs, and the writes of their entries and of the
field I/O's. First what each event does where its own tests hold; then the statements. -/

namespace Sys2Proof.Machine

variable {s : State}

/-! Triggers (R408). -/

/-- An armed TICK trigger fires at the start of a base tick of its phase, whatever the offset named, and once (R408). -/
theorem triggerEvent_of_tick {t : Nat} (offset : Nat) (hkind : s.rn (0x6200 + t) 1 = 1) (harmed : (s.trig t).st = 1)
    (hfrom : (s.trig t).fromTick ≤ s.clock.tick) (honce : (s.trig t).lastEvent < adcClock s 0)
    (hphase : s.clock.tick % max 1 (s.rn (0x6200 + t) 3) = s.rn (0x6200 + t) 4) :
    triggerEvent s t offset = fireTrigger (s.setTrig t { s.trig t with lastEvent := adcClock s 0 }) t (adcClock s 0) := by
  simp [triggerEvent, trigIdx, tkTick, hkind, harmed, hfrom, honce, hphase]

/-! Reference checks (R407). -/

variable {a : Nat}

/-- A check starts while its converter is idle with empty queues (R407). -/
theorem referenceCheck_started (hworks : (s.conv a).failed = false) (hidle : (s.conv a).running = none)
    (hurgent : (s.conv a).urgent = none) (hnormal : (s.conv a).normal = []) :
    referenceCheck s a .started = s.setConv a { s.conv a with checking := true } := by
  simp [referenceCheck, hworks, hidle, hurgent, hnormal]

/-- An interval that passes without a gap is counted, and ten in a row starve the check (R407). -/
theorem referenceCheck_noGap (hworks : (s.conv a).failed = false) (hdue : checkDue s a = true) :
    referenceCheck s a .noGap = s.setConv a { s.conv a with
      noGap := (s.conv a).noGap + 1, starved := (s.conv a).starved || 10 ≤ (s.conv a).noGap + 1, checkedAt := s.now } := by
  simp [referenceCheck, hworks, hdue]

/-- A check in progress that no request has ended is read (R407). -/
theorem referenceCheck_reading (d : Int) (hworks : (s.conv a).failed = false) (hchecking : (s.conv a).checking = true)
    (hidle : (s.conv a).running = none) (hurgent : (s.conv a).urgent = none) (hnormal : (s.conv a).normal = []) :
    referenceCheck s a (.reading d) = checkRead s a d := by
  simp [referenceCheck, hworks, hchecking, hidle, hurgent, hnormal]

/-! Analogue outputs (R419, R421). -/

variable {o : Nat}

/-- An output that has held for its loss timeout takes its safe code (R419). -/
theorem aoutLoss_of_late (hholding : (s.aout o).holding = true) (hlimit : s.rn (0x6300 + o) 5 ≠ 0)
    (hlate : msPassed s (s.aout o).holdFrom (s.rn (0x6300 + o) 5) = true) :
    aoutLoss s o = s.setAout o { s.aout o with safe := true, code := safeCode s o } :=
  if_pos (by simp [aoutIdx, hholding, hlimit, hlate])

/-- The onset of OPEN is flagged and counted in CURRENT mode (R421). -/
theorem aoutFault_openLoop (hmode : s.rn (0x6300 + o) 1 = 2) (honset : (s.aout o).openF = false) :
    aoutFault s o .openLoop = (s.setAout o { s.aout o with openF := true }).bump (0x6300 + o) 8 :=
  if_pos (by simp [aoutIdx, hmode, honset])

/-- The onset of SHORT is flagged and counted in VOLTAGE mode (R421). -/
theorem aoutFault_short (hmode : s.rn (0x6300 + o) 1 = 1) (honset : (s.aout o).shortF = false) :
    aoutFault s o .short = (s.setAout o { s.aout o with shortF := true }).bump (0x6300 + o) 8 :=
  if_pos (by simp [aoutIdx, hmode, honset])

/-- The onset of OVERTEMP is flagged and counted in every mode but OFF (R421). -/
theorem aoutFault_overtemp (hmode : s.rn (0x6300 + o) 1 ≠ 0) (honset : (s.aout o).overtemp = false) :
    aoutFault s o .overtemp = (s.setAout o { s.aout o with overtemp := true }).bump (0x6300 + o) 8 :=
  if_pos (by simp [aoutIdx, hmode, honset])

end Sys2Proof.Machine

open Sys2Proof Sys2Proof.Machine

/-- Settles O42: each event needs AX, and its own tests are met by what its condition names; a conversion's start and latch and the end of
a fault are effects of their own. -/
theorem analogueEventsAct : Obligations.AnalogueEventsAct := by
  unfold Obligations.AnalogueEventsAct
  refine ⟨?trigger, ?start, ?latch, ?checkStarted, ?checkNoGap, ?checkReading, ?loss, ?openLoop, ?short, ?overtemp, ?openLoopClear,
    ?shortClear, ?overtempClear⟩
  case trigger =>
    exact fun t offset => does_of_axRuns (fun _ => rfl) (fun _ hs => hs.1)
      fun s ⟨_, hkind, harmed, hfrom, honce, hphase⟩ => triggerEvent_of_tick offset hkind harmed hfrom honce hphase
  case start => exact fun a offset => does_of_whenAx (fun _ => rfl) fun _ hax => hax
  case latch => exact fun a nv => does_of_whenAx (fun _ => rfl) fun _ ⟨hax, _⟩ => hax
  case checkStarted =>
    exact fun a => does_of_axRuns (fun _ => rfl) (fun _ hs => hs.1)
      fun s ⟨_, hworks, hidle, hurgent, hnormal⟩ => referenceCheck_started hworks hidle hurgent hnormal
  case checkNoGap =>
    exact fun a => does_of_axRuns (fun _ => rfl) (fun _ hs => hs.1) fun s ⟨_, hworks, hdue⟩ => referenceCheck_noGap hworks hdue
  case checkReading =>
    exact fun a d => does_of_axRuns (fun _ => rfl) (fun _ hs => hs.1)
      fun s ⟨_, hworks, hchecking, hidle, hurgent, hnormal⟩ => referenceCheck_reading d hworks hchecking hidle hurgent hnormal
  case loss =>
    exact fun o => does_of_axRuns (fun _ => rfl) (fun _ hs => hs.1)
      fun s ⟨_, hholding, hlimit, hlate⟩ => aoutLoss_of_late hholding hlimit hlate
  case openLoop =>
    exact fun o => does_of_axRuns (fun _ => rfl) (fun _ hs => hs.1) fun s ⟨_, hmode, honset⟩ => aoutFault_openLoop hmode honset
  case short =>
    exact fun o => does_of_axRuns (fun _ => rfl) (fun _ hs => hs.1) fun s ⟨_, hmode, honset⟩ => aoutFault_short hmode honset
  case overtemp =>
    exact fun o => does_of_axRuns (fun _ => rfl) (fun _ hs => hs.1) fun s ⟨_, hmode, honset⟩ => aoutFault_overtemp hmode honset
  case openLoopClear => exact fun o => does_of_whenAx (fun _ => rfl) fun _ hax => hax
  case shortClear => exact fun o => does_of_whenAx (fun _ => rfl) fun _ hax => hax
  case overtempClear => exact fun o => does_of_whenAx (fun _ => rfl) fun _ hax => hax

/-- Settles O57: each command puts a number of the entry's size (R74), so that an accepted write takes exactly its bytes. -/
theorem fieldWritesAct : Obligations.FieldWritesAct := by
  unfold Obligations.FieldWritesAct
  intro w
  refine ⟨?fire, ?kind, ?leadPosition, ?range, ?mode, ?inputType, ?edge, ?reset⟩
  case fire => exact fun t => writes_of_put_byte (v := 1) fun _ => rfl
  case kind => exact fun t v => writes_of_put_byte fun _ => rfl
  case leadPosition => exact fun t v => writes_of_put (fun _ => rfl) v.isLt
  case range => exact fun i v => writes_of_put_byte fun _ => rfl
  case mode => exact fun o v => writes_of_put_byte fun _ => rfl
  case inputType => exact fun g v => writes_of_put_byte fun _ => rfl
  case edge => exact fun o v => writes_of_put_byte fun _ => rfl
  case reset => exact fun o => writes_of_put_byte (v := 1) fun _ => rfl

end

section
/-! SUPPORT. The family of spec section 12, isolated field I/O. First what an event of one output leaves alone, then what each event
does where its own tests are met; then the statements. -/

namespace Sys2Proof.Machine

/-! What an event of one output leaves alone. -/

/-- From s to t nothing changes but output o, the registers of its own with a subindex of a list, what is sent and the counter of free
values. -/
structure OutputFrame (o : Nat) (subs : List Nat) (s t : State) : Prop where
  rest : t = { s with douts := t.douts, regs := t.regs, sent := t.sent, freeCtr := t.freeCtr }
  others : ∀ k, k ≠ o → t.dout k = s.dout k
  registers : ∀ i j, j < 256 → (i ≠ 0x7300 + o ∨ j ∉ subs) → t.rn i j = s.rn i j

namespace OutputFrame

variable {o : Nat} {subs : List Nat} {s t : State}

theorem refl (o : Nat) (subs : List Nat) (s : State) : OutputFrame o subs s s := ⟨rfl, fun _ _ => rfl, fun _ _ _ _ => rfl⟩

theorem trans {u : State} (hst : OutputFrame o subs s t) (htu : OutputFrame o subs t u) : OutputFrame o subs s u where
  rest := by rw [htu.rest, hst.rest]
  others k hk := (htu.others k hk).trans (hst.others k hk)
  registers i j hj hother := (htu.registers i j hj hother).trans (hst.registers i j hj hother)

theorem setDout (s : State) (x : DigOut) : OutputFrame o subs s (s.setDout o x) :=
  ⟨rfl, fun k hk => State.dout_setDout_ne s o k x hk, fun _ _ _ _ => rfl⟩

theorem emit (s : State) (x : Sent) : OutputFrame o subs s (s.emit x) := ⟨rfl, fun _ _ => rfl, fun _ _ _ _ => rfl⟩

theorem emitIf (h : OutputFrame o subs s t) (x : Sent) (p : Prop) [Decidable p] : OutputFrame o subs s (if p then t.emit x else t) := by
  split
  · exact h.trans (.emit t x)
  · exact h

theorem bump (s : State) {k : Nat} (hk : k < 256) (hmem : k ∈ subs) : OutputFrame o subs s (s.bump (doIdx o) k) where
  rest := by rw [bump_frame]
  others m _ := by rw [bump_frame]; rfl
  registers i j hj hother := by
    have hsub : i ≠ 0x7300 + o ∨ j ≠ k := hother.imp_right fun hj hjk => hj (hjk ▸ hmem)
    refine rn_bump_ne ?_
    simp only [regKey, doIdx]
    omega

end OutputFrame

variable (s : State) (o : Nat)

/-- A switch writes its output and reports a change of the pin. -/
theorem switchOut_outputFrame {subs : List Nat} : OutputFrame o subs s (switchOut s o) := (OutputFrame.setDout s _).emitIf _ _

theorem releaseOut_outputFrame {subs : List Nat} : OutputFrame o subs s (releaseOut s o) :=
  (OutputFrame.setDout s _).trans (switchOut_outputFrame _ o)

/-- A fault writes its output and counts in its register (R440). -/
theorem outputFault_outputFrame (f : OutFaultKind) : OutputFrame o [0x0B] s (outputFault s o f) := by
  unfold outputFault
  dsimp only
  split
  · exact .refl ..
  · exact ((OutputFrame.setDout s _).trans (.bump _ (by decide) (by decide))).trans (.emit _ _)

/-- A retry writes its output and, where the switch closes, counts in its register (R440). -/
theorem outputRetry_outputFrame : OutputFrame o [0x0C] s (outputRetry s o) := by
  unfold outputRetry
  dsimp only
  split
  · exact .refl ..
  · split
    · exact (releaseOut_outputFrame s o).trans (.bump _ (by decide) (by decide))
    · exact releaseOut_outputFrame s o

theorem faultCountClear_outputFrame : OutputFrame o [] s (faultCountClear s o) := by
  unfold faultCountClear
  split
  · exact .setDout s _
  · exact .refl ..

theorem openLoad_outputFrame : OutputFrame o [] s (openLoad s o) := by
  unfold openLoad
  split
  · exact .setDout s _
  · exact .refl ..

theorem openLoadEnd_outputFrame : OutputFrame o [] s (openLoadEnd s o) := .setDout s _

theorem doLoss_outputFrame : OutputFrame o [] s (doLoss s o) := by
  unfold doLoss
  dsimp only
  split
  · exact (OutputFrame.setDout s _).trans (switchOut_outputFrame _ o)
  · exact .refl ..

/-- An event that needs the module to run and keeps an output's frame leaves every other output and its registers. -/
theorem touches_of_outputFrame {c : Instr} {f : State → State} {o : Nat} {subs : List Nat} (hexec : ∀ s, exec c s = run (whenOn f) s)
    (hframe : ∀ s, OutputFrame o subs s (f s)) :
    Touches c up fun s t =>
      t = { s with douts := t.douts, regs := t.regs, sent := t.sent, freeCtr := t.freeCtr } ∧
      (∀ k, k ≠ o → t.dout k = s.dout k) ∧ (∀ i j, j < 256 → i ≠ 0x7300 + o → t.rn i j = s.rn i j) :=
  touches_of_whenOn hexec (fun _ hon => hon) fun s _ =>
    ⟨(hframe s).rest, (hframe s).others, fun i j hj hi => (hframe s).registers i j hj (.inl hi)⟩

/-! Faults of outputs and their retries (R439, R440, R444). -/

@[simp] theorem bump_dout (i j k : Nat) : (s.bump i j).dout k = s.dout k := by
  rw [bump_frame]
  rfl

/-- The code of a fault in the status of its output (R451). -/
def faultCode : OutFaultKind → Nat
  | .short => 1
  | .overload => 2
  | .thermal => 3

/-- An output after a fault: to be retried while the faults in a row do not pass the limit or the limit is 255, LOCKED after that. -/
def faultedOut (f : OutFaultKind) : DigOut :=
  let n := (s.dout o).consec + 1
  { s.dout o with
    st := if n ≤ s.rn (0x7300 + o) 7 ∨ s.rn (0x7300 + o) 7 = 255 then 2 else 3
    consec := n
    lastFault := faultCode f
    faultClk := s.clock.timClk }

variable {s o}

/-- A fault that an output has been ON long enough to show opens the switch and is counted (R439, R440). -/
theorem outputFault_of_on {f : OutFaultKind} (hon : (s.dout o).st = 1)
    (hshows : s.elapsed (s.dout o).onClk (wallNs (faultTime f)) = true) : outputFault s o f =
      ((s.setDout o (faultedOut s o f)).bump (0x7300 + o) 0x0B).emit (.pin pinField o false s.clock.tick 0) := by
  have htest : ¬(decide ((s.dout o).st ≠ osOn) || !s.elapsed (s.dout o).onClk (wallNs (faultTime f))) = true := by
    simp [osOn, hon, hshows]
  have hretry (n limit : Nat) : (if (decide (n ≤ limit) || decide (limit = 255)) = true then osRetry else osLocked) =
      if n ≤ limit ∨ limit = 255 then 2 else 3 := if_congr (by simp) rfl rfl
  unfold outputFault
  rw [if_neg htest]
  simp only [hretry]
  cases f <;> rfl

theorem outputFault_dout {f : OutFaultKind} (hon : (s.dout o).st = 1)
    (hshows : s.elapsed (s.dout o).onClk (wallNs (faultTime f)) = true) : (outputFault s o f).dout o = faultedOut s o f := by
  rw [outputFault_of_on hon hshows]
  exact (bump_dout _ _ _ _).trans (State.dout_setDout ..)

/-- Once the retry delay has passed the output is released, and the retry is counted where it turns on (R439, R440). -/
theorem outputRetry_of_waited (hwaits : (s.dout o).st = 2)
    (hdelay : s.elapsed (s.dout o).faultClk (wallNs (s.rn (0x7300 + o) 6 * 1000000)) = true) : outputRetry s o =
      (let t := releaseOut s o
       if (t.dout o).st = 1 then t.bump (0x7300 + o) 0x0C else t) :=
  if_neg (by simp [osRetry, doIdx, hwaits, hdelay])

theorem faultCountClear_of_on (hon : (s.dout o).st = 1) (hlong : s.elapsed (s.dout o).onClk (wallSec 1) = true) :
    faultCountClear s o = s.setDout o { s.dout o with consec := 0 } :=
  if_pos (by simp [osOn, hon, hlong])

theorem openLoad_of_on (hon : (s.dout o).st = 1) (hlong : s.elapsed (s.dout o).onClk (wallNs 100000000) = true) :
    openLoad s o = s.setDout o { s.dout o with openLoad := true } :=
  if_pos (by simp [osOn, hon, hlong])

/-- An output that has held for its loss timeout goes to its declared level (R442). -/
theorem doLoss_of_late (hholding : (s.dout o).holding = true) (hlimit : s.rn (0x7300 + o) 4 ≠ 0)
    (hlate : (s.dout o).holdTick + 160 * s.rn (0x7300 + o) 4 ≤ s.clock.tick) :
    doLoss s o = switchOut (s.setDout o { s.dout o with expired := true }) o :=
  if_pos (by simp [doIdx, hholding, hlimit, hlate])

/-! Field inputs and the field link (R431, R433, R442). -/

variable {i : Nat}

/-- A new level that has lasted the debounce time is counted and stamped, inverted where the input is (R431). -/
theorem diAccept_of_debounced {level : Bool} {stamp : Nat} (hnew : (s.din i).fx ≠ level) (hlasted : debounced s i stamp = true) :
    diAccept s i level stamp =
      (let t := (s.setDin i { s.din i with fx := level }).bump (0x7100 + i) 6
       let lv : Bool := level != (s.rn (0x7100 + i) 2 = 1 : Bool)
       { t with field := { t.field with edges := t.field.edges ++ [⟨i, lv, stamp - inputDelay⟩] } }) := by
  have htest : ¬(decide ((s.din i).fx = level) || !debounced s i stamp) = true := by simp [hnew, hlasted]
  have hkey : regKey (0x7100 + i) 2 ≠ regKey (0x7100 + i) 6 := by simp only [regKey]; omega
  have hinvert : ((s.setDin i { s.din i with fx := level }).bump (0x7100 + i) 6).rn (0x7100 + i) 2 = s.rn (0x7100 + i) 2 :=
    rn_bump_ne hkey
  rw [diAccept, if_neg htest]
  simp only [logical, diIdx, hinvert]

theorem wireBreak_of_onset (hwatched : s.rn (0x7100 + i) 7 = 1) (honset : (s.din i).wireBreak = false) :
    wireBreak s i = (s.setDin i { s.din i with wireBreak := true }).bump (0x7100 + i) 8 :=
  if_pos (by simp [diIdx, hwatched, honset])

/-- After 3 base ticks without a good frame the outputs go to their declared levels (R442). -/
theorem linkLoss_of_lost (hlink : s.field.linkLost = false) (hnone : 3 ≤ (s.link (linkNum .axFx)).noGood) : linkLoss s =
    switchAll (({ s with field := { s.field with linkLost := true } }).bump 0x7000 7) :=
  if_neg (by simp [hlink, hnone])

/-- After 16 good ones they take levels again, the first of which counts as a change (R437, R442). -/
theorem linkRecover_of_good (hlink : s.field.linkLost = true) (hgood : 16 ≤ s.field.goodRun) : linkRecover s =
    switchAll (freshLevels { s with field := { s.field with linkLost := false } }) :=
  if_neg (by simp [hlink, hgood])

end Sys2Proof.Machine

open Sys2Proof Sys2Proof.Machine

/-- Settles O25: the output after the fault says whether it is retried, and the fault keeps the output's frame.
The time for which a fault must have been able to show is the model's choice (notes/assumptions/144.md). -/
theorem outputFaultRetriesOrLocks : Obligations.OutputFaultRetriesOrLocks := by
  unfold Obligations.OutputFaultRetriesOrLocks
  intro o f
  refine touches_of_whenOn (fun _ => rfl) (fun _ hs => hs.1) fun s ⟨_, hon, hshows⟩ => ?_
  have hframe := outputFault_outputFrame s o.val f
  rw [outputFault_dout hon hshows]
  refine ⟨rfl, ?retried, ?locked, hframe.others, ?registers, hframe.rest⟩
  case retried => exact fun hlimit => if_pos hlimit
  case locked => exact fun hpassed hlimit => if_neg (not_or.mpr ⟨Nat.not_le.mpr hpassed, hlimit⟩)
  case registers => exact fun i j hj hother => hframe.registers i j hj (by simpa using hother)

/-- Settles O26: each event keeps the frame of its output. -/
theorem outputEventsChangeOneOutput : Obligations.OutputEventsChangeOneOutput := by
  unfold Obligations.OutputEventsChangeOneOutput
  intro o c hc
  obtain rfl | rfl | rfl | rfl | rfl := hc
  · exact touches_of_outputFrame (fun _ => rfl) fun s => outputRetry_outputFrame s o.val
  · exact touches_of_outputFrame (fun _ => rfl) fun s => faultCountClear_outputFrame s o.val
  · exact touches_of_outputFrame (fun _ => rfl) fun s => openLoad_outputFrame s o.val
  · exact touches_of_outputFrame (fun _ => rfl) fun s => openLoadEnd_outputFrame s o.val
  · exact touches_of_outputFrame (fun _ => rfl) fun s => doLoss_outputFrame s o.val

/-- Settles O43: each event's own tests are met by what its condition names.
The 200 µs for which a short must have been able to show are the model's choice (notes/assumptions/144.md). -/
theorem fieldEventsAct : Obligations.FieldEventsAct := by
  unfold Obligations.FieldEventsAct
  refine ⟨?edge, ?wireBreak, ?wireWhole, ?uplink, ?downlink, ?short, ?fault, ?retry, ?countClear, ?sample, ?restart, ?loss, ?recover,
    ?timeout, ?openLoad, ?openLoadClear⟩
  case edge =>
    exact fun i level stamp => does_of_onRuns (fun _ => rfl) (fun _ hs => hs.1) fun s ⟨_, hnew, hlasted⟩ =>
      diAccept_of_debounced hnew hlasted
  case wireBreak =>
    exact fun i => does_of_onRuns (fun _ => rfl) (fun _ hs => hs.1) fun s ⟨_, hwatched, honset⟩ => wireBreak_of_onset hwatched honset
  case wireWhole => exact fun i => does_of_whenOn (fun _ => rfl) fun _ hon => hon
  case uplink => exact fun good => does_of_whenAx (fun _ => rfl) fun _ hax => hax
  case downlink => exact fun good => does_of_whenAx (fun _ => rfl) fun _ hax => hax
  case short =>
    exact fun o => does_of_onRuns (fun _ => rfl) (fun _ hs => hs.1) fun s ⟨_, hon, hshows⟩ => outputFault_of_on hon hshows
  case fault => exact fun o f => does_of_whenOn (fun _ => rfl) fun _ hs => hs.1
  case retry =>
    exact fun o => does_of_onRuns (fun _ => rfl) (fun _ hs => hs.1) fun s ⟨_, hwaits, hdelay⟩ => outputRetry_of_waited hwaits hdelay
  case countClear =>
    exact fun o => does_of_onRuns (fun _ => rfl) (fun _ hs => hs.1) fun s ⟨_, hon, hlong⟩ => faultCountClear_of_on hon hlong
  case sample => exact fun q mv => does_of_whenOn (fun _ => rfl) fun _ hon => hon
  case restart => exact fun q => does_of_whenOn (fun _ => rfl) fun _ hs => hs.1
  case loss => exact does_of_onRuns (fun _ => rfl) (fun _ hs => hs.1) fun s ⟨_, hlink, hnone⟩ => linkLoss_of_lost hlink hnone
  case recover => exact does_of_onRuns (fun _ => rfl) (fun _ hs => hs.1) fun s ⟨_, hlink, hgood⟩ => linkRecover_of_good hlink hgood
  case timeout =>
    exact fun o => does_of_onRuns (fun _ => rfl) (fun _ hs => hs.1) fun s ⟨_, hholding, hlimit, hlate⟩ =>
      doLoss_of_late hholding hlimit hlate
  case openLoad => exact fun o => does_of_onRuns (fun _ => rfl) (fun _ hs => hs.1) fun s ⟨_, hon, hlong⟩ => openLoad_of_on hon hlong
  case openLoadClear => exact fun o => does_of_whenOn (fun _ => rfl) fun _ hon => hon

end

section
/-! SUPPORT. The family of spec section 13, recording. First the two banks of a stream FIFO and their swap, then what each event of the
recorder and the SSDs does where its own tests are met; then the statements. -/

namespace Sys2Proof.Machine

variable {s : State} {f : Nat}

/-! The banks of a FIFO (R461, R462). -/

@[simp] theorem bump_fifo (s : State) (i j k : Nat) : (s.bump i j).fifo k = s.fifo k := by
  rw [bump_frame]
  rfl

/-- A swap waits for an empty drain bank (R461). -/
theorem swapBanks_of_drain (h : (s.fifo f).drain ≠ []) : swapBanks s f = s := if_neg (by simp [h])

/-- A FIFO after a swap. -/
def swapped (x : Fifo) : Fifo := { x with drain := x.fill, fill := [], released := x.inPacket, flush := false }

/-- A swap leaves the block as it is, or hands the fill bank over to an empty drain bank. -/
theorem swapBanks_cases (s : State) (f : Nat) : swapBanks s f = s ∨
    (s.fifo f).drain = [] ∧ swapBanks s f = (s.setFifo f (swapped (s.fifo f))).bump (fifoIdx f) 0x0A := by
  by_cases hdrain : (s.fifo f).drain = []
  · unfold swapBanks
    dsimp only
    split
    · exact .inr ⟨hdrain, rfl⟩
    · exact .inl rfl
  · exact .inl (swapBanks_of_drain hdrain)

/-- A swap keeps the words of a FIFO in their order. -/
theorem swapBanks_words (s : State) (f : Nat) :
    ((swapBanks s f).fifo f).drain ++ ((swapBanks s f).fifo f).fill = (s.fifo f).drain ++ (s.fifo f).fill := by
  obtain h | ⟨hdrain, h⟩ := swapBanks_cases s f
  · rw [h]
  · rw [h, bump_fifo, State.fifo_setFifo, hdrain]
    simp [swapped]

/-- A swap leaves every other FIFO. -/
theorem swapBanks_fifo_ne (s : State) {k : Nat} (hk : k ≠ f) : (swapBanks s f).fifo k = s.fifo k := by
  obtain h | ⟨_, h⟩ := swapBanks_cases s f
  · rw [h]
  · rw [h, bump_fifo, State.fifo_setFifo_ne _ _ _ _ hk]

/-- A read of an empty drain bank gives one word with VALID clear (R462). -/
theorem streamRead_of_empty (h : (s.fifo f).drain = []) : streamRead s f = (List.replicate 9 0, s) := if_pos (by simp [h])

/-- The state in which a read has taken up to 512 words, before the swap. -/
def afterTake (s : State) (f : Nat) : State := s.setFifo f { s.fifo f with drain := (s.fifo f).drain.drop 512 }

theorem streamRead_of_words (h : (s.fifo f).drain ≠ []) :
    streamRead s f = (((s.fifo f).drain.take 512).flatMap wordBytes, swapBanks (afterTake s f) f) := if_neg (by simp [h])

@[simp] theorem afterTake_fifo (s : State) (f : Nat) :
    (afterTake s f).fifo f = { s.fifo f with drain := (s.fifo f).drain.drop 512 } := State.fifo_setFifo ..

theorem streamFlush_of_due (hwords : (s.fifo f).fill ≠ []) (hdue : (s.fifo f).fillAt + s.rn (0x9100 + f) 5 ≤ s.clock.tick) :
    streamFlush s f = swapBanks (s.setFifo f { s.fifo f with flush := true }) f := by
  have hwaited : ¬s.clock.tick < (s.fifo f).fillAt + s.rn (fifoIdx f) 5 := Nat.not_lt.mpr hdue
  exact if_neg (by simp [hwords, hwaited])

/-! Shedding and chunks (R464, R467). -/

/-- At the high mark a class is shed again 100 ms after the last step (R467). -/
theorem shedTimer_high (hactive : anyActive s = true) (hlate : s.rcd.waterAt + shedTicks ≤ s.clock.tick) (habove : s.rcd.above = true)
    (hfull : s.rn 0x9000 0x0A ≤ bufferFill s) :
    shedTimer s = shedOne { s with rcd := { s.rcd with waterAt := s.clock.tick } } := by
  have hwaited : ¬(!anyActive s || decide (s.clock.tick < s.rcd.waterAt + shedTicks)) = true := by simp [hactive, hlate]
  exact (if_neg hwaited).trans (if_pos (Bool.and_eq_true_iff.mpr ⟨habove, decide_eq_true hfull⟩))

/-- Below the low mark one is restored. -/
theorem shedTimer_low (hactive : anyActive s = true) (hlate : s.rcd.waterAt + shedTicks ≤ s.clock.tick) (hbelow : s.rcd.below = true)
    (hnotFull : bufferFill s < s.rn 0x9000 0x0A) (hlow : bufferFill s < s.rn 0x9000 0x0B) :
    shedTimer s = unshedOne { s with rcd := { s.rcd with waterAt := s.clock.tick } } := by
  have hwaited : ¬(!anyActive s || decide (s.clock.tick < s.rcd.waterAt + shedTicks)) = true := by simp [hactive, hlate]
  have hhigh : ¬(s.rcd.above && decide (bufferFill s ≥ s.rn 0x9000 0x0A)) = true := by simp [hnotFull]
  exact (if_neg hwaited).trans ((if_neg hhigh).trans (if_pos (Bool.and_eq_true_iff.mpr ⟨hbelow, decide_eq_true hlow⟩)))

theorem chunkClose_of_due (h : chunkDue s = true) : chunkClose s = closeChunk s s.rcd.effort := if_pos h

/-! A failed write of an SSD (R476). -/

section
variable {d : Nat} (hwrites : (s.ssd d).st = 4 ∨ (s.ssd d).st = 5)
include hwrites

theorem ssdFailed_of_writes (smart : Bool) : ssdFailed s d smart =
    if smart then freeChunks (setSsdState s d sdFailed)
    else
      let t := (s.setSsd d { s.ssd d with fails := (s.ssd d).fails + 1 }).bump (ssdIdx d) 0x0A
      if (s.ssd d).fails + 1 ≥ 3 then freeChunks (setSsdState t d sdFailed) else t := by
  refine if_neg ?_
  obtain h | h := hwrites
  · simp [sdActive, sdRemoving, h]
  · simp [sdActive, sdRemoving, h]

theorem ssdFailed_of_few (hfew : (s.ssd d).fails < 2) : ssdFailed s d false =
    (s.setSsd d { s.ssd d with fails := (s.ssd d).fails + 1 }).bump (0x9200 + d) 0x0A :=
  (ssdFailed_of_writes hwrites false).trans ((if_neg Bool.false_ne_true).trans (if_neg (by omega)))

/-- The third failed write of a chunk makes the SSD FAILED. -/
theorem ssdFailed_of_third (hmany : 2 ≤ (s.ssd d).fails) : ssdFailed s d false =
    freeChunks (setSsdState ((s.setSsd d { s.ssd d with fails := (s.ssd d).fails + 1 }).bump (0x9200 + d) 0x0A) d 7) :=
  (ssdFailed_of_writes hwrites false).trans ((if_neg Bool.false_ne_true).trans (if_pos (by omega)))

end

end Sys2Proof.Machine

open Sys2Proof Sys2Proof.Machine

/-- Settles O28: what is taken are the first 512 words of the drain bank, and the swap that may follow keeps the words that stay. -/
theorem fifoReadTakesTheDrainBank : Obligations.FifoReadTakesTheDrainBank := by
  unfold Obligations.FifoReadTakesTheDrainBank
  refine fun s f => ⟨streamRead_of_empty, fun hwords => ?_⟩
  rw [streamRead_of_words hwords]
  refine ⟨rfl, ?rest, ?count, ?others⟩
  case rest =>
    intro hmore
    have hleft : ((afterTake s f).fifo f).drain ≠ [] := by simpa using hmore
    rw [swapBanks_of_drain hleft, afterTake_fifo]
  case count =>
    have hkept := congrArg List.length (swapBanks_words (afterTake s f) f)
    rw [List.length_append, List.length_append, afterTake_fifo, List.length_drop] at hkept
    dsimp only at hkept ⊢
    omega
  case others => exact fun k hk => (swapBanks_fifo_ne _ hk).trans (State.fifo_setFifo_ne _ _ _ _ hk)

/-- Settles O46: each event's own tests are met by what its condition names. -/
theorem recorderEventsAct : Obligations.RecorderEventsAct := by
  unfold Obligations.RecorderEventsAct
  refine ⟨?assembly, ?shed, ?unshed, ?close, ?written, ?flush, ?linkUp, ?probed, ?formatted, ?lost, ?smart, ?fewFails, ?thirdFail⟩
  case assembly => exact does_of_whenCx (fun _ => rfl) (fun _ ⟨hcx, _⟩ => hcx) fun _ _ => rfl
  case shed =>
    exact does_of_whenCx (fun _ => rfl) (fun _ hs => hs.1) fun s ⟨_, hactive, hlate, habove, hfull⟩ =>
      shedTimer_high hactive hlate habove hfull
  case unshed =>
    exact does_of_whenCx (fun _ => rfl) (fun _ hs => hs.1) fun s ⟨_, hactive, hlate, hbelow, hnotFull, hlow⟩ =>
      shedTimer_low hactive hlate hbelow hnotFull hlow
  case close => exact does_of_whenCx (fun _ => rfl) (fun _ hs => hs.1) fun s ⟨_, hdue⟩ => chunkClose_of_due hdue
  case written => exact fun d => does_of_whenCx (fun _ => rfl) (fun _ hs => hs.1) fun _ _ => rfl
  case flush =>
    exact fun f => does_of_whenCx (fun _ => rfl) (fun _ hs => hs.1) fun s ⟨_, hwords, hdue⟩ => streamFlush_of_due hwords hdue
  case linkUp => exact fun d link => does_of_whenCx (fun _ => rfl) (fun _ hs => hs.1) fun _ _ => rfl
  case probed => exact fun d r => does_of_whenCx (fun _ => rfl) (fun _ hs => hs.1) fun _ _ => rfl
  case formatted => exact fun d => does_of_whenCx (fun _ => rfl) (fun _ hs => hs.1) fun _ _ => rfl
  case lost => exact fun d => does_of_whenCx (fun _ => rfl) (fun _ hs => hs.1) fun _ _ => rfl
  case smart =>
    exact fun d => does_of_whenCx (fun _ => rfl) (fun _ hs => hs.1) fun s ⟨_, hwrites⟩ => ssdFailed_of_writes hwrites true
  case fewFails =>
    exact fun d => does_of_whenCx (fun _ => rfl) (fun _ hs => hs.1) fun s ⟨_, hwrites, hfew⟩ => ssdFailed_of_few hwrites hfew
  case thirdFail =>
    exact fun d => does_of_whenCx (fun _ => rfl) (fun _ hs => hs.1) fun s ⟨_, hwrites, hmany⟩ => ssdFailed_of_third hwrites hmany

end

section
/-! SUPPORT. The family of spec section 15, start-up, health and power: what each event does where its own tests are met; then the
statements. -/

namespace Sys2Proof.Machine

variable {s : State}

/-! Start-up and reset (R508 to R515). -/

/-- A step other than one that waits or stops the boot ends with its work done (R512, R513, R515). -/
theorem startupStep_of_ends {r : StepResult} (hon : s.on = true) (hstep : s.health.step ≠ 0)
    (hboots : s.health.step = 2 → r ≠ .bootFail) (hacquired : s.health.step = 7 → acquired s = true)
    (hrom : s.health.bootRom = false) : startupStep s r = endStep (stepWork s s.health.step r) s.health.step := by
  have hruns : ¬(!s.on || decide (s.health.step = 0) || s.health.bootRom) = true := by simp [hon, hstep, hrom]
  have hboot : ¬(decide (s.health.step = 2) && decide (r = .bootFail)) = true := by simpa using hboots
  have hwaits : ¬(decide (s.health.step = 7) && !acquired s) = true := by simpa using hacquired
  exact (if_neg hruns).trans ((if_neg hboot).trans (if_neg hwaits))

theorem acquisitionTimeout_of_late (hon : s.on = true) (hstep : s.health.step = 7) (hacquiring : s.tickTb.st = .acquiring)
    (hlate : s.elapsed s.health.stepClk (wallSec (s.rn 0xB010 2)) = true) :
    acquisitionTimeout s = s.setNum 0xB010 5 (s.rn 0xB010 5 ||| 16) := if_pos (by simp [hon, hstep, hacquiring, hlate])

/-- A reset of a module that runs holds every die but the Paddock and releases the NOR (R22, R510). -/
theorem resetAssert_of_on (hon : s.on = true) : resetAssert s =
    (let t := coldState { s with health := { s.health with supplied := true } }
     t.setHealth { t.health with reset := true, nor := .lands }) := by
  simp only [resetAssert, hon, if_true]

theorem resetRelease_of_reset (hreset : s.health.reset = true) : resetRelease s =
    if s.health.supplied then beginStartup (s.setHealth { s.health with reset := false, nor := .cx })
    else s.setHealth { s.health with reset := false, nor := .cx } := if_neg (by simp [hreset])

theorem supplyLost_of_on (hon : s.on = true) : supplyLost s =
    paddockLog ((coldState s).setHealth { (coldState s).health with supplied := false }) 8 0 := if_pos (by simp [hon])

/-! Power failure (R533 to R535). -/

/-- PFW_N returns high, driven by the module where it had driven it low (R535). -/
theorem powerFailClear_of_warned {clk : Nat} (hon : s.on = true) (hwarned : s.health.pfw = some clk) : powerFailClear s =
    (let t := if s.health.pfwOut = true then s.emit (.pin pinPfw 0 true s.clock.tick 0) else s
     unsealRecorder ((t.setHealth { s.health with pfw := none, pfwHigh := s.clock.timClk, pfwOut := false }).setNum 0xB020 5 0)) := by
  refine (if_neg (by simp [hon, hwarned])).trans ?_
  cases hout : s.health.pfwOut <;> rfl

theorem declareClear_of_high (hshut : s.health.shut = true) (hpfw : s.health.pfw = none)
    (hhigh : s.elapsed s.health.pfwHigh (wallNs 100000000) = true) : declareClear s =
      { s with field := { s.field with sendDecl := false }, health := { s.health with shut := false } } :=
  if_pos (by simp [hshut, hpfw, hhigh])

/-! Cluster memory and the Paddock (R526, R537 to R539). -/

/-- A corrected error of a channel's or an axis's memory is counted only (R526). A task's data are kept elsewhere. -/
theorem clusterError_corrected {kind : Nat} (item : Nat) (hon : s.on = true) (hkind : kind ≠ 3) :
    clusterError s true kind item = s.bump 0xF000 6 := by
  simp [clusterError, hon, hkind]

/-- A temperature that crosses its threshold is logged (R538). -/
theorem tempSample_of_crossed {c : Int} (h : s.paddock.tempHigh ≠ decide (c > s.ri 0xB080 3 8)) : tempSample s c =
    paddockLog { s with paddock := { s.paddock with tempHigh := decide (c > s.ri 0xB080 3 8) } }
      (if c > s.ri 0xB080 3 8 then 6 else 7) 0 := by
  refine (if_neg h.symm).trans ?_
  rw [if_congr decide_eq_true_iff rfl rfl]

theorem brownOut_of_on (hon : s.on = true) : brownOut s = { s with paddock := { s.paddock with latch := true } } := by
  simp only [brownOut, hon, if_true]

/-- Without its supply the module loses the event log (R537). -/
theorem brownOut_of_off (hoff : s.on = false) : brownOut s = { s with paddock := { s.paddock with latch := true, log := [] } } := by
  simp only [brownOut, hoff, Bool.false_eq_true, if_false]

theorem wakeEnd_of_passed (hwake : s.paddock.wake = true) (hpassed : s.on = false ∨ s.paddock.wakeAt + 3276 ≤ s.paddock.clock) :
    wakeEnd s = ({ s with paddock := { s.paddock with wake := false } }).emit (.pin pinWake 0 true s.clock.tick 0) :=
  if_pos (by simpa [hwake] using hpassed)

end Sys2Proof.Machine

open Sys2Proof Sys2Proof.Machine

/-- Settles O47: each event's own tests are met by what its condition names.
A shutdown step without a test of its delay, OD B020:05 at 0 once PFW_N is high again, and the end of step 7 only once acquisition is
over are the model's choices (notes/assumptions/168.md, 105.md and 101.md). -/
theorem powerAndStartupEventsAct : Obligations.PowerAndStartupEventsAct := by
  unfold Obligations.PowerAndStartupEventsAct
  refine ⟨?powerOn, ?step, ?timeout, ?assert, ?supplied, ?unsupplied, ?fuse, ?warning, ?shutdown, ?lockout, ?clear, ?declare, ?region,
    ?watchdog, ?parity, ?warmReturn⟩
  case powerOn => exact does_of_run (fun _ => rfl) fun _ _ => rfl
  case step =>
    exact fun r => does_of_run (fun _ => rfl) fun s ⟨hon, hstep, hboots, hacquired, hrom⟩ =>
      startupStep_of_ends hon hstep hboots hacquired hrom
  case timeout =>
    exact does_of_run (fun _ => rfl) fun s ⟨hon, hstep, hacquiring, hlate⟩ => acquisitionTimeout_of_late hon hstep hacquiring hlate
  case assert => exact does_of_run (fun _ => rfl) fun s hon => resetAssert_of_on hon
  case supplied =>
    exact does_of_run (fun _ => rfl) fun s ⟨hreset, hsupplied⟩ => (resetRelease_of_reset hreset).trans (if_pos hsupplied)
  case unsupplied =>
    exact does_of_run (fun _ => rfl) fun s ⟨hreset, hsupplied⟩ =>
      (resetRelease_of_reset hreset).trans (if_neg (Bool.eq_false_iff.mp hsupplied))
  case fuse => exact does_of_run (fun _ => rfl) fun s hon => supplyLost_of_on hon
  case warning => exact does_of_run (fun _ => rfl) fun _ _ => rfl
  case shutdown => exact fun clk => does_of_run (fun _ => rfl) fun _ _ => rfl
  case lockout => exact fun micros => does_of_run (fun _ => rfl) fun _ _ => rfl
  case clear => exact fun clk => does_of_run (fun _ => rfl) fun s ⟨hon, hwarned⟩ => powerFailClear_of_warned hon hwarned
  case declare =>
    exact does_of_axRuns (fun _ => rfl) (fun _ hs => hs.1) fun s ⟨_, hshut, hpfw, hhigh⟩ => declareClear_of_high hshut hpfw hhigh
  case region => exact fun v failed => does_of_whenOn (fun _ => rfl) fun _ hs => hs.1
  case watchdog => exact does_of_run (fun _ => rfl) fun _ _ => rfl
  case parity => exact does_of_run (fun _ => rfl) fun _ _ => rfl
  case warmReturn => exact fun r good taskGood => does_of_whenOn (fun _ => rfl) fun _ hs => hs.1

/-- Settles O48: each event's own tests are met by what its condition names.
The log lost in a brown-out without supply, the 3,276 clocks of a pulse on WAKE_N, and a task's errors counted elsewhere than those of
cluster memory are the model's choices (notes/assumptions/108.md, 149.md and 106.md). -/
theorem healthEventsAct : Obligations.HealthEventsAct := by
  unfold Obligations.HealthEventsAct
  refine ⟨?correctable, ?uncorrectable, ?mramCorrected, ?mramCopy, ?mramSlot, ?clusterCorrected, ?clusterFailed, ?scrub, ?governor, ?trip,
    ?release, ?vbat, ?powerReturn, ?caseSwitch, ?temperature, ?brownOutOn, ?brownOutOff, ?wake⟩
  case correctable => exact does_of_whenOn (fun _ => rfl) fun _ hon => hon
  case uncorrectable => exact fun o => does_of_run (fun _ => rfl) fun _ _ => rfl
  case mramCorrected => exact does_of_onRuns (fun _ => rfl) (fun _ hon => hon) fun _ _ => rfl
  case mramCopy => exact does_of_onRuns (fun _ => rfl) (fun _ hon => hon) fun _ _ => rfl
  case mramSlot => exact fun n => does_of_onRuns (fun _ => rfl) (fun _ hon => hon) fun _ _ => rfl
  case clusterCorrected =>
    intro kind item hkind
    have hcounted : kind.val + 1 ≠ 3 := fun h => hkind (Fin.ext (Nat.succ.inj h))
    exact does_of_run (fun _ => rfl) fun s hon => clusterError_corrected item.val hon hcounted
  case clusterFailed => exact fun kind item => does_of_run (fun _ => rfl) fun _ _ => rfl
  case scrub => exact does_of_whenOn (fun _ => rfl) fun _ hon => hon
  case governor => exact fun hot p => does_of_run (fun _ => rfl) fun _ _ => rfl
  case trip => exact fun d => does_of_run (fun _ => rfl) fun _ _ => rfl
  case release => exact does_of_whenOn (fun _ => rfl) fun _ hon => hon
  case vbat => exact fun mv => does_of_run (fun _ => rfl) fun _ _ => rfl
  case powerReturn => exact does_of_run (fun _ => rfl) fun _ _ => rfl
  case caseSwitch => exact fun b => does_of_run (fun _ => rfl) fun _ _ => rfl
  case temperature => exact fun c => does_of_run (fun _ => rfl) fun s hcrossed => tempSample_of_crossed hcrossed
  case brownOutOn => exact does_of_run (fun _ => rfl) fun s hon => brownOut_of_on hon
  case brownOutOff => exact does_of_run (fun _ => rfl) fun s hoff => brownOut_of_off hoff
  case wake => exact does_of_run (fun _ => rfl) fun s ⟨hwake, hpassed⟩ => wakeEnd_of_passed hwake hpassed

end

section
/-! SUPPORT. The step and its queue, and what remains of the events of samples and local axes and of the writes of layers and health.
First what an event does that needs its function to serve, and what each event does where its own tests are met; then the statements. -/

namespace Sys2Proof.Machine

variable {s : State}

/-- An event of a function has its effect where that function serves. -/
theorem does_of_serves {k : Nat} {c : Instr} {cond : State → Prop} {f effect : State → State}
    (hexec : ∀ s, exec c s = run (whenServes k f) s) (hserves : ∀ s, cond s → servesFn k s) (hf : ∀ s, cond s → f s = effect s) :
    Does c cond effect :=
  does_of_run hexec fun s hs =>
    have ⟨hon, hcx, hk⟩ := hserves s hs
    (whenServes_on s k f hon hcx hk).trans (hf s hs)

/-! Samples and missed deadlines (R222, R228, R232, R253, R254). -/

section
variable {n : Nat}

theorem sampleChannel_of_boundary (hplaced : (s.chan n).placed = true)
    (hboundary : s.clock.tick % s.rn (0x4000 + n) 4 = (s.chan n).phase) : sampleChannel s n = chanSample s n :=
  if_pos (Bool.and_eq_true_iff.mpr ⟨hplaced, decide_eq_true hboundary⟩)

theorem inputFault_of_due (hplaced : (s.chan n).placed = true) (hdue : (s.chan n).faultDue = true)
    (hboundary : s.clock.tick % s.rn (0x4000 + n) 4 = (s.chan n).phase) : inputFault s n = faultReaction s n :=
  if_pos (Bool.and_eq_true_iff.mpr ⟨Bool.and_eq_true_iff.mpr ⟨hplaced, hdue⟩, decide_eq_true hboundary⟩)

/-- A missed deadline of a placed channel is counted and retires the unit (R228). -/
theorem missChannel_of_placed (hplaced : (s.chan n).placed = true) : missChannel s n =
    retireUnit ((s.setChan n { s.chan n with overrun := true, toCome := none }).bump (0x4000 + n) 0x21) (s.chan n).unit 2 :=
  if_pos hplaced

theorem missAxis_of_placed (hplaced : (s.axis n).placed = true) : missAxis s n =
    retireUnit ((s.setAxis n { s.axis n with overrun := true, toCome := none }).bump (0x5000 + n) 0x26) (s.axis n).unit 2 :=
  if_pos hplaced

/-- At its boundary an axis that does not coast takes its sample, with or without the commands that wait for the engines (R193). -/
theorem sampleAxis_of_boundary (hdeclared : declaredHere s (0x5000 + n) 3 = true)
    (hboundary : s.clock.tick % axisPeriod s n = phaseOf s 2 n) (hcoasts : axisCoasts s n = false) :
    sampleAxis s n = commitCoastRec (if axisLocal s n || enginesAck s then axisSample s n else heldSample s n) n := by
  refine if_pos ?_
  rw [hcoasts, Bool.not_false, Bool.and_true]
  exact Bool.and_eq_true_iff.mpr ⟨hdeclared, decide_eq_true hboundary⟩

theorem sampleAxis_of_taken (hdeclared : declaredHere s (0x5000 + n) 3 = true)
    (hboundary : s.clock.tick % axisPeriod s n = phaseOf s 2 n) (hcoasts : axisCoasts s n = false)
    (htaken : axisLocal s n = true ∨ enginesAck s = true) : sampleAxis s n = commitCoastRec (axisSample s n) n := by
  rw [sampleAxis_of_boundary hdeclared hboundary hcoasts, if_pos (Bool.or_eq_true_iff.mpr htaken)]

theorem sampleAxis_of_waiting (hdeclared : declaredHere s (0x5000 + n) 3 = true)
    (hboundary : s.clock.tick % axisPeriod s n = phaseOf s 2 n) (hcoasts : axisCoasts s n = false)
    (hlocal : axisLocal s n = false) (hack : enginesAck s = false) : sampleAxis s n = commitCoastRec (heldSample s n) n := by
  rw [sampleAxis_of_boundary hdeclared hboundary hcoasts, if_neg (by simp [hlocal, hack])]

end

/-! Encoders and local axes (R298, R302, R312). -/

section
variable {a : Nat}

/-- An axis at rest holds once its hold delay has passed (R298). -/
theorem holdDelay_of_passed (hstepper : s.rn (0x7580 + a) 1 = 2) (hrest : (s.loc a).sNew = (s.loc a).x)
    (hpassed : msPassed s (s.loc a).lastMove (s.rn (0x7580 + a) 0x0A) = true) :
    holdDelay s a = s.setLoc a { s.loc a with holding := true } :=
  if_pos (by simp [locIdx, hstepper, hrest, hpassed])

theorem encoderLineFault_of_used {e : Nat} (hused : s.rn (0x7500 + e) 1 ≠ 0) : encoderLineFault s e =
    clearHomed (s.setEnc e { s.enc e with lineFault := true, faultTick := true }) e := if_neg hused

/-- Homing that runs takes what is reported to it. -/
theorem homingNote_of_runs {f : Homing → Homing} (hstarted : (s.loc a).homing.phase ≠ 0) (hopen : (s.loc a).homing.phase ≠ 9) :
    homingNote s a f = s.setLoc a { s.loc a with homing := f (s.loc a).homing } := if_neg (by simp [hstarted, hopen])

/-- A deviation that has lasted for the dwell time is the home edge (R312). -/
theorem hardStop_of_dwelt {t : Nat} (hmode : s.rn (0x5A00 + a) 1 = 5) (hphase : (s.loc a).homing.phase = 1)
    (hsince : (s.loc a).homing.devSince = some t) (hdwelt : msPassed s t (s.rn (0x5A00 + a) 0x0B) = true) : hardStop s a =
      s.setLoc a { s.loc a with homing := (s.loc a).homing.setEdge ((localActual s a).getD (s.loc a).x) } := by
  have hdeviates : (s.loc a).homing.devSince.any (fun t => msPassed s t (s.rn (homIdx a) 0x0B)) = true := by
    rw [hsince, Option.any_some]
    exact hdwelt
  refine (if_pos hmode).trans ((homingNote_of_runs (by simp [hphase]) (by simp [hphase])).trans ?_)
  simp only [hphase, hdeviates, decide_true, Bool.and_self, if_true]

end

end Sys2Proof.Machine

open Sys2Proof Sys2Proof.Machine

/-- Settles O1: a step takes the queue apart at its front. -/
theorem stepTakesFrontCommand : Obligations.StepTakesFrontCommand := by
  unfold Obligations.StepTakesFrontCommand
  exact step_cons

/-- Settles O2: an empty queue leaves the step no command. -/
theorem emptyQueueIdles : Obligations.EmptyQueueIdles := by
  unfold Obligations.EmptyQueueIdles
  exact step_nil

/-- Settles O3: a command settles an effect, whichever it is, and with an empty queue the block stays as it is
(the model's choice, notes/assumptions/6.md). -/
theorem everyStepGoesOn : Obligations.EveryStepGoesOn := by
  unfold Obligations.EveryStepGoesOn
  intro s
  cases hqueue : s.pending with
  | nil => exact ⟨s, step_nil s hqueue⟩
  | cons c rest =>
    obtain ⟨t, hexec⟩ := exec_settles { s with pending := rest } c
    exact ⟨_, (step_cons s c rest hqueue).trans hexec⟩

/-- Settles O4: a settled state has the queue with which its command began. -/
theorem stepTakesOneCommand : Obligations.StepTakesOneCommand := by
  unfold Obligations.StepTakesOneCommand
  intro s t hstep
  cases hqueue : s.pending with
  | nil =>
    rw [step_nil s hqueue] at hstep
    rw [← Host.Outcome.next.inj hstep, hqueue]
    rfl
  | cons c rest =>
    obtain ⟨u, hexec⟩ := exec_settles { s with pending := rest } c
    rw [step_cons s c rest hqueue, hexec] at hstep
    rw [← Host.Outcome.next.inj hstep, settle_pending]
    rfl

/-- Settles O41: each event's own tests are met by what its condition names. -/
theorem sampleAndLocalEventsAct : Obligations.SampleAndLocalEventsAct := by
  unfold Obligations.SampleAndLocalEventsAct
  refine ⟨?channel, ?inputFault, ?channelOverrun, ?axis, ?heldAxis, ?axisOverrun, ?holdDelay, ?edge, ?index, ?lineFault, ?lineClear,
    ?transfer, ?capture, ?limit, ?rearm, ?hardStop, ?homed⟩
  case channel =>
    exact fun n => does_of_serves (fun _ => rfl) (fun _ hs => hs.1) fun s ⟨_, hplaced, hboundary⟩ =>
      sampleChannel_of_boundary hplaced hboundary
  case inputFault =>
    exact fun n => does_of_serves (fun _ => rfl) (fun _ hs => hs.1) fun s ⟨_, hplaced, hdue, hboundary⟩ =>
      inputFault_of_due hplaced hdue hboundary
  case channelOverrun =>
    exact fun n => does_of_whenCx (fun _ => rfl) (fun _ hs => hs.1) fun s ⟨_, hplaced⟩ => missChannel_of_placed hplaced
  case axis =>
    exact fun n => does_of_serves (fun _ => rfl) (fun _ hs => hs.1) fun s ⟨_, hdeclared, hboundary, hcoasts, htaken⟩ =>
      sampleAxis_of_taken hdeclared hboundary hcoasts htaken
  case heldAxis =>
    exact fun n => does_of_serves (fun _ => rfl) (fun _ hs => hs.1) fun s ⟨_, hdeclared, hboundary, hcoasts, hlocal, hack⟩ =>
      sampleAxis_of_waiting hdeclared hboundary hcoasts hlocal hack
  case axisOverrun =>
    exact fun n => does_of_whenCx (fun _ => rfl) (fun _ hs => hs.1) fun s ⟨_, hplaced⟩ => missAxis_of_placed hplaced
  case holdDelay =>
    exact fun a => does_of_axRuns (fun _ => rfl) (fun _ hs => hs.1) fun s ⟨_, hstepper, hrest, hpassed⟩ =>
      holdDelay_of_passed hstepper hrest hpassed
  case edge => exact fun e a b offset => does_of_whenAx (fun _ => rfl) fun _ hs => hs.1
  case index => exact fun e offset => does_of_whenAx (fun _ => rfl) fun _ hs => hs.1
  case lineFault =>
    exact fun e => does_of_axRuns (fun _ => rfl) (fun _ hs => hs.1) fun s ⟨_, hused⟩ => encoderLineFault_of_used hused
  case lineClear => exact fun e => does_of_whenAx (fun _ => rfl) fun _ hax => hax
  case transfer => exact fun e word i m p => does_of_whenAx (fun _ => rfl) fun _ hs => hs.1
  case capture => exact fun c rising offset => does_of_whenAx (fun _ => rfl) fun _ hs => hs.1
  case limit => exact fun a which ago => does_of_whenAx (fun _ => rfl) fun _ hs => hs.1
  case rearm => exact fun a which ago => does_of_whenAx (fun _ => rfl) fun _ hs => hs.1
  case hardStop =>
    exact fun a t => does_of_axRuns (fun _ => rfl) (fun _ hs => hs.1) fun s ⟨_, hmode, hphase, hsince, hdwelt⟩ =>
      hardStop_of_dwelt hmode hphase hsince hdwelt
  case homed => exact fun a r n => does_of_whenCx (fun _ => rfl) (fun _ hs => hs.1) fun _ _ => rfl

/-- Settles O60: each command puts one byte into its entry, and a register write serves the WRITE of the bytes that it names. -/
theorem layerAndHealthWritesAct : Obligations.LayerAndHealthWritesAct := by
  unfold Obligations.LayerAndHealthWritesAct
  intro w
  refine ⟨?mode, ?capture, ?verify, ?activate, ?discard, ?start, ?pause, ?resume, ?abort, ?advance, ?fwVerify, ?fwCommit, ?fwDiscard,
    ?fwLock, ?region, ?restart, ?clearLog, ?register⟩
  case mode => exact fun v => writes_of_put_byte fun _ => rfl
  case capture => exact writes_of_put_byte (v := 1) fun _ => rfl
  case verify => exact writes_of_put_byte (v := 1) fun _ => rfl
  case activate => exact writes_of_put_byte (v := 2) fun _ => rfl
  case discard => exact writes_of_put_byte (v := 4) fun _ => rfl
  case start => exact fun k => writes_of_put_byte (v := 1) fun _ => rfl
  case pause => exact fun k => writes_of_put_byte (v := 2) fun _ => rfl
  case resume => exact fun k => writes_of_put_byte (v := 3) fun _ => rfl
  case abort => exact fun k => writes_of_put_byte (v := 4) fun _ => rfl
  case advance => exact fun k => writes_of_put_byte (v := 5) fun _ => rfl
  case fwVerify => exact writes_of_put_byte (v := 1) fun _ => rfl
  case fwCommit => exact writes_of_put_byte (v := 2) fun _ => rfl
  case fwDiscard => exact writes_of_put_byte (v := 3) fun _ => rfl
  case fwLock => exact writes_of_put_byte (v := 4) fun _ => rfl
  case region => exact fun v => writes_of_put_byte fun _ => rfl
  case restart => exact writes_of_put_byte (v := 1) fun _ => rfl
  case clearLog => exact writes_of_put_byte (v := 1) fun _ => rfl
  case register => exact fun index sub data => writes_of_serveWrite fun _ => rfl

end

section
/-! SUPPORT. What commands leave as it is. First a command behind its guard, then each function of the commands named, by the chapter of
the spec that it belongs to: the parts of the state that it may write; then the statements. -/

namespace Sys2Proof.Machine

/-! Commands behind their guards. -/

section
variable {c : Instr} {f : State → State} {r : State → State → Prop}

/-- What a guard lets through or keeps back is within what the effect leaves. -/
theorem leaves_of_guard {g : State → State} (hexec : ∀ s, exec c s = run g s) (hg : ∀ s, g s = f s ∨ g s = s) (hrefl : ∀ s, r s s)
    (hf : ∀ s, r s (f s)) : Leaves c r := by
  refine fun s _ => ⟨g s, (hexec s).trans (run_eq s g), ?_⟩
  obtain h | h := hg s
  · rw [h]
    exact hf s
  · rw [h]
    exact hrefl s

theorem leaves_of_run (hexec : ∀ s, exec c s = run f s) (hf : ∀ s, r s (f s)) : Leaves c r :=
  fun s _ => ⟨f s, (hexec s).trans (run_eq s f), hf s⟩

theorem leaves_of_whenOn (hexec : ∀ s, exec c s = run (whenOn f) s) (hrefl : ∀ s, r s s) (hf : ∀ s, r s (f s)) : Leaves c r :=
  leaves_of_guard hexec (fun _ => ite_eq_or_eq _ _ _) hrefl hf

theorem leaves_of_whenCx (hexec : ∀ s, exec c s = run (whenCx f) s) (hrefl : ∀ s, r s s) (hf : ∀ s, r s (f s)) : Leaves c r :=
  leaves_of_guard hexec (fun _ => ite_eq_or_eq _ _ _) hrefl hf

theorem leaves_of_whenAx (hexec : ∀ s, exec c s = run (whenAx f) s) (hrefl : ∀ s, r s s) (hf : ∀ s, r s (f s)) : Leaves c r :=
  leaves_of_guard hexec (fun _ => ite_eq_or_eq _ _ _) hrefl hf

theorem leaves_of_whenServes {k : Nat} (hexec : ∀ s, exec c s = run (whenServes k f) s) (hrefl : ∀ s, r s s) (hf : ∀ s, r s (f s)) :
    Leaves c r :=
  leaves_of_guard hexec (fun _ => ite_eq_or_eq _ _ _) hrefl hf

end

variable (s : State)

/-! Links and the dictionary service (chapters 1 and 2). -/

theorem refQualified_frame : refQualified s = { s with regs := (refQualified s).regs, clock := (refQualified s).clock } := by
  unfold refQualified
  dsimp only
  split <;> rfl

theorem bulkFlit_frame (l : Link) (good : Bool) : bulkFlit s l good = { s with links := (bulkFlit s l good).links } := by
  cases good <;> rfl

/-- A request that CX handles by an answer, whatever it answers, writes what its examination writes and what is sent. -/
theorem request_frame {c : ClientId} {op txn index sub count : Nat} {away : Option (List Byte)} {handle : State → State}
    (hhandle : ∀ t, handle t = { t with sent := (handle t).sent }) :
    ∃ x d o n, request s c op txn index sub count away handle = { s with clock := x, dict := d, sent := o, freeCtr := n } := by
  have hanswer (code : Nat) (data : List Byte) := respond_frame (s := s) (c := c) op txn index sub count code data
  have hbusy := respond_frame (s := asked s c) (c := c) op txn index sub count abBusy []
  unfold request
  split
  · exact ⟨_, _, _, _, rfl⟩
  · split
    · split
      · exact ⟨_, _, _, _, hanswer _ _⟩
      · exact ⟨_, _, _, _, hanswer _ _⟩
    · dsimp only
      split
      · exact ⟨_, _, _, _, by rw [hbusy, asked_frame]⟩
      · exact ⟨_, _, _, _, by rw [hhandle, asked_frame]⟩

theorem serveInfo_frame (c : ClientId) (txn index sub : Nat) :
    serveInfo s c txn index sub = { s with sent := (serveInfo s c txn index sub).sent } := by
  unfold serveInfo
  split
  · exact respond_frame ..
  · split <;> exact respond_frame ..

/-- INFO writes what the examination of a request writes, and its answer. -/
theorem dazInfo_frame (c : ClientId) (m : DazMsg) :
    ∃ x d o n, dazInfo s c m = { s with clock := x, dict := d, sent := o, freeCtr := n } := by
  unfold dazInfo dazRequest
  refine request_frame s fun t => ?_
  dsimp only
  split
  · exact serveInfo_frame ..
  · exact respond_frame ..

theorem segmentTimeout_frame (c : ClientId) (index sub : Nat) :
    segmentTimeout s c index sub = { s with dict := (segmentTimeout s c index sub).dict } := by
  unfold segmentTimeout
  split
  · split <;> rfl
  · rfl

theorem idleSession_frame (n : Fin 16) : idleSession s n = { s with dict := (idleSession s n).dict, sent := (idleSession s n).sent } := by
  unfold idleSession
  split
  · split <;> rfl
  · rfl

/-! PTP and Leads (chapter 3). -/

@[simp] theorem stampOf_snd (p n : Nat) (corr : Int) : (stampOf s p n corr).2 = s.free.2 := rfl

theorem syncSend_frame (p n : Nat) : syncSend s p n =
    { s with ports := (syncSend s p n).ports, sent := (syncSend s p n).sent, freeCtr := (syncSend s p n).freeCtr } := by
  unfold syncSend
  split <;> rfl

theorem announceSend_frame (p n : Nat) : announceSend s p n =
    { s with ports := (announceSend s p n).ports, sent := (announceSend s p n).sent } := by
  unfold announceSend
  split <;> rfl

theorem delayRequestSend_frame (p n : Nat) : delayRequestSend s p n =
    { s with ports := (delayRequestSend s p n).ports, sent := (delayRequestSend s p n).sent,
             freeCtr := (delayRequestSend s p n).freeCtr } := by
  unfold delayRequestSend
  split <;> rfl

theorem delayRequestReceived_frame (p n who seq : Nat) : ∃ o m, delayRequestReceived s p n who seq =
    { s with sent := o, freeCtr := m } := by
  simp only [delayRequestReceived, stampOf_snd, State.free, State.emit]
  split
  · exact ⟨_, _, rfl⟩
  · split
    · exact ⟨_, _, rfl⟩
    · split
      · exact ⟨_, _, rfl⟩
      · exact ⟨_, _, rfl⟩

theorem delayResponse_frame (p seq delay : Nat) :
    delayResponse s p seq delay = { s with ports := (delayResponse s p seq delay).ports } := by
  unfold delayResponse
  dsimp only
  split <;> rfl

theorem tb7Writeback_frame : tb7Writeback s = { s with paddock := (tb7Writeback s).paddock } := by
  unfold tb7Writeback
  split <;> rfl

theorem takeSample_frame (n : Nat) (p t : Int) : takeSample s n p t = { s with leads := (takeSample s n p t).leads } := by
  unfold takeSample
  extract_lets l v l'
  split
  · rfl
  · split
    · rfl
    · split <;> rfl

/-- A sample writes the Leads, whether it is unwrapped first or taken as it is. -/
theorem leadSampleIn_frame (n value stamp : Nat) :
    leadSampleIn s n value stamp = { s with leads := (leadSampleIn s n value stamp).leads } := by
  unfold leadSampleIn
  dsimp only
  split
  · rfl
  · split
    · rw [takeSample_frame]
      rfl
    · split
      · exact takeSample_frame ..
      · rfl

theorem leadTimeout_frame (n : Nat) : leadTimeout s n = { s with leads := (leadTimeout s n).leads } := by
  unfold leadTimeout
  dsimp only
  split <;> rfl

theorem leadStopped_frame (n : Nat) : leadStopped s n = { s with leads := (leadStopped s n).leads } := by
  unfold leadStopped
  dsimp only
  split <;> rfl

theorem ppsIn_frame (offset : Nat) : ppsIn s offset = { s with regs := (ppsIn s offset).regs, freeCtr := (ppsIn s offset).freeCtr } :=
  bump_frame _ _

/-! The line bus, coast, Henvy and the uplinks (chapters 4 and 5). -/

theorem toStation_frame (a st : Nat) : toStation s a st = { s with stations := (toStation s a st).stations } := by
  unfold toStation
  dsimp only
  split <;> rfl

theorem configureReturn_frame (statuses : List (Nat × Nat)) : ∃ l, configureReturn s statuses = { s with stations := l } := by
  refine List.foldlRecOn statuses _ (motive := fun (t : State) => ∃ l, t = { s with stations := l }) ⟨_, rfl⟩ ?_
  rintro _ ⟨l, rfl⟩ p _
  split
  · exact ⟨_, toStation_frame ..⟩
  · exact ⟨_, rfl⟩

theorem configured_frame (e : Engine) (k : Nat) (statuses : List (Fin 2048 × Byte)) :
    ∃ l, configured s e k statuses = { s with stations := l } := by
  unfold configured
  split
  · exact configureReturn_frame ..
  · exact ⟨_, rfl⟩

theorem ringHeal_frame (k : Nat) : ringHeal s k = { s with rings := (ringHeal s k).rings } := by
  unfold ringHeal
  dsimp only
  split <;> rfl

theorem commitCoastRec_frame (n : Nat) : commitCoastRec s n = { s with coast := (commitCoastRec s n).coast } := by
  unfold commitCoastRec
  dsimp only
  split <;> rfl

theorem upSend_frame (prio : Nat) (head : Nat → List Byte) (msg : UpMsg) : upSend s prio head msg =
    { s with uplinks := (upSend s prio head msg).uplinks, prp := (upSend s prio head msg).prp,
             freeCtr := (upSend s prio head msg).freeCtr } := rfl

theorem firstCopy_frame (a : Arrival) :
    (firstCopy s a).2 = { s with uplinks := (firstCopy s a).2.uplinks, prp := (firstCopy s a).2.prp } := by
  unfold firstCopy
  dsimp only
  split <;> rfl

theorem henvyMember_frame (m : MemberMsg) :
    henvyMember s m = { s with regs := (henvyMember s m).regs, henvy := (henvyMember s m).henvy } := by
  unfold henvyMember
  dsimp only
  split
  · rfl
  · split
    · rfl
    · split
      · rfl
      · split <;> rfl

/-- A message of another module writes what its arrival writes, and what its own function writes (R99, R202, R205). -/
theorem henvyMember_arrives_frame (m : MemberMsg) : ∃ x r h u p n, henvyArrives s m.from_ (henvyMember · m) =
    { s with clock := x, regs := r, henvy := h, uplinks := u, prp := p, freeCtr := n } := by
  unfold henvyArrives
  split
  · exact ⟨_, _, _, _, _, _, rfl⟩
  · dsimp only
    split
    · rw [henvyMember_frame, firstCopy_frame]
      exact ⟨_, _, _, _, _, _, rfl⟩
    · rw [firstCopy_frame]
      exact ⟨_, _, _, _, _, _, rfl⟩

theorem sendMember_frame : sendMember s =
    { s with uplinks := (sendMember s).uplinks, prp := (sendMember s).prp, freeCtr := (sendMember s).freeCtr } := by
  unfold sendMember
  dsimp only
  split <;> rfl

theorem henvyStopSend_frame : henvyStopSend s =
    { s with henvy := (henvyStopSend s).henvy, uplinks := (henvyStopSend s).uplinks, prp := (henvyStopSend s).prp,
             freeCtr := (henvyStopSend s).freeCtr } := by
  unfold henvyStopSend
  split <;> rfl

theorem candidateEnd_frame : candidateEnd s = { s with regs := (candidateEnd s).regs } := by
  unfold candidateEnd
  split <;> rfl

theorem prpSupervision_frame : prpSupervision s =
    { s with uplinks := (prpSupervision s).uplinks, prp := (prpSupervision s).prp, freeCtr := (prpSupervision s).freeCtr } := by
  unfold prpSupervision
  split <;> rfl

theorem prpPath_down_frame (n : Nat) : prpPath s n false = { s with regs := (prpPath s n false).regs } := by
  unfold prpPath
  simp only [Bool.false_eq_true, if_false]
  split
  · rfl
  · split <;> rfl

theorem prpPath_up_frame (n : Nat) :
    prpPath s n true = { s with regs := (prpPath s n true).regs, uplinks := (prpPath s n true).uplinks } := by
  unfold prpPath
  simp only [if_true]
  split <;> rfl

/-! Channels and local axes (chapters 6 and 8). -/

theorem faultReaction_frame (n : Nat) : faultReaction s n = { s with chans := (faultReaction s n).chans } := by
  unfold faultReaction
  dsimp only
  split
  · split
    · rfl
    · split <;> rfl
    · rfl
  · rfl

theorem inputFault_frame (n : Nat) : inputFault s n = { s with chans := (inputFault s n).chans } := by
  unfold inputFault
  dsimp only
  split
  · exact faultReaction_frame ..
  · rfl

theorem holdDelay_frame (a : Nat) : holdDelay s a = { s with locals := (holdDelay s a).locals } := by
  unfold holdDelay
  dsimp only
  split <;> rfl

theorem limitRearm_frame (a which ago : Nat) : ∃ l, limitRearm s a which ago = { s with locals := l } := by
  unfold limitRearm
  dsimp only
  split
  · exact ⟨_, rfl⟩
  · exact homingNote_frame _ a _

theorem hardStop_frame (a : Nat) : ∃ l, hardStop s a = { s with locals := l } := by
  unfold hardStop
  split
  · exact homingNote_frame ..
  · exact ⟨_, rfl⟩

/-! The program, the Ostler, analogue outputs and field I/O (chapters 9 to 12). -/

theorem holdTimeout_frame : holdTimeout s = { s with prog := (holdTimeout s).prog } := by
  unfold holdTimeout requestStop
  dsimp only
  split
  · split <;> rfl
  · rfl

theorem jobComplete_frame (job i : Nat) (result : List Byte) : jobComplete s job i result =
    { s with tasks := (jobComplete s job i result).tasks, prog := (jobComplete s job i result).prog } := by
  unfold jobComplete
  split <;> rfl

theorem copyComplete_frame (kind item : Nat) : copyComplete s kind item = { s with ost := (copyComplete s kind item).ost } := by
  unfold copyComplete
  split
  · rfl
  · split <;> rfl

theorem aoutLoss_frame (o : Nat) : aoutLoss s o = { s with aouts := (aoutLoss s o).aouts } := by
  unfold aoutLoss
  dsimp only
  split <;> rfl

theorem aoutFaultEnd_frame (o : Nat) (f : AoutFaultKind) : aoutFaultEnd s o f = { s with aouts := (aoutFaultEnd s o f).aouts } := by
  cases f <;> rfl

/-- A switch writes outputs and what is sent. -/
theorem switchOut_frame (o : Nat) : switchOut s o = { s with douts := (switchOut s o).douts, sent := (switchOut s o).sent } := by
  unfold switchOut switchOutAt
  extract_lets x d st t
  split <;> rfl

theorem doLoss_frame (o : Nat) : doLoss s o = { s with douts := (doLoss s o).douts, sent := (doLoss s o).sent } := by
  unfold doLoss
  dsimp only
  split
  · rw [switchOut_frame]
    rfl
  · rfl

theorem faultCountClear_frame (o : Nat) : faultCountClear s o = { s with douts := (faultCountClear s o).douts } := by
  unfold faultCountClear
  split <;> rfl

theorem openLoad_frame (o : Nat) : openLoad s o = { s with douts := (openLoad s o).douts } := by
  unfold openLoad
  split <;> rfl

theorem lplusRestart_frame (q : Nat) : lplusRestart s q =
    { s with douts := (lplusRestart s q).douts, supplies := (lplusRestart s q).supplies, sent := (lplusRestart s q).sent } := by
  unfold lplusRestart releaseOut
  dsimp only
  split
  · rfl
  · split
    · rw [switchOut_frame]
      rfl
    · rfl

/-! SSDs, start-up, the governor and the Paddock (chapters 13 and 15). -/

/-- Chunks leave the buffer of the recorder. -/
theorem freeChunks_frame {s t : State} (h : ∃ r x, t = { s with rcd := r, ssds := x }) :
    ∃ r x, freeChunks t = { s with rcd := r, ssds := x } := by
  obtain ⟨r, x, rfl⟩ := h
  unfold freeChunks
  split
  · exact ⟨_, _, rfl⟩
  · exact ⟨_, _, rfl⟩

theorem ssdProbed_frame (d : Nat) (r : ProbeResult) :
    ssdProbed s d r = { s with rcd := (ssdProbed s d r).rcd, ssds := (ssdProbed s d r).ssds } := by
  unfold ssdProbed
  dsimp only
  split
  · rfl
  · cases r with
    | own vol idx seq pos chunks => rfl
    | foreignVolume => rfl
    | unusable => rfl
    | noSuperblock => dsimp only; split <;> rfl

theorem ssdLost_frame (d : Nat) : ∃ r x, ssdLost s d = { s with rcd := r, ssds := x } := by
  simp only [ssdLost, setSsdState, State.mark, State.setSsd]
  split
  · exact ⟨_, _, rfl⟩
  · exact freeChunks_frame ⟨_, _, rfl⟩

theorem acquisitionTimeout_frame : acquisitionTimeout s = { s with regs := (acquisitionTimeout s).regs } := by
  unfold acquisitionTimeout
  split <;> rfl

theorem declareClear_frame : declareClear s = { s with field := (declareClear s).field, health := (declareClear s).health } := by
  unfold declareClear
  split <;> rfl

theorem governorUpdate_frame (hot : Int) (p : Nat) :
    governorUpdate s hot p = { s with regs := (governorUpdate s hot p).regs, gov := (governorUpdate s hot p).gov } := by
  unfold governorUpdate
  split <;> rfl

theorem paddockLog_frame (code data : Nat) :
    paddockLog s code data = { s with paddock := (paddockLog s code data).paddock, sent := (paddockLog s code data).sent } := by
  unfold paddockLog
  dsimp only
  split <;> rfl

theorem tempSample_frame (c : Int) : tempSample s c = { s with paddock := (tempSample s c).paddock, sent := (tempSample s c).sent } := by
  unfold tempSample
  dsimp only
  split
  · rfl
  · rw [paddockLog_frame]

theorem wakeEnd_frame : wakeEnd s = { s with paddock := (wakeEnd s).paddock, sent := (wakeEnd s).sent } := by
  unfold wakeEnd
  split <;> rfl

end Sys2Proof.Machine

open Sys2Proof Sys2Proof.Machine

/-- Settles O33: each command runs behind its guard a function whose writes are among the parts named. -/
theorem timeAndPathCommandFrames : Obligations.TimeAndPathCommandFrames := by
  unfold Obligations.TimeAndPathCommandFrames
  refine ⟨?refQualified, ?trim, ?flit, ?bulk, ?info, ?segmentTimeout, ?idle, ?sync, ?tb7, ?leadSample, ?leadTimeout, ?leadStopped,
    ?configure, ?heal, ?coastRecord, ?member, ?memberSend, ?stopSend, ?candidateEnd, ?pathDown, ?inputFault, ?holdDelay, ?rearm,
    ?hardStop, ?holdTimeout, ?job, ?copy, ?aoutLoss, ?countClear, ?restart⟩
  case refQualified => exact leaves_of_whenAx (fun _ => rfl) (fun _ => rfl) fun s => refQualified_frame s
  case trim => exact leaves_of_whenAx (fun _ => rfl) (fun _ => rfl) fun _ => rfl
  case flit => exact fun l first second => leaves_of_whenOn (fun _ => rfl) (fun _ => rfl) fun _ => rfl
  case bulk => exact fun l good => leaves_of_whenOn (fun _ => rfl) (fun _ => rfl) fun s => bulkFlit_frame s l good
  case info =>
    refine fun c m => leaves_of_run (fun _ => rfl) fun s => ?_
    obtain ⟨x, d, o, n, h⟩ := dazInfo_frame s c m
    rw [h]
  case segmentTimeout =>
    exact fun c index sub => leaves_of_whenCx (fun _ => rfl) (fun _ => rfl) fun s => segmentTimeout_frame s c index.toNat sub.toNat
  case idle => exact fun n => leaves_of_whenCx (fun _ => rfl) (fun _ => rfl) fun s => idleSession_frame s n
  case sync => exact fun p n => leaves_of_whenAx (fun _ => rfl) (fun _ => rfl) fun s => syncSend_frame s p.val n.val
  case tb7 => exact leaves_of_whenAx (fun _ => rfl) (fun _ => rfl) fun s => tb7Writeback_frame s
  case leadSample =>
    exact fun n value _ stamp => leaves_of_whenOn (fun _ => rfl) (fun _ => rfl) fun s => leadSampleIn_frame s n.val value.toNat stamp
  case leadTimeout => exact fun n => leaves_of_whenOn (fun _ => rfl) (fun _ => rfl) fun s => leadTimeout_frame s n.val
  case leadStopped => exact fun n => leaves_of_whenOn (fun _ => rfl) (fun _ => rfl) fun s => leadStopped_frame s n.val
  case configure =>
    refine fun e k statuses => leaves_of_whenOn (fun _ => rfl) (fun _ => rfl) fun s => ?_
    obtain ⟨l, h⟩ := configured_frame s e k.val statuses
    rw [h]
  case heal => exact fun k => leaves_of_whenOn (fun _ => rfl) (fun _ => rfl) fun s => ringHeal_frame s k.val
  case coastRecord => exact fun n => leaves_of_whenCx (fun _ => rfl) (fun _ => rfl) fun s => commitCoastRec_frame s n.val
  case member =>
    refine fun m => leaves_of_whenCx (fun _ => rfl) (fun _ => rfl) fun s => ?_
    obtain ⟨x, r, h, u, p, n, heq⟩ := henvyMember_arrives_frame s m
    rw [heq]
  case memberSend => exact leaves_of_whenCx (fun _ => rfl) (fun _ => rfl) fun s => sendMember_frame s
  case stopSend => exact leaves_of_whenCx (fun _ => rfl) (fun _ => rfl) fun s => henvyStopSend_frame s
  case candidateEnd => exact leaves_of_whenCx (fun _ => rfl) (fun _ => rfl) fun s => candidateEnd_frame s
  case pathDown => exact fun path => leaves_of_whenCx (fun _ => rfl) (fun _ => rfl) fun s => prpPath_down_frame s path.val
  case inputFault => exact fun n => leaves_of_whenServes (fun _ => rfl) (fun _ => rfl) fun s => inputFault_frame s n.val
  case holdDelay => exact fun a => leaves_of_whenAx (fun _ => rfl) (fun _ => rfl) fun s => holdDelay_frame s a.val
  case rearm =>
    refine fun a which ago => leaves_of_whenAx (fun _ => rfl) (fun _ => rfl) fun s => ?_
    obtain ⟨l, h⟩ := limitRearm_frame s a.val which.val ago
    rw [h]
  case hardStop =>
    refine fun a => leaves_of_whenAx (fun _ => rfl) (fun _ => rfl) fun s => ?_
    obtain ⟨l, h⟩ := hardStop_frame s a.val
    rw [h]
  case holdTimeout => exact leaves_of_whenCx (fun _ => rfl) (fun _ => rfl) fun s => holdTimeout_frame s
  case job =>
    exact fun job i result => leaves_of_whenCx (fun _ => rfl) (fun _ => rfl) fun s => jobComplete_frame s job i.val result
  case copy =>
    exact fun kind item => leaves_of_whenCx (fun _ => rfl) (fun _ => rfl) fun s => copyComplete_frame s (kind.val + 1) item.val
  case aoutLoss => exact fun o => leaves_of_whenAx (fun _ => rfl) (fun _ => rfl) fun s => aoutLoss_frame s o.val
  case countClear => exact fun o => leaves_of_whenOn (fun _ => rfl) (fun _ => rfl) fun s => faultCountClear_frame s o.val
  case restart => exact fun q => leaves_of_whenOn (fun _ => rfl) (fun _ => rfl) fun s => lplusRestart_frame s q.val

/-- Settles O34: each command runs, behind its guard where it has one, a function whose writes are among the parts named. -/
theorem plantAndHealthCommandFrames : Obligations.PlantAndHealthCommandFrames := by
  unfold Obligations.PlantAndHealthCommandFrames
  refine ⟨?doLoss, ?openLoad, ?probed, ?ssdLost, ?acquisition, ?declare, ?correctable, ?scrub, ?governor, ?powerReturn, ?temperature,
    ?brownOut, ?wake, ?pps, ?close, ?announce, ?delaySend, ?delayReceived, ?delayResponse, ?verify, ?supervision, ?pathUp, ?release,
    ?aoutClear, ?lineClear, ?wireClear, ?loadClear⟩
  case doLoss => exact fun o => leaves_of_whenOn (fun _ => rfl) (fun _ => rfl) fun s => doLoss_frame s o.val
  case openLoad => exact fun o => leaves_of_whenOn (fun _ => rfl) (fun _ => rfl) fun s => openLoad_frame s o.val
  case probed => exact fun d r => leaves_of_whenCx (fun _ => rfl) (fun _ => rfl) fun s => ssdProbed_frame s d.val r
  case ssdLost =>
    refine fun d => leaves_of_whenCx (fun _ => rfl) (fun _ => rfl) fun s => ?_
    obtain ⟨r, x, h⟩ := ssdLost_frame s d.val
    rw [h]
  case acquisition => exact leaves_of_run (fun _ => rfl) fun s => acquisitionTimeout_frame s
  case declare => exact leaves_of_whenAx (fun _ => rfl) (fun _ => rfl) fun s => declareClear_frame s
  case correctable => exact leaves_of_whenOn (fun _ => rfl) (fun _ => rfl) fun s => bump_frame ..
  case scrub => exact leaves_of_whenOn (fun _ => rfl) (fun _ => rfl) fun s => bump_frame ..
  case governor => exact fun hot p => leaves_of_run (fun _ => rfl) fun s => governorUpdate_frame s hot p
  case powerReturn => exact leaves_of_run (fun _ => rfl) fun s => paddockLog_frame s 3 0
  case temperature => exact fun c => leaves_of_run (fun _ => rfl) fun s => tempSample_frame s c
  case brownOut => exact leaves_of_run (fun _ => rfl) fun _ => rfl
  case wake => exact leaves_of_run (fun _ => rfl) fun s => wakeEnd_frame s
  case pps => exact fun offset => leaves_of_whenAx (fun _ => rfl) (fun _ => rfl) fun s => ppsIn_frame s offset
  case close => exact fun n => leaves_of_whenCx (fun _ => rfl) (fun _ => rfl) fun _ => rfl
  case announce => exact fun p n => leaves_of_whenAx (fun _ => rfl) (fun _ => rfl) fun s => announceSend_frame s p.val n.val
  case delaySend => exact fun p n => leaves_of_whenAx (fun _ => rfl) (fun _ => rfl) fun s => delayRequestSend_frame s p.val n.val
  case delayReceived =>
    refine fun p n requester seq => leaves_of_whenAx (fun _ => rfl) (fun _ => rfl) fun s => ?_
    obtain ⟨o, m, h⟩ := delayRequestReceived_frame s p.val n.val requester.toNat seq.toNat
    rw [h]
  case delayResponse =>
    exact fun p n seq delay => leaves_of_whenAx (fun _ => rfl) (fun _ => rfl) fun s => delayResponse_frame s p.val seq.toNat delay
  case verify => exact fun u verified => leaves_of_whenCx (fun _ => rfl) (fun _ => rfl) fun _ => rfl
  case supervision => exact leaves_of_whenCx (fun _ => rfl) (fun _ => rfl) fun s => prpSupervision_frame s
  case pathUp => exact fun path => leaves_of_whenCx (fun _ => rfl) (fun _ => rfl) fun s => prpPath_up_frame s path.val
  case release => exact leaves_of_whenOn (fun _ => rfl) (fun _ => rfl) fun _ => rfl
  case aoutClear => exact fun o f => leaves_of_whenAx (fun _ => rfl) (fun _ => rfl) fun s => aoutFaultEnd_frame s o.val f
  case lineClear => exact fun e => leaves_of_whenAx (fun _ => rfl) (fun _ => rfl) fun _ => rfl
  case wireClear => exact fun i => leaves_of_whenOn (fun _ => rfl) (fun _ => rfl) fun _ => rfl
  case loadClear => exact fun o => leaves_of_whenOn (fun _ => rfl) (fun _ => rfl) fun _ => rfl

end
